-- ==== Sys2Proof/Word.lean ====
section
/-!
DEFINITION. The words of the 4512 and the sparse tables the state is made of.
A register is a 32-bit word (R10), memory is bytes (R225). A `Tab` holds a unit that has many like parts (registers,
engines, receivers): the parts that differ from their start value, with rising keys.
-/

namespace Sys2Proof

/-- A 32-bit register or memory word (R10, R225). -/
abbrev Word := BitVec 32

/-- One byte of memory. -/
abbrev Byte := BitVec 8

/-- A sparse table by number, keys rising; a number that is not listed has the table's default part. -/
abbrev Tab (α : Type) := List (Nat × α)

end Sys2Proof
end

