-- ==== Sys2Proof/Machine/Bits.lean ====
section
/-!
DEFINITION. Bit arithmetic that several units share: extension, counting, byte order, the CRCs (R135, R246), PN9 (R136)
and the Golay code of the header (R133, R134). Mended here if a test shows one wrong.
-/

namespace Sys2Proof.Machine

/-- Sign extension to a word. -/
def sext {n : Nat} (x : BitVec n) : Word := x.signExtend 32

/-- Zero extension to a word. -/
def zext {n : Nat} (x : BitVec n) : Word := x.setWidth 32

/-- A truth value as a bit number. -/
def b2n (b : Bool) : Nat := if b then 1 else 0

/-- A truth value as a word, 1 or 0. -/
def b2w (b : Bool) : Word := if b then 1#32 else 0#32

/-- The number that bits spell, the least significant first. -/
def numUp : List Bool → Nat
  | [] => 0
  | b :: rest => b2n b + 2 * numUp rest

/-- Bit k of a number. -/
def bitN (v k : Nat) : Bool := v / 2 ^ k % 2 == 1

/-- Bits [hi:lo] of a number. -/
def bitsN (v hi lo : Nat) : Nat := v / 2 ^ lo % 2 ^ (hi - lo + 1)

/-- Ones among the low n bits. -/
def onesBelow (n v : Nat) : Nat :=
  match n with
  | 0 => 0
  | k + 1 => onesBelow k v + b2n (bitN v k)

/-- Number of ones (POPC). -/
def popc {n : Nat} (x : BitVec n) : Nat := onesBelow n x.toNat

/-- Zeros above the highest one among the low n bits. -/
def leadZeros (n v : Nat) : Nat :=
  match n with
  | 0 => 0
  | k + 1 => if bitN v k then 0 else 1 + leadZeros k v

/-- Leading zeros of a word, 0–32 (CLZ). -/
def clz (x : Word) : Word := BitVec.ofNat 32 (leadZeros 32 x.toNat)

/-- The bytes of a word reversed (REV8). -/
def rev8 (x : Word) : Word :=
  x.extractLsb' 0 8 ++ x.extractLsb' 8 8 ++ x.extractLsb' 16 8 ++ x.extractLsb' 24 8

/-- The low n bits of v in reversed order. -/
def revBits (n v : Nat) : Nat :=
  match n with
  | 0 => 0
  | k + 1 => b2n (bitN v 0) * 2 ^ k + revBits k (v / 2)

/-- The bits of a word reversed (BREV). -/
def brev (x : Word) : Word := BitVec.ofNat 32 (revBits 32 x.toNat)

/-- A number read as a signed n-bit value. -/
def signedN (n v : Nat) : Int :=
  let u := v % 2 ^ n
  if u < 2 ^ (n - 1) then (u : Int) else (u : Int) - 2 ^ n

/-- The low n bits of a signed number (two's complement). -/
def unsignedN (n : Nat) (v : Int) : Nat := (v % 2 ^ n).toNat

/-- An integer held inside [lo, hi]. -/
def clampI (lo hi v : Int) : Int := if v < lo then lo else if hi < v then hi else v

/-- A count plus one, held at its greatest value. -/
def satInc (mx v : Nat) : Nat := if v < mx then v + 1 else mx

/-! ## Bytes -/

/-- Byte k of a number, the least significant first. -/
def byteN (v k : Nat) : Byte := BitVec.ofNat 8 (v / 256 ^ k)

/-- The n low bytes of a number, the least significant first. -/
def leBytes (n v : Nat) : List Byte :=
  match n with
  | 0 => []
  | k + 1 => BitVec.ofNat 8 v :: leBytes k (v / 256)

/-- The number that bytes hold, the least significant first. -/
def leNat (bs : List Byte) : Nat :=
  match bs with
  | [] => 0
  | b :: rest => b.toNat + 256 * leNat rest

/-- The number that bytes hold, the most significant first. -/
def beNat (bs : List Byte) : Nat := bs.foldl (fun a b => a * 256 + b.toNat) 0

/-- The n low bytes of a number, the most significant first. -/
def beBytes (n v : Nat) : List Byte := (leBytes n v).reverse

/-- The first n bytes, with zeros after the end of the list. -/
def takePad (n : Nat) (bs : List Byte) : List Byte :=
  match n with
  | 0 => []
  | k + 1 =>
    match bs with
    | [] => 0#8 :: takePad k []
    | b :: rest => b :: takePad k rest

/-- Byte by byte exclusive or, as long as the shorter list. -/
def xorBytes (a b : List Byte) : List Byte := List.zipWith (· ^^^ ·) a b

/-- Bytes from the list at an offset, zeros past its end. -/
def sliceB (bs : List Byte) (off n : Nat) : List Byte := takePad n (bs.drop off)

/-! ## Checks -/

/-- n shifts of a reflected CRC register of polynomial p (least significant bit first). -/
def crcShiftR (n : Nat) (p r : Nat) : Nat :=
  match n with
  | 0 => r
  | k + 1 => crcShiftR k p (if r % 2 = 1 then Nat.xor (r / 2) p else r / 2)

/-- n shifts of a w-bit CRC register of polynomial p (most significant bit first). -/
def crcShiftL (n w p r : Nat) : Nat :=
  match n with
  | 0 => r
  | k + 1 =>
    let r2 := r * 2 % 2 ^ w
    crcShiftL k w p (if bitN r (w - 1) then Nat.xor r2 p else r2)

/-- The CRC-32 polynomial of IEEE 802.3, reflected (R135). -/
def crc32Poly : Nat := 0xEDB88320

/-- One byte into the reflected CRC-32 register (R135, Table 9-10). -/
def crc32Byte (r : Nat) (b : Byte) : Nat := crcShiftR 8 crc32Poly (Nat.xor r b.toNat)

/-- CRC-32 of IEEE 802.3 over bytes, initial value and final exclusive or 0xFFFF_FFFF (R135). -/
def crc32 (bs : List Byte) : Nat := Nat.xor (bs.foldl crc32Byte 0xFFFFFFFF) 0xFFFFFFFF

/-- One byte into a 16-bit CRC register: least significant bit first, or most significant first (CRC16_B). -/
def crc16Byte (poly : Nat) (msbFirst : Bool) (r : Nat) (b : Byte) : Nat :=
  if msbFirst then crcShiftL 8 16 poly (Nat.xor r (b.toNat * 256))
  else crcShiftR 8 poly (Nat.xor r b.toNat)

/-- One byte into the CRC-8 register, polynomial 0x07, most significant bit first (CRC8_B). -/
def crc8Byte (r : Nat) (b : Byte) : Nat := crcShiftL 8 8 0x07 (Nat.xor r b.toNat)

/-- One step of the PN9 register (R136). -/
def pn9Step (x : Nat) : Nat := x / 2 + b2n (Bool.xor (bitN x 0) (bitN x 5)) * 256

/-- n steps of PN9: the output bits, first in bit 0, and the register after. -/
def pn9Run (n : Nat) (x : Nat) : Nat × Nat :=
  match n with
  | 0 => (0, x)
  | k + 1 =>
    let r := pn9Run k (pn9Step x)
    (x % 2 + 2 * r.1, r.2)

/-- Bytes whitened from register state x (R136). -/
def pn9Whiten (x : Nat) (bs : List Byte) : List Byte :=
  match bs with
  | [] => []
  | b :: rest =>
    let r := pn9Run 8 x
    (b ^^^ BitVec.ofNat 8 r.1) :: pn9Whiten r.2 rest

/-- Remainder of a polynomial below x^23 by the Golay generator 0xC75 (R133). -/
def golayRem (n : Nat) (v : Nat) : Nat :=
  match n with
  | 0 => v
  | k + 1 => golayRem k (if bitN v (11 + k) then Nat.xor v (0xC75 * 2 ^ k) else v)

/-- The 24-bit header word of 12 information bits (R133). -/
def golayEnc (i : Nat) : Nat :=
  let r := golayRem 12 (i % 4096 * 2 ^ 11)
  let w := i % 4096 * 4096 + r * 2
  w + onesBelow 24 w % 2

/-- Decoding of a 24-bit header word: information bits and bits corrected (at most 3), or none when 4 errors are
detected (R134). -/
def golayDec (w : Nat) : Option (Nat × Nat) :=
  match (List.range 4096).find? (fun i => decide (onesBelow 24 (Nat.xor (golayEnc i) w) ≤ 3)) with
  | some i => some (i, onesBelow 24 (Nat.xor (golayEnc i) w))
  | none => none

/-- Little-endian field of n bytes at offset o. -/
def fieldLe (h : List Byte) (o n : Nat) : Nat := leNat ((h.drop o).take n)

end Sys2Proof.Machine
end

