-- ==== Sys2Proof/Syntax.lean ====
section
/-!
DEFINITION. The commands of the block: one constructor per row of spec/opcode_table.json, with the operands of the
row. A command of a Finhit core names the core and the predicate of the instruction (R227, R230); a register operation
names its master; an event names the unit it happens to and carries what the outside world gives it (a measurement, a
random draw, the bits heard on the air).
-/

namespace Sys2Proof

/-- A Finhit core: a link engine or the supervisor (R225, R255). -/
inductive CoreId where
  | eng (n : BitVec 7)
  | sup
  deriving DecidableEq, Repr

/-- A master of a register operation: a Finhit core or the debug port (R412). -/
inductive Master where
  | core (c : CoreId)
  | dbg
  deriving DecidableEq, Repr

/-- The predicate of an instruction: psel and pinv (R227). -/
structure Pred where
  sel : BitVec 3
  inv : Bool
  deriving DecidableEq, Repr

/-- What the CONFIG section settles (R63, R332): register settings, the receivers of the LEAN and FRUGAL sets, the
frugal pair with its frequency code, the Ethernet ports that FRUGAL keeps, and the gains of the external PAs (R105). The
section's layout is not given, so its content is an operand of HANDOVER (log entry 12). -/
structure ConfigSec where
  writes : List (Word × Word)
  lean : List (BitVec 9)
  frugal : List (BitVec 9)
  pair : List (BitVec 4)
  frugalFreq : BitVec 3
  eth : BitVec 2
  gainL : Byte
  gainH : Byte
  deriving DecidableEq, Repr

/-- The commands of the block, one constructor per row of spec/opcode_table.json. -/
inductive Instr where
  /-- REGISTER_WRITE (R11). Write to a register that has no row of its own: each field acts per its access code, and
      reserved or out-of-range values are ignored. `hw`: the W1C bits that hardware sets in the same cycle (R12). -/
  | registerWrite (m : Master) (addr v hw : Word)
  /-- SUPPLIES_IN_RANGE (R450). Every supply monitor reports in range and the package leaves its reset hold. The boot-
      select balls; `io`: the VDD_IO banks A, B, X, F, J in 3.3 V mode (R448). -/
  | suppliesInRange (bootSel : BitVec 2) (io : BitVec 5)
  /-- RAIL_FALL (R451). A monitored rail other than VDD_CORE of compute die 0 falls below its threshold and holds the
      package in reset. -/
  | railFall
  /-- BROWNOUT (R451). VDD_CORE of compute die 0 falls below its threshold while running and the package resets with
      cause BROWNOUT. -/
  | brownout
  /-- RESET_N_ASSERT (R73). RESET_N is held low for at least 1 µs and a package reset with cause RESET_N begins. -/
  | resetNAssert
  /-- RESET_N_RELEASE (R51). Reference time 0: the boot-select balls are sampled, the reset cause is latched and the
      reference oscillator is enabled. The boot-select balls. -/
  | resetNRelease (bootSel : BitVec 2)
  /-- JTAG_RESET (R73). A reset request through the debug port resets the package with cause JTAG. -/
  | jtagReset
  /-- SOFT_RESET (R73). A keyed write to SYS_RESET_CTRL resets the package with cause SOFT after the write completes. -/
  | softReset (m : Master) (v : Word)
  /-- SENSOR_UPDATE (R461). Every 1 ms each die temperature sensor updates and the warn threshold is checked.
      Junctions in signed °C: compute die 0, compute die 1, radio die. -/
  | sensorUpdate (c0 c1 r : Byte)
  /-- REFERENCE_STABLE (R51). The 40 MHz reference is stable and the PLLs lock; the hardware SRAM fill and Latigo
      training start. -/
  | referenceStable
  /-- SRAM_FILL_DONE (R354). The hardware fill completes and every covered memory holds zero words with valid check
      bits. -/
  | sramFillDone
  /-- LATIGO_TRAIN_DONE (R51). A Latigo link completes training and enters UP. -/
  | latigoTrainDone (l : BitVec 3)
  /-- FLASH_DISCOVERY (R361). The flash controller resets the flash, reads its SFDP tables, checks the required
      features and switches to 8D-8D-8D. `ok`: every feature is there; the words are those of XSPI_DEV0 and XSPI_DEV1. -/
  | flashDiscovery (ok : Bool) (dev0 dev1 : Word)
  /-- HEADER_CHECK (R64). The bank header has been read and checks 1–7 of Table 2-7 are applied. -/
  | headerCheck
  /-- SECTION_LOAD (R65). The single hashed pass reads the manifest and section table, applies check 8 and loads every
      section. -/
  | sectionLoad (readErr : Bool)
  /-- SIGNATURE_CHECK (R60). The ECDSA P-256 verification of the image completes and checks 10 and 11 are decided. -/
  | signatureCheck
  /-- SETTINGS_CHECK (R71). The settings block is checked for format and CRC and reset to defaults when either fails. -/
  | settingsCheck
  /-- HANDOVER (R72). CONFIG is applied, the radio sequencer starts, clusters are released, run registers written,
      Cinch started and the supervisor firmware entered. The content of CONFIG and the draws of the TRNG. -/
  | handover (cfg : ConfigSec) (bootTag : BitVec 64) (msgId : Word)
  /-- SUP_HALTER_EXPIRY (R270). The supervisor halter reaches 0 and the package resets with cause SUP_HALTER. -/
  | supHalterExpiry
  /-- SUP_HALT_SVC (R270). A write of the key to SUP_HALT_SVC reloads the supervisor halter. -/
  | supHaltSvc (v : Word)
  /-- TRIAL_START (R58). Writing trial in SYS_BOOT_CTRL puts pref_bank on trial with trials_left 3 in the boot record.
      `pref`: pref_bank of the same write. -/
  | trialStart (m : Master) (pref : Bool)
  /-- PREF_BANK_WRITE (R58). Writing pref_bank in SYS_BOOT_CTRL updates the preferred bank in the boot record. -/
  | prefBankWrite (m : Master) (pref : Bool)
  /-- CONFIRM (R58). Writing confirm during a trial clears trial and raises rb_floor to the running image's anti-
      rollback value. `pref`: pref_bank of the same write. -/
  | confirm (m : Master) (pref : Bool)
  /-- LOG_WRITE_STEP (R77). One of the three atomic 8-byte writes of a log entry completes, freeing the buffer place
      after the code write. -/
  | logWriteStep
  /-- LOG_ADD (R78). A write of SYS_LOG_ADD0 queues a supervisor log entry with the current Cinch frame and RTC
      seconds. -/
  | logAdd (v : Word)
  /-- LATIGO_CRC_ERROR (R42). A flit arrives with a CRC error, is counted and a resend is requested from the replay
      buffer. `resend`: 0 the first sending, 7 the seventh resend. -/
  | latigoCrcError (l resend : BitVec 3)
  /-- LATIGO_RETRAIN_END (R42). The 50 µs RETRAIN period of a link ends. -/
  | latigoRetrainEnd (l : BitVec 3)
  /-- LATIGO_TIMEOUT_EXPIRY (R43). A transaction's timeout expires and the transaction completes by timeout. -/
  | latigoTimeoutExpiry (l : BitVec 3) (i : BitVec 7)
  /-- LATIGO_TRANSACTION_DONE (R40). A Latigo transaction completes and frees its outstanding entry, releasing any
      held requester. `i`: the place among the outstanding ones of the link. -/
  | latigoTransactionDone (l : BitVec 3) (i : BitVec 7)
  /-- ADDI (R228). rd = rs1 + sext(imm12). -/
  | addi (c : CoreId) (p : Pred) (rd rs1 : BitVec 5) (imm : BitVec 12)
  /-- ANDI (R228). rd = rs1 AND zext(imm12). -/
  | andi (c : CoreId) (p : Pred) (rd rs1 : BitVec 5) (imm : BitVec 12)
  /-- ORI (R228). rd = rs1 OR zext(imm12). -/
  | ori (c : CoreId) (p : Pred) (rd rs1 : BitVec 5) (imm : BitVec 12)
  /-- XORI (R228). rd = rs1 XOR zext(imm12). -/
  | xori (c : CoreId) (p : Pred) (rd rs1 : BitVec 5) (imm : BitVec 12)
  /-- SLTI (R228). rd = 1 if rs1 is below sext(imm12), signed. -/
  | slti (c : CoreId) (p : Pred) (rd rs1 : BitVec 5) (imm : BitVec 12)
  /-- SLTIU (R228). rd = 1 if rs1 is below sext(imm12), unsigned. -/
  | sltiu (c : CoreId) (p : Pred) (rd rs1 : BitVec 5) (imm : BitVec 12)
  /-- SLLI (R228). Shift rs1 left by the immediate. -/
  | slli (c : CoreId) (p : Pred) (rd rs1 : BitVec 5) (sh : BitVec 5)
  /-- SRLI (R228). Shift rs1 right by the immediate with zero fill. -/
  | srli (c : CoreId) (p : Pred) (rd rs1 : BitVec 5) (sh : BitVec 5)
  /-- SRAI (R228). Shift rs1 right by the immediate with sign fill. -/
  | srai (c : CoreId) (p : Pred) (rd rs1 : BitVec 5) (sh : BitVec 5)
  /-- RORI (R228). Rotate rs1 right by the immediate. -/
  | rori (c : CoreId) (p : Pred) (rd rs1 : BitVec 5) (sh : BitVec 5)
  /-- ADD (R229). rd = rs1 + rs2. -/
  | add (c : CoreId) (p : Pred) (rd rs1 rs2 : BitVec 5)
  /-- SUB (R229). rd = rs1 − rs2. -/
  | sub (c : CoreId) (p : Pred) (rd rs1 rs2 : BitVec 5)
  /-- AND (R229). rd = rs1 AND rs2. -/
  | and (c : CoreId) (p : Pred) (rd rs1 rs2 : BitVec 5)
  /-- OR (R229). rd = rs1 OR rs2. -/
  | or (c : CoreId) (p : Pred) (rd rs1 rs2 : BitVec 5)
  /-- XOR (R229). rd = rs1 XOR rs2. -/
  | xor (c : CoreId) (p : Pred) (rd rs1 rs2 : BitVec 5)
  /-- SLL (R229). rd = rs1 shifted left by rs2[4:0]. -/
  | sll (c : CoreId) (p : Pred) (rd rs1 rs2 : BitVec 5)
  /-- SRL (R229). rd = rs1 shifted right by rs2[4:0] with zero fill. -/
  | srl (c : CoreId) (p : Pred) (rd rs1 rs2 : BitVec 5)
  /-- SRA (R229). rd = rs1 shifted right by rs2[4:0] with sign fill. -/
  | sra (c : CoreId) (p : Pred) (rd rs1 rs2 : BitVec 5)
  /-- ROR (R229). rd = rs1 rotated right by rs2[4:0]. -/
  | ror (c : CoreId) (p : Pred) (rd rs1 rs2 : BitVec 5)
  /-- SLT (R229). rd = 1 if rs1 is below rs2, signed. -/
  | slt (c : CoreId) (p : Pred) (rd rs1 rs2 : BitVec 5)
  /-- SLTU (R229). rd = 1 if rs1 is below rs2, unsigned. -/
  | sltu (c : CoreId) (p : Pred) (rd rs1 rs2 : BitVec 5)
  /-- MIN (R229). rd = signed minimum of rs1 and rs2. -/
  | min (c : CoreId) (p : Pred) (rd rs1 rs2 : BitVec 5)
  /-- MAX (R229). rd = signed maximum of rs1 and rs2. -/
  | max (c : CoreId) (p : Pred) (rd rs1 rs2 : BitVec 5)
  /-- MINU (R229). rd = unsigned minimum of rs1 and rs2. -/
  | minu (c : CoreId) (p : Pred) (rd rs1 rs2 : BitVec 5)
  /-- MAXU (R229). rd = unsigned maximum of rs1 and rs2. -/
  | maxu (c : CoreId) (p : Pred) (rd rs1 rs2 : BitVec 5)
  /-- ANDN (R229). rd = rs1 AND NOT rs2. -/
  | andn (c : CoreId) (p : Pred) (rd rs1 rs2 : BitVec 5)
  /-- CLZ (R229). rd = leading zeros of rs1. -/
  | clz (c : CoreId) (p : Pred) (rd rs1 : BitVec 5)
  /-- POPC (R229). rd = number of ones in rs1. -/
  | popc (c : CoreId) (p : Pred) (rd rs1 : BitVec 5)
  /-- REV8 (R229). rd = bytes of rs1 reversed. -/
  | rev8 (c : CoreId) (p : Pred) (rd rs1 : BitVec 5)
  /-- SEXTB (R229). rd = sign extension of rs1[7:0]. -/
  | sextb (c : CoreId) (p : Pred) (rd rs1 : BitVec 5)
  /-- SEXTH (R229). rd = sign extension of rs1[15:0]. -/
  | sexth (c : CoreId) (p : Pred) (rd rs1 : BitVec 5)
  /-- ZEXTH (R229). rd = zero extension of rs1[15:0]. -/
  | zexth (c : CoreId) (p : Pred) (rd rs1 : BitVec 5)
  /-- MOVL (R228). rd = zext(imm16). -/
  | movl (c : CoreId) (p : Pred) (rd : BitVec 5) (imm : BitVec 16)
  /-- MOVH (R228). rd[31:16] = imm16 with rd[15:0] kept. -/
  | movh (c : CoreId) (p : Pred) (rd : BitVec 5) (imm : BitVec 16)
  /-- CMP (R232). Compare rs1 with rs2 under cond and write pd under comb. -/
  | cmp (c : CoreId) (p : Pred) (pd : BitVec 3) (comb : BitVec 2) (rs1 rs2 : BitVec 5) (cond : BitVec 3)
  /-- CMPI (R232). Compare rs1 with sext(imm9) under cond and write pd under comb. -/
  | cmpi (c : CoreId) (p : Pred) (pd : BitVec 3) (comb : BitVec 2) (rs1 : BitVec 5) (cond : BitVec 3) (imm : BitVec 9)
  /-- PLOG (R232). pd = (pa XOR ainv) op (pb XOR binv). -/
  | plog (c : CoreId) (p : Pred) (pd pa : BitVec 3) (ainv : Bool) (pb : BitVec 3) (binv : Bool) (op : BitVec 2)
  /-- MUL (R241). Issue the signed 64-bit product of rs1 and rs2 into MH:ML. -/
  | mul (c : CoreId) (p : Pred) (rs1 rs2 : BitVec 5)
  /-- MULU (R241). Issue the unsigned 64-bit product of rs1 and rs2 into MH:ML. -/
  | mulu (c : CoreId) (p : Pred) (rs1 rs2 : BitVec 5)
  /-- MAC (R241). Issue the addition of the signed product of rs1 and rs2 to MH:ML. -/
  | mac (c : CoreId) (p : Pred) (rs1 rs2 : BitVec 5)
  /-- MULTIPLIER_UPDATE (R242). Three cycles after issue the multiplier applies a MUL, MULU, MAC or MTS ML/MH to
      MH:ML. -/
  | multiplierUpdate (c : CoreId)
  /-- MFS (R226). Read a special register into rd. -/
  | mfs (c : CoreId) (p : Pred) (rd : BitVec 5) (sr : BitVec 5)
  /-- MTS (R226). Write rs1 to a special register. -/
  | mts (c : CoreId) (p : Pred) (sr : BitVec 5) (rs1 : BitVec 5)
  /-- LB (R233). Load a sign-extended byte from D-space. -/
  | lb (c : CoreId) (p : Pred) (rd rs1 : BitVec 5) (imm : BitVec 12)
  /-- LBU (R233). Load a zero-extended byte from D-space. -/
  | lbu (c : CoreId) (p : Pred) (rd rs1 : BitVec 5) (imm : BitVec 12)
  /-- LH (R233). Load a sign-extended halfword from D-space. -/
  | lh (c : CoreId) (p : Pred) (rd rs1 : BitVec 5) (imm : BitVec 12)
  /-- LHU (R233). Load a zero-extended halfword from D-space. -/
  | lhu (c : CoreId) (p : Pred) (rd rs1 : BitVec 5) (imm : BitVec 12)
  /-- LW (R233). Load a word from D-space, stalling only when rd is later read before the data arrives. -/
  | lw (c : CoreId) (p : Pred) (rd rs1 : BitVec 5) (imm : BitVec 12)
  /-- LDP (R228). Load 8 bytes into the register pair rd, rd + 1. -/
  | ldp (c : CoreId) (p : Pred) (rd rs1 : BitVec 5) (imm : BitVec 12)
  /-- SB (R233). Store a byte to D-space as a posted read-modify-write. -/
  | sb (c : CoreId) (p : Pred) (rs2 rs1 : BitVec 5) (imm : BitVec 12)
  /-- SH (R233). Store a halfword to D-space as a posted read-modify-write. -/
  | sh (c : CoreId) (p : Pred) (rs2 rs1 : BitVec 5) (imm : BitVec 12)
  /-- SW (R233). Store a word to D-space as a posted read-modify-write. -/
  | sw (c : CoreId) (p : Pred) (rs2 rs1 : BitVec 5) (imm : BitVec 12)
  /-- SDP (R228). Store the register pair rs2, rs2 + 1 as one aligned 8-byte word. -/
  | sdp (c : CoreId) (p : Pred) (rs2 rs1 : BitVec 5) (imm : BitVec 12)
  /-- IN (R243). Read an IO port into rd, completing before the next instruction. -/
  | inPort (c : CoreId) (p : Pred) (rd rs1 : BitVec 5) (imm : BitVec 12)
  /-- OUT (R243). Write rs2 to an IO port, completing before the next instruction. -/
  | outPort (c : CoreId) (p : Pred) (rs2 rs1 : BitVec 5) (imm : BitVec 12)
  /-- B (R236). Branch to pc + 4 × off22. -/
  | b (c : CoreId) (p : Pred) (off : BitVec 22)
  /-- CALL (R236). Write x31 = pc + 4 and branch to pc + 4 × off22. -/
  | call (c : CoreId) (p : Pred) (off : BitVec 22)
  /-- JALR (R236). Write rd = pc + 4 and jump to the word-aligned rs1 + sext(imm12). -/
  | jalr (c : CoreId) (p : Pred) (rd rs1 : BitVec 5) (imm : BitVec 12)
  /-- FENCE (R234). Stall until every earlier access and coprocessor request of the engine has completed. -/
  | fence (c : CoreId) (p : Pred)
  /-- YIELD (R260). The running task slot gives up the engine, with or without done. -/
  | yield (c : CoreId) (p : Pred) (done : Bool)
  /-- BRK (R254). Stop for the attached debugger, or raise BREAK when none is attached and unlocked. -/
  | brk (c : CoreId) (p : Pred) (code : BitVec 16)
  /-- DTAB (R250). Run the micro-ops of the decode-table entry idx and write the last staging value to rd. -/
  | dtab (c : CoreId) (p : Pred) (rd rs1 rs2 : BitVec 5) (idx : BitVec 4) (k : BitVec 3)
  /-- ECC_WRITEBACK (R350). The memory writes a corrected word back in its next free cycle, unless a write reached the
      word first. -/
  | eccWriteback
  /-- REMOTE_ACCESS_COMPLETE (R234). An access outside local D-SRAM completes, delivering load data or freeing one of
      the 8 outstanding entries. `i`: place among the outstanding accesses of the core, oldest first. -/
  | remoteAccessComplete (c : CoreId) (i : BitVec 3)
  /-- COP_ANSWER (R243). A coprocessor answer arrives and is written to rd, ending the engine's stall. -/
  | copAnswer (c : CoreId)
  /-- SUBMIT (R302). COP0 port 0x00: fetch a job descriptor, apply queue shares and queue or refuse the cipher job. -/
  | submit (c : CoreId) (p : Pred) (rd rs1 rs2 : BitVec 5)
  /-- RAND (R302). COP0 port 0x01: return 31 random bits, or 0 while the TRNG is failed. -/
  | rand (c : CoreId) (p : Pred) (rd rs1 rs2 : BitVec 5)
  /-- QSTAT (R302). COP0 port 0x02: return the tenant's queued and running cipher jobs. -/
  | qstat (c : CoreId) (p : Pred) (rd rs1 rs2 : BitVec 5)
  /-- RING_RD (R245). COP1 port 0x00: return the receive ring rd count. -/
  | ringRd (c : CoreId) (p : Pred) (rd rs1 rs2 : BitVec 5)
  /-- RING_WR (R245). COP1 port 0x01: return the receive ring wr count. -/
  | ringWr (c : CoreId) (p : Pred) (rd rs1 rs2 : BitVec 5)
  /-- FREE (R245). COP1 port 0x02: write a new ring rd under R152 and answer accepted or ignored. -/
  | free (c : CoreId) (p : Pred) (rd rs1 rs2 : BitVec 5)
  /-- TQ (R245). COP1 port 0x03: return DECODER_TQ_STATUS of the tenant in this region. -/
  | tq (c : CoreId) (p : Pred) (rd rs1 rs2 : BitVec 5)
  /-- FCOUNT (R245). COP1 ports 0x04–0x07: return a DECODER_FCOUNT word. -/
  | fcount (c : CoreId) (p : Pred) (rd rs1 rs2 : BitVec 5) (w : BitVec 2)
  /-- CRC_INIT (R246). COP2: set the crc state to operand A. -/
  | crcInit (c : CoreId) (p : Pred) (rd rs1 rs2 : BitVec 5)
  /-- CRC32_B (R246). COP2: advance crc over one byte with the CRC-32 polynomial. -/
  | crc32B (c : CoreId) (p : Pred) (rd rs1 rs2 : BitVec 5)
  /-- CRC32_W (R246). COP2: advance crc over the 4 bytes of A, least significant first. -/
  | crc32W (c : CoreId) (p : Pred) (rd rs1 rs2 : BitVec 5)
  /-- CRC16_B (R246). COP2: advance crc[15:0] over one byte with the polynomial and bit order in B. -/
  | crc16B (c : CoreId) (p : Pred) (rd rs1 rs2 : BitVec 5)
  /-- CRC8_B (R246). COP2: advance crc[7:0] over one byte with polynomial 0x07. -/
  | crc8B (c : CoreId) (p : Pred) (rd rs1 rs2 : BitVec 5)
  /-- PN9 (R246). COP2: return the next 8 PN9 output bits and advance pn 8 steps. -/
  | pn9 (c : CoreId) (p : Pred) (rd rs1 rs2 : BitVec 5)
  /-- PN9_INIT (R246). COP2: set the pn state. -/
  | pn9Init (c : CoreId) (p : Pred) (rd rs1 rs2 : BitVec 5)
  /-- GOLAY_ENC (R246). COP2: return the 24-bit Golay header word of 12 information bits. -/
  | golayEnc (c : CoreId) (p : Pred) (rd rs1 rs2 : BitVec 5)
  /-- GOLAY_DEC (R246). COP2: decode a 24-bit header word, reporting corrections or failure. -/
  | golayDec (c : CoreId) (p : Pred) (rd rs1 rs2 : BitVec 5)
  /-- BREV (R246). COP2: return A bit-reversed. -/
  | brev (c : CoreId) (p : Pred) (rd rs1 rs2 : BitVec 5)
  /-- CRC_RD (R246). COP2: return the crc state as held. -/
  | crcRd (c : CoreId) (p : Pred) (rd rs1 rs2 : BitVec 5)
  /-- ARM (R247). COP3: arm the Cinch compare of a task slot, or fire it at once when the instant is past. -/
  | arm (c : CoreId) (p : Pred) (rd rs1 rs2 : BitVec 5) (q : BitVec 4)
  /-- DISARM (R247). COP3: disarm the Cinch compare of a task slot. -/
  | disarm (c : CoreId) (p : Pred) (rd rs1 rs2 : BitVec 5) (q : BitVec 4)
  /-- NOW_NS (R247). COP3: return the current Cinch ns and latch the frame. -/
  | nowNs (c : CoreId) (p : Pred) (rd rs1 rs2 : BitVec 5)
  /-- NOW_FRAME (R247). COP3: return the frame latched by the engine's last NOW_NS. -/
  | nowFrame (c : CoreId) (p : Pred) (rd rs1 rs2 : BitVec 5)
  /-- CINCH_COMPARE_FIRE (R247). Cinch time reaches an armed compare's instant and readiness is sent to the task slot.
      Slots whose compares fire in one cycle, and the slots cancelled in it. -/
  | cinchCompareFire (c : CoreId) (slots cancel : BitVec 16)
  /-- TASK_CFG_WRITE (R260). A write of TASK_CFG enables or disables a task slot or changes its priority. -/
  | taskCfgWrite (c : CoreId) (p : BitVec 4) (v : Word)
  /-- TASK_SIGNAL (R259). A TASK_CTRL signal bit fires a readiness event on the slot. `cancel`: the cancel bits of the
      same write. -/
  | taskSignal (c : CoreId) (signal cancel : BitVec 16)
  /-- TASK_CANCEL (R261). A TASK_CTRL cancel bit consumes the slot's readiness, winning over an event in the same
      cycle. -/
  | taskCancel (c : CoreId) (cancel : BitVec 16)
  /-- NOTICE_ARRIVAL (R264). A notice enters an engine's queue, discarding the oldest when full, and fires its routed
      slot. `srcs`: the sources whose oldest notice arrives in this cycle, bit k source k of R264. -/
  | noticeArrival (c : CoreId) (srcs : BitVec 4) (cancel : BitVec 16)
  /-- NQ_POP (R263). A read of NQ_POP removes the head notice, copies words 1–3 into the views and returns word 0. -/
  | nqPop (c : CoreId)
  /-- MSG_POST (R267). A write of NQ_SEND0 posts a MSG notice to a target engine of the same tenant or the supervisor. -/
  | msgPost (c : CoreId) (v : Word)
  /-- HALT_SVC (R269). A write to HALT_SVC with the key reloads the cluster halter; other values count in bad_svc. -/
  | haltSvc (c : CoreId) (v : Word)
  /-- CLUSTER_HALTER_EXPIRY (R269). A cluster halter reaches 0, restarts the cluster, reloads, counts, posts an ALARM
      and logs HALTER. -/
  | clusterHalterExpiry (cl : BitVec 4)
  /-- ENG_RESTART (R271). The cluster's first engine restarts stopped engines of its cluster through ENG_RESTART. -/
  | engRestart (c : CoreId) (v : BitVec 8)
  /-- ENGCTL_STOP (R271). The supervisor stops an engine at its next instruction boundary through ENGCTL_ENG. -/
  | engctlStop (e : BitVec 7)
  /-- ENGCTL_RESTART (R19). The supervisor restarts a stopped engine through ENGCTL_ENG. -/
  | engctlRestart (e : BitVec 7)
  /-- IDATA_LO_WRITE (R272). Stage bytes 0–3 of an I-SRAM word, or set iwr_err when the engine runs. -/
  | idataLoWrite (e : BitVec 7) (v : Word)
  /-- IDATA_HI_WRITE (R272). Store the whole I-SRAM word with check bits and advance ENGCTL_IADDR by 8. -/
  | idataHiWrite (e : BitVec 7) (v : Word)
  /-- IDATA_LO_READ (R272). Return bytes 0–3 of the I-SRAM word and latch bytes 4–7. -/
  | idataLoRead (e : BitVec 7)
  /-- IDATA_HI_READ (R272). Return the latched bytes 4–7 and advance ENGCTL_IADDR by 8. -/
  | idataHiRead (e : BitVec 7)
  /-- TPRIO_WRITE (R274). A write of ENGCTL_TPRIO changes a tenant's priority cap and its waiting requests. -/
  | tprioWrite (t : BitVec 4) (v : Word)
  /-- PRIORITY_CHANGE_ARRIVAL (R274). A priority change reaches an arbiter and applies to waiting requests at the next
      round. -/
  | priorityChangeArrival
  /-- ENG_FLIP_ARM (R356). An engine arms the flip mask for the next write to its own D-SRAM. -/
  | engFlipArm (c : CoreId) (v : Word)
  /-- FENCE_WRITE (R286). A supervisor write of a fence entry is applied or ignored with fence_err. -/
  | fenceWrite (sys : Bool) (r : BitVec 2) (e : BitVec 6) (v : Word)
  /-- TENANT_SUSPEND (R292). Writing suspend = 1 stops a tenant's engines and receivers, cancels its TX queue and
      refuses its submissions. -/
  | tenantSuspend (m : Master) (t : BitVec 4)
  /-- TENANT_RESUME (R292). Writing suspend = 0 restarts every engine of the tenant. -/
  | tenantResume (m : Master) (t : BitVec 4)
  /-- PATH_STATE_REQ (R83). A write of state_req starts an RX path transition or is kept as the latest request. `p`:
      path B. -/
  | pathStateReq (p : Bool) (v : BitVec 2)
  /-- PATH_STANDBY_REACHED (R83). An RX path completes its SLEEP to STANDBY transition. `p`: path B. -/
  | pathStandbyReached (p : Bool)
  /-- PATH_RECEIVE_REACHED (R83). An RX path completes ADC calibration and enters RECEIVE. `p`: path B. -/
  | pathReceiveReached (p : Bool)
  /-- PLL_LOSS (R83). The sample PLL loses lock and the path drops to STANDBY with pll_loss set. -/
  | pllLoss
  /-- PATH_RATE_WRITE (R84). A write of rate takes effect or is ignored, disabling tuners outside the reduced range.
      `p`: path B; `r`: reduced rate. -/
  | pathRateWrite (p r : Bool)
  /-- LNA_BYPASS_WRITE (R85). A write of lna_byp moves LNA_x_BYP within 1 µs. `p`: path B. -/
  | lnaBypassWrite (p v : Bool)
  /-- TUNER_CFG_WRITE (R87). A write of RADIO_TUNER_CFG enables, disables or configures a tuner, or is refused with
      span_err. -/
  | tunerCfgWrite (t : BitVec 4) (v : Word)
  /-- TUNER_SAMPLES_START (R87). An enabled tuner starts delivering samples 20 µs after its enabling write. -/
  | tunerSamplesStart (t : BitVec 4)
  /-- TX_STATE_REQ (R91). A write of a TX chain's state_req requests SLEEP or STANDBY. -/
  | txStateReq (txh : Bool) (v : BitVec 2)
  /-- TX_STANDBY_REACHED (R91). A TX chain completes its SLEEP to STANDBY transition. -/
  | txStandbyReached (txh : Bool)
  /-- TX_AUTO_WAKE (R92). A sleeping chain with auto_wake leaves SLEEP early enough for its head command. -/
  | txAutoWake (txh : Bool)
  /-- TX_START_SEQUENCE (R95). A command's start sequence begins: admission checks, PSDU read and hop toward its
      earliest start. -/
  | txStartSequence (txh : Bool)
  /-- NODE_ACCOUNT_REQUEST (R338). The agent asks for a node account 5 µs before a node-charged start sequence is due. -/
  | nodeAccountRequest (txh : Bool)
  /-- NODE_ACCOUNT_ANSWER (R338). The node account arrives and the node check charges or refuses the command. -/
  | nodeAccountAnswer (txh : Bool)
  /-- TX_SYNTH_LOCK (R94). The synthesiser locks after a hop or calibration and access to the air can begin. -/
  | txSynthLock (txh : Bool)
  /-- CCA_WINDOW_END (R180). A CCA window ends and the channel is judged clear or busy. `rms`: level at the ball over
      the window, 0.25 dB units. -/
  | ccaWindowEnd (txh : Bool) (rms : BitVec 16)
  /-- BACKOFF_EXPIRY (R180). An LBT backoff ends and the next CCA attempt begins. -/
  | backoffExpiry (txh : Bool)
  /-- FRONT_END_STEP (R102). A timed step of Table 3-5 is reached and its front-end balls or signals switch. `k`: the
      step of Table 3-5. -/
  | frontEndStep (txh : Bool) (k : BitVec 4)
  /-- TX_CARRIER_END (R91). A carrier's final symbol ends and ramp-down starts, freeing the window and power sum. `i`:
      the carrier's place among those on air. -/
  | txCarrierEnd (txh : Bool) (i : BitVec 2)
  /-- TX_LATEST_START_EXPIRY (R94). A held command's latest start passes and it completes LATE, LATE_LOCK or
      CHAIN_OFF. -/
  | txLatestStartExpiry (txh : Bool)
  /-- TX_SUBMIT (R96). An OUT to port 0x810 or 0x811 submits a transmit command block. -/
  | txSubmit (e : BitVec 7) (txh : Bool) (a : Word)
  /-- TX_SUBMIT_FETCH_DONE (R96). The command block fetch completes and the submission checks run. -/
  | txSubmitFetchDone (e : BitVec 7)
  /-- TX_CANCEL (R100). An OUT to port 0x812 cancels the engine's commands of a chain with a tag. -/
  | txCancel (e : BitVec 7) (v : Word)
  /-- SUP_TX_SUBMIT (R98). A write of RADIO_TX_SUBMIT word 7 submits a supervisor command. -/
  | supTxSubmit (txh : Bool) (w7 : Word)
  /-- SUP_TX_CANCEL (R100). A write of RADIO_TX_CANCEL cancels supervisor commands with a tag. -/
  | supTxCancel (txh : Bool) (tag : BitVec 16)
  /-- TX_CAL_GO (R93). A go write requests calibration of an LO ahead of use. -/
  | txCalGo (txh : Bool) (lo : BitVec 22)
  /-- TX_CAL_FLUSH (R93). A flush write invalidates every calibration entry. -/
  | txCalFlush (txh : Bool)
  /-- TX_CAL_DONE (R93). A synthesiser calibration completes and its entry is stored. -/
  | txCalDone (txh : Bool)
  /-- RX_ENABLE (R109). An enabling write of RADIO_RX_CFG is accepted, binding branches, or refused with cfg_err. -/
  | rxEnable (m : Master) (n : BitVec 9) (v : Word)
  /-- RX_DISABLE (R120). A write clearing en disables the receiver, ending a frame in reception DISABLED. -/
  | rxDisable (m : Master) (n : BitVec 9) (v : Word)
  /-- RX_OWNER_WRITE (R125). A supervisor write of tenant or home of a receiver. -/
  | rxOwnerWrite (n : BitVec 9) (tenant : BitVec 4) (home : BitVec 2)
  /-- FILL_TIMER_EXPIRY (R111). A branch's fill timer expires and the receiver enters SEARCH. `b`: branch B. -/
  | fillTimerExpiry (n : BitVec 9) (b : Bool)
  /-- BLANK_RECOVERY (R118). Gf after blanking ends, the branch contributes to sync search again. `b`: branch B. -/
  | blankRecovery (n : BitVec 9) (b : Bool)
  /-- SYNC_DETECT (R116). A sync word is found: RSSI latched, branch chosen, stamp computed and the sync record sent.
      `out`: ns of the current frame at the demodulator output. -/
  | syncDetect (n : BitVec 9) (foundA foundB : Bool) (energyA energyB : Word) (out : BitVec 30) (rssiA rssiB : BitVec 16) (foff : Word)
  /-- DETECTOR_WINDOW_END (R122). A detector window ends and peak and RMS registers update. Levels at the ball; µs of
      ADC full scale. -/
  | detectorWindowEnd (n : BitVec 9) (b : Bool) (peak rms ovld : BitVec 16)
  /-- ENVELOPE_UPDATE (R122). Every 10 µs the envelope register updates. Levels at the ball. -/
  | envelopeUpdate (n : BitVec 9) (envA envB : BitVec 16)
  /-- SPEC_GO (R123). A go write starts a spectrum monitor run. -/
  | specGo (avg tuner : BitVec 4)
  /-- SPEC_DONE (R123). A spectrum run completes and its bins are written. -/
  | specDone (bins : List (BitVec 16))
  /-- INGRESS_SYNC_RECORD (R145). A sync record arrives at the home region's ingress. -/
  | ingressSyncRecord (n : BitVec 9)
  /-- INGRESS_HEADER (R134). The last header soft bit arrives and the header is decoded, ring room checked and an
      entry reserved or the frame ended. `soft`: the soft bits of the header: 24 of the Golay word, 8 of the W1 PHR or
      of the F1 byte L. -/
  | ingressHeader (n : BitVec 9) (soft : List (BitVec 4))
  /-- CODEWORD_START (R146). A codeword's first soft bit requests a context, which is granted, held or causes
      DEC_OVERRUN. -/
  | codewordStart (n : BitVec 9)
  /-- CODEWORD_FILLED (R148). The last soft bit of a codeword arrives and its load starts. `soft`: all soft bits of
      the codeword, in the order they came. -/
  | codewordFilled (n : BitVec 9) (soft : List (BitVec 4))
  /-- CONTEXT_LOAD_DONE (R150). A context's load completes and its input syndrome decides STORE or READY. Context 12 ×
      core + place. -/
  | contextLoadDone (x : BitVec 7)
  /-- ITERATION_END (R150). A decoder iteration ends with early stop, cap, displacement or continuation. -/
  | iterationEnd (core : BitVec 3)
  /-- CONTEXT_STORE_DONE (R151). A context's store completes and the context frees. -/
  | contextStoreDone (x : BitVec 7)
  /-- INGRESS_LAST_SOFT_BIT (R145). The frame's last soft bit arrives and the ingress sends the end to the receiver.
      `soft`: the soft bits of an uncoded PSDU. -/
  | ingressLastSoftBit (n : BitVec 9) (soft : List (BitVec 4))
  /-- INGRESS_END_REPORT (R145). A BRANCH_LOST or DISABLED end report from the receiver ends or drops the frame. -/
  | ingressEndReport (n : BitVec 9)
  /-- RING_RD_WRITE (R152). A write of the ring read pointer frees entries or is ignored with rd_err. -/
  | ringRdWrite (e : BitVec 7) (v : Word)
  /-- DECODER_TQ_WRITE (R147). A write of DECODER_TQ is applied or ignored when it breaks R147. -/
  | decoderTqWrite (m : Master) (r : BitVec 2) (t : BitVec 4) (v : Word)
  /-- DECODER_RESERVE_WRITE (R147). A write of DECODER_RESERVE is applied to later grants or ignored whole. -/
  | decoderReserveWrite (m : Master) (v : Word)
  /-- RELAY_HANDLE (R164). The relay unit takes an OK entry, parses it, copies floods and looks up the node and key.
      `draw`: the random delay of R177, taken modulo its range. -/
  | relayHandle (draw : BitVec 16)
  /-- RELAY_SORT (R167). With en clear, the relay unit sorts an OK entry by tenant only. -/
  | relaySort
  /-- RELAY_VERIFY_RESULT (R164). The relay's verification completes and the seen, replay, learn, relay and deliver
      steps run. -/
  | relayVerifyResult
  /-- RELAY_TX_COMPLETION (R175). A relay, ACK or backbone command of the relay unit completes on its completion port. -/
  | relayTxCompletion
  /-- RELAY_HANDLE_F1 (R424). The relay unit handles an OK F1 entry through alias, verification, de-duplication and
      delivery. -/
  | relayHandleF1
  /-- RESERVATION_START (R426). R_s is reached and the reservation holds TXL for the reply. -/
  | reservationStart (i : BitVec 4)
  /-- RESERVATION_END (R426). A reservation ends at the reply's start or at E + 20.5 ms, counting res_unused when
      unused. -/
  | reservationEnd (i : BitVec 4)
  /-- ALIAS_SET (R423). OLDTREE_ALIAS SET writes or updates an alias entry. -/
  | aliasSet (m : Master) (a : BitVec 24)
  /-- ALIAS_DELETE (R423). OLDTREE_ALIAS DELETE removes an alias entry. -/
  | aliasDelete (m : Master) (a : BitVec 24)
  /-- ALIAS_GET (R423). OLDTREE_ALIAS GET returns an alias entry. -/
  | aliasGet (m : Master) (a : BitVec 24)
  /-- CINCH_BOUNDARY (R196). Frame F ends: new frame, rate applied, plan swap, slot 0 entry, strobe and the ordered
      boundary actions. -/
  | cinchBoundary
  /-- CINCH_OUT_FALL (R405). CINCH_OUT falls after width_ms or before the next rise. -/
  | cinchOutFall
  /-- CINCH_DECISION (R194). At D the servo decides frame F's adjustment, rate and state. -/
  | cinchDecision
  /-- SLOT_START (R200). A slot starts and its plan entry posts SLOT notices, strobes and beacon marks. -/
  | slotStart (slot : BitVec 12)
  /-- PPS_EDGE (R190). A rising edge at CINCH_IN is stamped and taken as a PPS observation, or ignored as extra. `x`:
      ns of the current frame at the edge. -/
  | ppsEdge (x : BitVec 30)
  /-- PTP_ROLLOVER (R190). A port's IEEE 1588 clock rolls over a second, giving a PTP observation. `x`: ns of the
      current Cinch frame at the rollover. -/
  | ptpRollover (p : Bool) (x : BitVec 30)
  /-- AIR_OBS_SUBMIT (R191). A write of CINCH_AIR_OBS submit takes a beacon observation or refuses it. -/
  | airObsSubmit (m : Master) (v : Word)
  /-- HOLDOVER_KEEP_EXPIRY (R193). holdover_keep frames pass and stratum becomes 15 with alarm_hold and CINCH_HOLD
      logged. -/
  | holdoverKeepExpiry
  /-- REACQUIRE (R194). A write of reacquire returns Cinch to FREE at the next D. -/
  | reacquire (m : Master) (v : Word)
  /-- RATE_WRITE (R187). A write of CINCH_RATE sets the held rate for the next boundary, in FREE or HOLDOVER only. -/
  | rateWrite (m : Master) (v : Word)
  /-- PLAN_SWAP_REQUEST (R200). A swap write requests a slot-plan bank swap at the next boundary. -/
  | planSwapRequest (m : Master)
  /-- PLAN_WRITE (R200). A write of a slot-plan entry reaches the inactive bank or is ignored. -/
  | planWrite (m : Master) (bank : Bool) (slot : BitVec 12) (v : Word)
  /-- BEACON_BUILD (R202). 50 ms ahead of a beacon slot the generator builds, encrypts and submits a beacon. -/
  | beaconBuild (slot : BitVec 12)
  /-- BEACON_COMPLETION (R202). A beacon command completes and counts in beacon_sent or beacon_fail. -/
  | beaconCompletion
  /-- EXTENDER_UPDATE (R204). Every 1 µs a time value reaches each extender, which reloads and logs CINCH_SLIP when
      off by 8 ns. `drift`: how far its own clock moved the count off since the last value, signed 1/1,024 ns. -/
  | extenderUpdate (island : BitVec 2) (drift : BitVec 32)
  /-- LOOKUP (R215). Copy a tenant's node entry into the command block. -/
  | lookup (p : BitVec 2)
  /-- INSERT (R214). Insert or update a node entry, evicting the oldest unpinned way when needed. -/
  | insert (p : BitVec 2)
  /-- DELETE (R215). Clear valid of a tenant's node entry. -/
  | delete (p : BitVec 2)
  /-- READ_WAY (R208). Copy a node-table way, valid or not. -/
  | readWay (p : BitVec 2)
  /-- ROUTE_SET (R218). Write a device route entry atomically. -/
  | routeSet (p : BitVec 2)
  /-- ROUTE_GET (R218). Read a device route entry. -/
  | routeGet (p : BitVec 2)
  /-- FORWARD (R221). Send an Ixtiern message to its next hop or deliver it locally. -/
  | forward (p : BitVec 2)
  /-- INBOX_RD (R223). Set the requester's inbox rd. -/
  | inboxRd (p : BitVec 2)
  /-- SWEEP_STEP (R216). The sweeper visits one set, ageing or removing unpinned entries. -/
  | sweepStep
  /-- ECB_ENC (R304). A granted AES-ECB encryption job runs. -/
  | ecbEnc
  /-- ECB_DEC (R304). A granted AES-ECB decryption job runs. -/
  | ecbDec
  /-- CTR (R304). A granted AES-CTR job runs. -/
  | ctr
  /-- CCM_ENC (R304). A granted AES-CCM encryption job runs and writes its tag. -/
  | ccmEnc
  /-- CCM_DEC (R304). A granted AES-CCM decryption job runs and checks its tag. -/
  | ccmDec
  /-- GCM_ENC (R304). A granted AES-GCM encryption job part runs. -/
  | gcmEnc
  /-- GCM_DEC (R304). A granted AES-GCM decryption job part runs. -/
  | gcmDec
  /-- KW_WRAP (R304). A granted RFC 3394 key wrap job runs. -/
  | kwWrap
  /-- KW_UNWRAP (R304). A granted RFC 3394 unwrap into a target slot runs. -/
  | kwUnwrap
  /-- SHA256 (R313). A granted SHA-256 job runs on the ECC engine. -/
  | sha256
  /-- ECDSA_VERIFY (R313). A granted ECDSA P-256 verification runs for 1.95 ms. -/
  | ecdsaVerify
  /-- ECDSA_SIGN (R313). A granted ECDSA P-256 signature runs for 1.10 ms. -/
  | ecdsaSign (draw : BitVec 256)
  /-- NKEY_SET (R300). A granted job writes a node key record from a wrapping. -/
  | nkeySet
  /-- NKEY_DERIVE (R300). A granted job derives a node key from the join key and writes its record. -/
  | nkeyDerive
  /-- NKEY_ERASE (R309). A granted job erases a node key record and its cached key. -/
  | nkeyErase
  /-- CIPHER_JOB_COMPLETE (R307). A cipher job completes, writes its output and posts a CIPHER notice. Units 0–3: the
      AES engines, 4: the ECC engine. -/
  | cipherJobComplete (u : BitVec 3)
  /-- JOB_ABORT (R309). At its next block-slot boundary a job whose key was erased aborts KEY_ERASED. -/
  | jobAbort (u : BitVec 3)
  /-- LOAD_KEY (R297). KEY_CMD LOAD writes the staged key into a slot and clears the data registers. `v`: the low bits
      of the KEY_CMD write. -/
  | loadKey (v : BitVec 28)
  /-- ZEROIZE (R297). KEY_CMD ZEROIZE empties a key slot. `v`: the low bits of the KEY_CMD write. -/
  | zeroize (v : BitVec 28)
  /-- KEYGEN (R314). Generate ECC private key i from the TRNG. -/
  | keygen (i : BitVec 2) (draw : BitVec 256)
  /-- ECC_ZEROIZE (R314). Clear ECC private key i. -/
  | eccZeroize (i : BitVec 2)
  /-- ECC_SAVE (R314). Write the sealed wrapping of ECC private key i to the persistent store. -/
  | eccSave (i : BitVec 2)
  /-- TRNG_TEST_FAIL (R316). A TRNG health test fails, output stops and TRNG_FAIL is logged. `raw`: raw bits that come
      next. -/
  | trngTestFail (raw : List Bool)
  /-- TRNG_RETEST (R316). Every 10 ms a failed TRNG repeats its start-up test. `raw`: the 4,096 raw bits of the
      repeated test. -/
  | trngRetest (raw : List Bool)
  /-- TRNG_STARTUP_DONE (R315). The TRNG start-up test passes and output begins. `raw`: the 4,096 raw bits of the
      start-up test. -/
  | trngStartupDone (raw : List Bool)
  /-- TRNG_DATA_READ (R316). A read of TRNG_DATA takes a new random word from the FIFO. -/
  | trngDataRead
  /-- METER_SAMPLE (R319). A rail current sample is integrated into the ledger. `k`: the counter of Table 13-1 that
      the rail belongs to. -/
  | meterSample (k : BitVec 3) (ua mv : Word)
  /-- PACK_SAMPLE (R320). A shunt and bus sample is integrated into PACK_IN or PACK_OUT and PACK_EST. Signed µV across
      the shunt, µV at VBUS_SENSE. -/
  | packSample (shunt vbus : Word)
  /-- MAINS_OK_EDGE (R320). MAINS_OK changes level and the 10 ms debounce starts. -/
  | mainsOkEdge (level : Bool)
  /-- MAINS_DEBOUNCE_EXPIRY (R320). The debounce ends and mains_ok takes the new level. -/
  | mainsDebounceExpiry (also : BitVec 6)
  /-- PACK_EST_WRITE (R323). A write of the high word of PACK_EST sets the pack estimate. -/
  | packEstWrite (m : Master) (v : Word)
  /-- LEDGER_LOW_READ (R323). A read of a ledger counter's low word latches its high word for the master. `sel`: the
      counter of Table 13-1, 16 + t for tenant t. -/
  | ledgerLowRead (m : Master) (sel : BitVec 5)
  /-- LEDGER_HIGH_READ (R323). A read of a ledger counter's high word returns and releases the latch. -/
  | ledgerHighRead (m : Master) (sel : BitVec 5)
  /-- AGENT_MESSAGE (R318). The planner's allowance message reaches the agent, which installs W and adds ENGINE
      charges. -/
  | agentMessage
  /-- DIE1_READY (R334). The supervisor writes die1_ready and receivers homed on compute die 1 may be enabled. -/
  | die1Ready (m : Master)
  /-- GIRTH_CTRL_WRITE (R329). A write of GIRTH_CTRL applies from the next close or is ignored whole. -/
  | girthCtrlWrite (m : Master) (v : Word)
  /-- NACC_READ (R339). GIRTH_NACC READ returns a node account. -/
  | naccRead (m : Master) (n : BitVec 17)
  /-- NACC_SET (R339). GIRTH_NACC SET sets a node account's allowance, class and enforce. -/
  | naccSet (m : Master) (n : BitVec 17)
  /-- NACC_CHARGE (R339). GIRTH_NACC CHARGE charges a node account. -/
  | naccCharge (m : Master) (n : BitVec 17)
  /-- NACC_CLEAR (R339). GIRTH_NACC CLEAR clears a node account. -/
  | naccClear (m : Master) (n : BitVec 17)
  /-- SLEEP_REQUEST (R342). state_req SLEEP starts the SLEEP entry sequence. -/
  | sleepRequest (m : Master) (v : Word)
  /-- DEEP_SLEEP_REQUEST (R342). state_req DEEP_SLEEP starts the DEEP_SLEEP entry sequence. -/
  | deepSleepRequest (m : Master) (v : Word)
  /-- OFF_REQUEST (R342). state_req OFF runs the entry steps and sets off_armed. -/
  | offRequest (m : Master) (v : Word)
  /-- SLEEP_ENTRY (R343). After carriers end the package stops clusters, ports and radio and enters SLEEP. -/
  | sleepEntry
  /-- DEEP_SLEEP_ENTRY (R344). After carriers end the package closes the ledger, arms the alarm, clamps and powers
      off. -/
  | deepSleepEntry
  /-- OFF_ENTRY (R342). VDD_CORE of compute die 0 falls with off_armed and the package is OFF. -/
  | offEntry
  /-- WAKE_ALARM (R348). The RTC reaches the wake alarm and the package wakes. `also`: the wake sources that fire in
      the same always-on cycle (R348); so in the other wake sources. -/
  | wakeAlarm (also : BitVec 6)
  /-- WAKE_N_LOW (R345). WAKE_N falls and wakes the package. -/
  | wakeNLow (also : BitVec 6)
  /-- STIRRUP_MATCH (R347). The Stirrup hears a matching wake call and wakes the package. -/
  | stirrupMatch (b : List Byte) (also : BitVec 6)
  /-- SURVIVAL_WINDOW_END (R335). A SURVIVAL window ends and the package leaves SURVIVAL or re-enters DEEP_SLEEP. -/
  | survivalWindowEnd
  /-- MEM_FLIP_ARM (R356). The supervisor arms a flip mask for its next write to a memory. -/
  | memFlipArm (v : Word)
  /-- MEM_CLEAR (R355). A go write starts clearing granules or is refused with err. -/
  | memClear (v : Word)
  /-- MEM_CLEAR_DONE (R355). A granule clear completes. -/
  | memClearDone
  /-- BURNISHER_GROUP (R357). The Burnisher checks and corrects one group of 64 words. -/
  | burnisherGroup
  /-- FLASH_READ (R365). XSPI READ copies flash to a buffer. Words 1–3 of XSPI_CMD stand as written; so for the next
      five rows. -/
  | flashRead (m : Master) (tag : BitVec 16)
  /-- FLASH_PROGRAM (R366). XSPI PROGRAM blank-checks its range then programs it page by page. -/
  | flashProgram (m : Master) (tag : BitVec 16)
  /-- FLASH_ERASE (R367). XSPI ERASE erases one 64 KiB block unless protected. -/
  | flashErase (m : Master) (tag : BitVec 16)
  /-- BLANK (R365). XSPI BLANK checks a range is all 0xFF. -/
  | blank (m : Master) (tag : BitVec 16)
  /-- HCHECK (R376). XSPI HCHECK applies header checks 1–7 to a header copy. -/
  | hcheck (m : Master) (tag : BitVec 16)
  /-- VERIFY (R376). XSPI VERIFY applies checks 1–11 to a bank without loading it. -/
  | verify (m : Master) (tag : BitVec 16)
  /-- FLASH_CMD_DONE (R365). A flash command completes with status in XSPI_RESULT. `ok`: the flash reports no error. -/
  | flashCmdDone (ok : Bool)
  /-- WINDOW_LINE_FILL (R363). A missed 64-byte line is read from flash and the waiting reads are answered. -/
  | windowLineFill
  /-- ERASE_SUSPEND (R368). The controller suspends a running erase to serve waiting reads. -/
  | eraseSuspend
  /-- ERASE_RESUME (R368). The suspended erase resumes after the reads are served. -/
  | eraseResume
  /-- PAGE_PROGRAM_DONE (R366). A page program completes and the next page starts or the command ends. `ok`: the flash
      reports no error. -/
  | pageProgramDone (ok : Bool)
  /-- DQS_TIMEOUT (R370). A line read's DQS strobe fails to arrive within 1 µs and is retried. `line`: number of the
      64-byte line. -/
  | dqsTimeout (line : BitVec 22)
  /-- RTC_TICK (R380). A crystal tick advances the RTC fraction and seconds, with cal adjustment. -/
  | rtcTick (vbatLow : Bool)
  /-- RTC_LOAD (R382). A load write sets the RTC at the next tick and sets valid. -/
  | rtcLoad (m : Master) (v : Word)
  /-- XTAL_FAIL (R383). 4 ms without a crystal tick sets xtal_fail and logs RTC_XTAL. -/
  | xtalFail
  /-- VBAT_SWITCHOVER (R387). The always-on domain switches to VBAT, counting and recording the first switch-over. -/
  | vbatSwitchover
  /-- VDDA_SWITCHBACK (R386). VDDA_18 held in range 1 ms and the always-on domain switches back. -/
  | vddaSwitchback
  /-- RTC_SHADOW_FREEZE (R384). A read of RTC_FRAC or RTC_SEC_LO freezes the master's shadow. -/
  | rtcShadowFreeze (m : Master)
  /-- RTC_SHADOW_RELEASE (R385). A read of RTC_SEC_HI returns its word and releases the shadow. -/
  | rtcShadowRelease (m : Master)
  /-- SHADOW_TIMEOUT (R385). A frozen shadow is released 100 µs after it froze. -/
  | shadowTimeout (m : Master)
  /-- TIMER_STEP (R388). A timer steps its count, turning at top and bottom. -/
  | timerStep (n : BitVec 4) (also : BitVec 6)
  /-- TMR_START (R392). Start named timers in one cycle, or at the next slot start. -/
  | tmrStart (m : Master) (v : Word)
  /-- TMR_STOP (R392). Stop named timers at their next step. -/
  | tmrStop (m : Master) (v : Word)
  /-- TIMER_CLEAR (R388). clear on a stopped timer resets count, direction and prescaler. -/
  | timerClear (m : Master) (n : BitVec 4) (v : Word)
  /-- RELOAD_COMMIT (R389). A write of RELOAD_HI commits the staged reload. -/
  | reloadCommit (m : Master) (n : BitVec 4) (v : Word)
  /-- COMPARE_COMMIT (R390). A write of CMP_HI commits the compare live or synchronised. -/
  | compareCommit (m : Master) (n : BitVec 4) (v : Word)
  /-- ETH_MODE_WRITE (R396). A write of mode takes the link down and up in the new mode. -/
  | ethModeWrite (m : Master) (p : Bool) (v : Word)
  /-- ETH_LINK_UP (R396). A port's link comes up. -/
  | ethLinkUp (p : Bool) (speed : BitVec 2)
  /-- ETH_FRAME_RX (R397). A received Ethernet frame is dropped or sent to the forwarder, management unit or ring. -/
  | ethFrameRx (p fcsOk : Bool) (b : List Byte)
  /-- ETH_FRAME_TX (R398). A port sends a frame from its supervisor ring, management unit or forwarder, with stamp. -/
  | ethFrameTx (p : Bool)
  /-- MDIO_READ (R395). A go write runs a clause 22 read frame. -/
  | mdioRead (m : Master) (v : Word)
  /-- MDIO_WRITE (R395). A go write runs a clause 22 write frame. -/
  | mdioWrite (m : Master) (v : Word)
  /-- PTP_STEP (R399). A write of step_ns adds a signed step to the port clock. `p`: port 1; so in the rows of the
      Ethernet ports. -/
  | ptpStep (m : Master) (p : Bool) (v : Word)
  /-- PTP_TIME_READ (R399). A read of ETH_PTP w0 latches seconds and ns. -/
  | ptpTimeRead (m : Master) (p : Bool)
  /-- TXTS_POP (R400). A read of ETH_TXTS w2 pops the head transmit stamp. -/
  | txtsPop (m : Master) (p : Bool)
  /-- MGMT_PEND_READ (R403). A read of ETH_MGMT_PEND takes the next queued slot. -/
  | mgmtPendRead (m : Master)
  /-- MGMT_DONE (R403). A write of ETH_MGMT_DONE encrypts, sends and stores the response. -/
  | mgmtDone (m : Master) (v : Word)
  /-- MGMT_SLOT_EXPIRY (R403). A slot left unanswered for 64 s is freed and its entry becomes EXPIRED. -/
  | mgmtSlotExpiry (k : BitVec 7)
  /-- PINMUX_SEL_WRITE (R414). A PINMUX_SEL write starts a parked function change or is refused. -/
  | pinmuxSelWrite (m : Master) (g : BitVec 5) (v : Word)
  /-- PARK_END (R415). The 2-cycle park ends and the new function takes the ball. -/
  | parkEnd (g : BitVec 5)
  /-- UART_TX_WRITE (R413). A write of UART_DATA pushes a byte into the TX FIFO. -/
  | uartTxWrite (m : Master) (u : Bool) (v : Word)
  /-- UART_RX_POP (R413). A read of UART_DATA pops a byte from the RX FIFO. -/
  | uartRxPop (m : Master) (u : Bool)
  /-- UART_RX_BYTE (R413). A byte arrives on a UART and enters the RX FIFO or counts as overrun. -/
  | uartRxByte (u : Bool) (b : Byte) (frameErr : Bool)
  /-- SPI_EXCHANGE (R413). A write of SPI_DATA starts one 8-bit exchange. -/
  | spiExchange (m : Master) (v : Word)
  /-- SPI_EXCHANGE_DONE (R413). An SPI exchange completes with the received byte. -/
  | spiExchangeDone (b : Byte)
  /-- I2C_START (R413). I2C_CMD START sends a start and address byte. -/
  | i2cStart (m : Master) (v : Word)
  /-- I2C_WRITE (R413). I2C_CMD WRITE sends a byte. -/
  | i2cWrite (m : Master) (v : Word)
  /-- I2C_READ (R413). I2C_CMD READ reads a byte. -/
  | i2cRead (m : Master) (v : Word)
  /-- I2C_STOP (R413). I2C_CMD STOP sends a stop. -/
  | i2cStop (m : Master) (v : Word)
  /-- I2C_OP_DONE (R413). An I2C operation completes and busy clears. -/
  | i2cOpDone (b : Byte) (ack : Bool)
  /-- RECOVERY_HELLO_TICK (R407). Every 1 s until a valid frame the ROM sends a HELLO reply. -/
  | recoveryHelloTick
  /-- RECOVERY_FRAME (R408). A recovery frame is received; a bad CRC is answered NAK. The frame with its bytes 0xA5,
      0x5A. -/
  | recoveryFrame (b : List Byte)
  /-- HELLO (R408). Answer with SYS_DEVICE_ID and SYS_BOOT_STATUS. -/
  | hello
  /-- BAUD (R408). Change the recovery baud rate 1 ms after the ACK. -/
  | baud
  /-- RECOVERY_LOAD (R409). Write data into system SRAM staging at an offset. -/
  | recoveryLoad
  /-- RUN (R409). Check the staged image and start it or wipe and NAK. -/
  | run
  /-- IDCODE (R410). JTAG IDCODE returns the part's identity. -/
  | idcode
  /-- BYPASS (R410). JTAG BYPASS selects the bypass register. -/
  | bypass
  /-- SAMPLE_PRELOAD (R410). JTAG SAMPLE/PRELOAD under scope BSCAN or FULL. -/
  | samplePreload
  /-- EXTEST (R410). JTAG EXTEST, holding both TX chains in SLEEP. -/
  | extest
  /-- CLAMP (R410). JTAG CLAMP, holding both TX chains in SLEEP. -/
  | clamp
  /-- HIGHZ (R410). JTAG HIGHZ, holding both TX chains in SLEEP. -/
  | highz
  /-- DEBUG_CHALLENGE_READ (R411). A host reads the unlock challenge with a fresh nonce. -/
  | debugChallengeRead (draw : BitVec 128)
  /-- DEBUG_UNLOCK (R411). A signed unlock response is verified and grants scope or counts a failure. -/
  | debugUnlock (scope : Byte) (key sig : List Byte)
  /-- DEBUG_STOP (R412). The debugger stops an engine or the supervisor, pausing its halter. -/
  | debugStop (c : CoreId)
  /-- DEBUG_STEP (R412). The debugger steps a stopped engine or the supervisor. -/
  | debugStep (c : CoreId)
  /-- DEBUG_RESUME (R412). The debugger resumes a stopped engine or the supervisor. -/
  | debugResume (c : CoreId)
  /-- VBAT_LOSS (R75). VBAT is lost together with the core supplies and the always-on domain, RTC record, count, valid
      and cal are cleared. -/
  | vbatLoss
  /-- ETH_LINK_DOWN (R396). A port's link goes down because its cable or partner stops answering, and changes counts
      it. -/
  | ethLinkDown (p : Bool)
  /-- MDIO_DONE (R395). An MDIO clause 22 frame ends at 2.5 MHz, go clears and read data is returned. -/
  | mdioDone (data : BitVec 16)
  /-- UART_TX_BYTE_SENT (R413). A UART finishes shifting out a byte and its TX FIFO level falls by one. -/
  | uartTxByteSent (u : Bool)
  /-- RECOVERY_BAUD_APPLY (R408). 1 ms after the ACK of a BAUD command the recovery UART switches to the new rate. -/
  | recoveryBaudApply
  /-- TRNG_CONDITIONER_OUTPUT (R315). The conditioner turns 256 raw bits into 64 output bits and pushes them into the
      TRNG FIFO. `raw`: the next 256 raw bits. -/
  | trngConditionerOutput (raw : List Bool)
  /-- PPS_OUT_FALL (R406). A PPS_OUT ball falls pps_width_ms after its rise. -/
  | ppsOutFall
  /-- SLOT_STROBE_END (R406). The 1 µs SLOT_STROBE pulse of a slot ends. -/
  | slotStrobeEnd
  /-- WAKE_N_RELEASE (R345). The wake alarm releases WAKE_N 10 ms after pulling it low in OFF. -/
  | wakeNRelease
  /-- ECC_KEY_OP_DONE (R314). A keygen, zeroize or save of ECC private key i completes and busy clears. -/
  | eccKeyOpDone (i : BitVec 2)
  deriving DecidableEq, Repr

end Sys2Proof
end

