-- ==== Sys2Proof/Decode.lean ====
section
/-!
DEFINITION. The command that a word spells by the bits of spec/opcode_table.json: no row of this table gives bits, since the
commands come as operations of registers, ports and pins, and a core's instructions come decoded (log entry 10). And the
instruction words of a Finhit core as far as their encoding decides that they are ILLEGAL (R227–R229, R231, Tables 9-2, 9-3).
-/

namespace Sys2Proof

open Machine

/-- The command that a word spells: none, since no row of the table gives bits. -/
def decodeTableWord (_nbits _w : Nat) : Option Instr := none

/-! ## Instruction words (R227) -/

/-- Bits [31:29] psel, [28] pinv: the predicate of an instruction word. -/
def finhitPred (w : Nat) : Pred := { sel := BitVec.ofNat 3 (bitsN w 31 29), inv := bitN w 28 }

/-- Bits [27:22], the major opcode. -/
def finhitMajor (w : Nat) : Nat := bitsN w 27 22

/-- The rd field, or the data register of format S. -/
def finhitRd (w : Nat) : Nat := bitsN w 21 17

/-- The rs2 field of formats R, C and X. -/
def finhitRs2 (w : Nat) : Nat := bitsN w 11 7

/-- The func field of format R. -/
def finhitFunc (w : Nat) : Nat := bitsN w 6 0

/-- A function of the ALU that R229 gives no meaning, or one with a single source whose rs2 is not x0. -/
def aluReserved (w : Nat) : Bool :=
  decide (0x16 ≤ finhitFunc w) || (decide (0x10 ≤ finhitFunc w) && finhitRs2 w != 0)

/-- An instruction word whose encoding alone raises ILLEGAL: a reserved major, function, condition or operation, a reserved
field that is not 0, a special register from 7 on, or an odd pair register (R227–R229, R231, R232, R243, Table 9-13). What
depends on the core or its decode table is judged with the instruction (R3, R249, R255). -/
def finhitIllegal (w : Nat) : Bool :=
  let m := finhitMajor w
  match m with
  | 0x00 => aluReserved w
  | 0x07 => bitsN w 9 5 != 0
  | 0x08 | 0x09 => bitN w 16
  | 0x0A => bitsN w 3 0 != 0 || bitsN w 6 4 == 7
  | 0x0B => bitsN w 11 9 == 7
  | 0x0C => bitsN w 8 0 != 0 || bitsN w 10 9 == 3
  | 0x0D => decide (3 ≤ finhitFunc w) || finhitRd w != 0
  | 0x0E => bitsN w 16 12 != 0 || finhitFunc w != 0 || decide (7 ≤ finhitRs2 w)
  | 0x0F => finhitRd w != 0 || finhitFunc w != 0 || decide (7 ≤ finhitRs2 w)
  | 0x15 | 0x1B => finhitRd w % 2 == 1
  | 0x24 => bitsN w 21 0 != 0
  | 0x25 => bitsN w 21 1 != 0
  | 0x26 => bitsN w 21 16 != 0
  | 0x38 | 0x39 | 0x3A | 0x3B => bitN w 6
  | _ => m == 0x16 || m == 0x17 || m == 0x1E || m == 0x1F || m == 0x23 || (decide (0x27 ≤ m) && decide (m ≤ 0x37))
      || (decide (0x3C ≤ m) && decide (m ≤ 0x3E))

end Sys2Proof
end

