-- ==== Sys2Proof/Config.lean ====
section
/-!
DEFINITION. What the part fixes and what the spec leaves open.
`freeBits` is the only source of values that the spec leaves open or calls undefined (R14): nothing in Lean can
evaluate it, so a statement about such a value holds whatever the value is (assumption log, entry 11).
The variants of the part differ as Table 0-1 states (R1, R2).
-/

namespace Sys2Proof

/-- The k-th free value of width w (UNVERIFIED by construction: no body). Safe: nothing can be proved about it. -/
opaque Config.freeBits (w : Nat) : Nat → BitVec w

/-- The key of the TRNG's conditioner, which the spec does not state (R315; log entry 76). Safe. -/
opaque Config.conditionerKey : BitVec 128

/-- Which 64 bits of the conditioner's MAC are its output, which the spec does not state (R315; log entry 76). Safe. -/
opaque Config.conditionerPick : BitVec 128 → BitVec 64

/-- The three variants of R1. -/
inductive Variant where
  | sln4512
  | sln4256
  | sln4128
  deriving DecidableEq, Repr

/-- Regions present (Table 0-1). -/
def Config.regions : Variant → Nat
  | .sln4512 => 4
  | .sln4256 => 2
  | .sln4128 => 1

/-- Clusters present (Table 0-1). -/
def Config.clusters : Variant → Nat
  | .sln4512 => 16
  | .sln4256 => 8
  | .sln4128 => 4

/-- Link engines present (Table 0-1). -/
def Config.engines : Variant → Nat
  | .sln4512 => 128
  | .sln4256 => 64
  | .sln4128 => 32

/-- Channel receivers present (Table 0-1). -/
def Config.receivers : Variant → Nat
  | .sln4512 => 512
  | .sln4256 => 256
  | .sln4128 => 128

/-- Tenants an image may declare (Table 0-1). -/
def Config.tenants : Variant → Nat
  | .sln4512 => 16
  | .sln4256 => 8
  | .sln4128 => 4

/-- RX path B, tuners B0–B7 and chain TXH present (Table 0-1). -/
def Config.hasB : Variant → Bool
  | .sln4128 => false
  | _ => true

/-- Compute die 1 present (Table 0-1). -/
def Config.hasDie1 : Variant → Bool
  | .sln4512 => true
  | _ => false

/-- Writable decode table present (Table 0-1, R3). -/
def Config.hasDtab : Variant → Bool
  | .sln4512 => true
  | _ => false

/-- Latigo links present (R39). -/
def Config.links : Variant → Nat
  | .sln4512 => 5
  | _ => 2

/-- SYS_DEVICE_ID of the variant (R9). -/
def Config.deviceId : Variant → BitVec 32
  | .sln4512 => 0x4512B00F#32
  | .sln4256 => 0x4256B006#32
  | .sln4128 => 0x4128B000#32

/-- Bit of the tack-image variant mask of the variant (R7). -/
def Config.variantBit : Variant → Nat
  | .sln4512 => 0
  | .sln4256 => 1
  | .sln4128 => 2

end Sys2Proof
end

