-- ==== Sys2Proof/Machine/RegCore.lean ====
section
/-!
DEFINITION. What a row of a register map says (R10, R11): its address and indices, its fields and their access codes;
and the arithmetic of fields in a word. Mended here if a test shows a field read or written wrongly.
-/

namespace Sys2Proof.Machine

/-- The access codes of Table 0-2. -/
inductive Acc where
  | ro | rw | wo | w1c | w1s | rc | wol
  deriving DecidableEq, Repr

/-- One field of a register row: highest and lowest bit, access code, reset value. -/
structure FieldDesc where
  hi : Nat
  lo : Nat
  acc : Acc
  rst : Nat
  deriving DecidableEq, Repr

/-- One register row: name, first address, (count, stride) of each index, fields. -/
structure RegDesc where
  name : String
  base : Nat
  dims : List (Nat × Nat)
  fields : List FieldDesc
  deriving DecidableEq, Repr

/-- A named field of one register: its address, lowest bit and width. -/
structure Fld where
  addr : Nat
  lo : Nat
  width : Nat
  deriving DecidableEq, Repr

/-- Whether an offset is one of the places that indices of these counts and strides reach. -/
def dimsHit (dims : List (Nat × Nat)) (off : Nat) : Bool :=
  match dims with
  | [] => off == 0
  | (c, st) :: rest =>
    match rest with
    | [] => off % st == 0 && off / st < c
    | _ => off / st < c && dimsHit rest (off % st)

/-- The row covers an address. -/
def descHit (d : RegDesc) (a : Nat) : Bool :=
  decide (d.base ≤ a) && dimsHit d.dims (a - d.base)

/-- The field of a word, as a number. -/
def fldOf (lo width : Nat) (w : Word) : Nat := w.toNat / 2 ^ lo % 2 ^ width

/-- The word with the field replaced by the low bits of v. -/
def fldPut (lo width v : Nat) (w : Word) : Word :=
  let m : Word := BitVec.ofNat 32 ((2 ^ width - 1) * 2 ^ lo)
  (w &&& ~~~m) ||| (BitVec.ofNat 32 (v % 2 ^ width * 2 ^ lo) &&& m)

/-- The reset word of a row. -/
def descReset (d : RegDesc) : Word :=
  d.fields.foldl (fun w f => fldPut f.lo (f.hi - f.lo + 1) f.rst w) 0#32

/-- What one field of a register becomes when v is written to the register that holds w (Table 0-2); `hw` are the W1C
bits that hardware sets in the same cycle, which end set (R12); `locked` says that a WOL field has been written. -/
def fieldWrite (f : FieldDesc) (v hw w : Word) (locked : Bool) : Word :=
  let n := f.hi - f.lo + 1
  let old := fldOf f.lo n w
  let new := fldOf f.lo n v
  match f.acc with
  | .ro | .rc | .wo => w
  | .rw => fldPut f.lo n new w
  | .wol => if locked then w else fldPut f.lo n new w
  | .w1c => fldPut f.lo n (Nat.lor (Nat.land old (2 ^ n - 1 - new)) (fldOf f.lo n hw)) w
  | .w1s => fldPut f.lo n (Nat.lor old new) w

/-- The word a write leaves in a register (Table 0-2). -/
def descWrite (d : RegDesc) (v hw w : Word) (locked : Bool) : Word :=
  d.fields.foldl (fun acc f => fieldWrite f v hw acc locked) w

/-- The word a read returns: write-only and reserved fields read 0 (Table 0-2, R13). -/
def descRead (d : RegDesc) (w : Word) : Word :=
  d.fields.foldl
    (fun acc f =>
      if f.acc = .wo then acc else fldPut f.lo (f.hi - f.lo + 1) (fldOf f.lo (f.hi - f.lo + 1) w) acc) 0#32

/-- The word a read leaves in the register: RC fields clear, then take what hardware adds in the same cycle (R12). -/
def descAfterRead (d : RegDesc) (w : Word) : Word :=
  d.fields.foldl
    (fun acc f => if f.acc = .rc then fldPut f.lo (f.hi - f.lo + 1) 0 acc else acc) w

/-- The row has a WOL field. -/
def descHasWol (d : RegDesc) : Bool := d.fields.any (fun f => f.acc == .wol)

end Sys2Proof.Machine
end

