-- ==== Sys2Proof/Machine/RegMap.lean ====
section
/-!
DEFINITION. The register map of the 4512: one row for each register of the register tables of the chapters (R10, R11,
R13), with its address, the counts and strides of its indices and its fields (highest bit, lowest bit, access code,
reset value); reserved fields are left out (they read 0 and ignore writes, R13). A field whose reset column names no
number (a fuse, CONFIG, a measurement, a persistent copy) has 0 here; the model's own start value of each is in the
assumption log. After the table, the address and field names that the meanings use.
-/

namespace Sys2Proof.Machine

/-- Registers at 0x1000_xxxx. -/
def regRows1000 : List RegDesc :=
  [ ⟨"SYS_DEVICE_ID", 0x10000000, [], [⟨31, 16, .ro, 0x4512⟩, ⟨15, 8, .ro, 0xB0⟩, ⟨3, 3, .ro, 0x1⟩, ⟨2, 2, .ro, 0x1⟩, ⟨1, 1, .ro, 0x1⟩, ⟨0, 0, .ro, 0x1⟩]⟩,
    ⟨"SYS_RESET_REASON", 0x10000010, [], [⟨31, 28, .ro, 0x0⟩, ⟨23, 16, .w1c, 0x1⟩, ⟨15, 0, .ro, 0x0⟩]⟩,
    ⟨"SYS_BOOT_STATUS", 0x10000014, [], [⟨23, 20, .ro, 0x0⟩, ⟨19, 16, .ro, 0x0⟩, ⟨15, 8, .ro, 0x21⟩, ⟨3, 3, .ro, 0x0⟩, ⟨2, 2, .ro, 0x0⟩, ⟨1, 0, .ro, 0x0⟩]⟩,
    ⟨"SYS_BOOT_CTRL", 0x10000018, [], [⟨31, 16, .ro, 0x0⟩, ⟨9, 8, .ro, 0x0⟩, ⟨4, 4, .rw, 0x0⟩, ⟨1, 1, .rw, 0x0⟩, ⟨0, 0, .wo, 0x0⟩]⟩,
    ⟨"SYS_TENANT_RUN", 0x1000001C, [], [⟨31, 16, .ro, 0x0⟩, ⟨15, 0, .ro, 0x0⟩]⟩,
    ⟨"SYS_RESET_CTRL", 0x10000020, [], [⟨31, 16, .wo, 0x0⟩, ⟨0, 0, .wo, 0x0⟩]⟩,
    ⟨"SYS_IMAGE_VER", 0x10000024, [], [⟨31, 0, .ro, 0x0⟩]⟩,
    ⟨"SYS_DBG", 0x10000040, [], [⟨31, 30, .ro, 0x0⟩, ⟨29, 29, .ro, 0x0⟩, ⟨1, 0, .ro, 0x0⟩]⟩,
    ⟨"SYS_THERMAL", 0x10000044, [], [⟨31, 31, .w1c, 0x0⟩, ⟨23, 16, .ro, 0x0⟩, ⟨15, 8, .ro, 0x0⟩, ⟨7, 0, .ro, 0x0⟩]⟩,
    ⟨"SYS_THERMAL_CFG", 0x10000048, [], [⟨7, 0, .rw, 0x6E⟩]⟩,
    ⟨"SYS_LOG_SEQ", 0x10000050, [], [⟨31, 0, .ro, 0x0⟩]⟩,
    ⟨"SYS_LOG_DROP", 0x10000054, [], [⟨15, 0, .rc, 0x0⟩]⟩ ] ++
  [ ⟨"SYS_LOG_ADD.w0", 0x10000060, [], [⟨31, 16, .wo, 0x0⟩, ⟨15, 12, .wo, 0x0⟩, ⟨11, 11, .wo, 0x0⟩, ⟨6, 0, .wo, 0x0⟩]⟩,
    ⟨"SYS_LOG_ADD.w1", 0x10000064, [], [⟨31, 0, .wo, 0x0⟩]⟩,
    ⟨"SYS_LOG_ADD.w2", 0x10000068, [], [⟨31, 0, .wo, 0x0⟩]⟩,
    ⟨"SYS_LOG_ADD.w3", 0x1000006C, [], [⟨31, 0, .wo, 0x0⟩]⟩,
    ⟨"SYS_LOG_ADD.w4", 0x10000070, [], [⟨31, 0, .wo, 0x0⟩]⟩ ]

/-- Registers at 0x1001_xxxx. -/
def regRows1001 : List RegDesc :=
  [ ⟨"GIRTH_CTRL", 0x10010000, [], [⟨31, 31, .rw, 0x0⟩, ⟨30, 30, .rw, 0x0⟩, ⟨29, 28, .rw, 0x0⟩, ⟨27, 26, .rw, 0x0⟩, ⟨25, 24, .rw, 0x3⟩, ⟨15, 0, .rw, 0x12C⟩]⟩,
    ⟨"GIRTH_STATUS", 0x10010004, [], [⟨31, 30, .ro, 0x0⟩, ⟨29, 28, .ro, 0x0⟩, ⟨27, 27, .ro, 0x0⟩, ⟨26, 26, .ro, 0x0⟩, ⟨25, 25, .ro, 0x0⟩, ⟨24, 24, .w1s, 0x0⟩, ⟨15, 0, .ro, 0x0⟩]⟩,
    ⟨"GIRTH_PACK_CFG", 0x10010008, [], [⟨31, 16, .rw, 0x3E8⟩, ⟨15, 0, .rw, 0x100⟩]⟩,
    ⟨"GIRTH_RESERVE", 0x1001000C, [], [⟨31, 0, .rw, 0x0⟩]⟩,
    ⟨"GIRTH_HORIZON", 0x10010010, [], [⟨31, 0, .rw, 0x0⟩]⟩,
    ⟨"GIRTH_MAINS_W", 0x10010014, [], [⟨31, 0, .rw, 0xFFFFFFFF⟩]⟩,
    ⟨"GIRTH_EXT", 0x10010018, [], [⟨31, 16, .rw, 0x0⟩, ⟨9, 0, .rw, 0x64⟩]⟩,
    ⟨"GIRTH_PA", 0x1001001C, [], [⟨31, 16, .rw, 0x0⟩, ⟨15, 0, .rw, 0x0⟩]⟩,
    ⟨"GIRTH_URG", 0x10010020, [], [⟨9, 0, .rw, 0x0⟩]⟩,
    ⟨"GIRTH_DAY", 0x10010024, [], [⟨16, 0, .rw, 0x0⟩]⟩,
    ⟨"GIRTH_LEDGER", 0x10010100, [(11, 0x8), (2, 0x4)], [⟨31, 0, .ro, 0x0⟩]⟩,
    ⟨"GIRTH_TLEDGER", 0x10010180, [(16, 0x8), (2, 0x4)], [⟨31, 0, .ro, 0x0⟩]⟩ ] ++
  [ ⟨"GIRTH_FRAME.w0", 0x10010200, [], [⟨31, 0, .ro, 0x0⟩]⟩,
    ⟨"GIRTH_FRAME.w1", 0x10010204, [], [⟨31, 0, .ro, 0x0⟩]⟩,
    ⟨"GIRTH_FRAME.w2", 0x10010208, [], [⟨31, 0, .ro, 0x0⟩]⟩,
    ⟨"GIRTH_FRAME.w3", 0x1001020C, [], [⟨31, 0, .ro, 0x0⟩]⟩,
    ⟨"GIRTH_FRAME.w4", 0x10010210, [], [⟨31, 0, .ro, 0x0⟩]⟩,
    ⟨"GIRTH_FRAME.w5", 0x10010214, [], [⟨31, 0, .ro, 0x0⟩]⟩,
    ⟨"GIRTH_PLAN_COST", 0x10010240, [(4, 0x4)], [⟨15, 0, .ro, 0x0⟩]⟩,
    ⟨"GIRTH_TSHARE", 0x10010300, [(16, 0x4)], [⟨25, 16, .rw, 0x0⟩, ⟨9, 0, .rw, 0x0⟩]⟩,
    ⟨"GIRTH_COUNT.w0", 0x10010380, [], [⟨31, 16, .ro, 0x0⟩, ⟨15, 0, .ro, 0x0⟩]⟩,
    ⟨"GIRTH_COUNT.w1", 0x10010384, [], [⟨31, 16, .ro, 0x0⟩, ⟨15, 0, .ro, 0x0⟩]⟩,
    ⟨"GIRTH_COUNT.w2", 0x10010388, [], [⟨31, 16, .ro, 0x0⟩, ⟨15, 0, .ro, 0x0⟩]⟩,
    ⟨"GIRTH_COUNT.w3", 0x1001038C, [], [⟨31, 16, .ro, 0x0⟩, ⟨15, 0, .ro, 0x0⟩]⟩ ] ++
  [ ⟨"GIRTH_NCLASS.w0", 0x10010400, [(16, 0x8)], [⟨31, 16, .rw, 0x0⟩, ⟨15, 0, .rw, 0x0⟩]⟩,
    ⟨"GIRTH_NCLASS.w1", 0x10010404, [(16, 0x8)], [⟨31, 16, .rw, 0x0⟩]⟩,
    ⟨"GIRTH_NACC.w0", 0x10010480, [], [⟨31, 28, .wo, 0x0⟩, ⟨16, 0, .wo, 0x0⟩]⟩,
    ⟨"GIRTH_NACC.w1", 0x10010484, [], [⟨31, 0, .rw, 0x0⟩]⟩,
    ⟨"GIRTH_NACC.w2", 0x10010488, [], [⟨31, 0, .rw, 0x0⟩]⟩,
    ⟨"GIRTH_NACC.w3", 0x1001048C, [], [⟨31, 31, .ro, 0x0⟩, ⟨30, 3, .ro, 0x0⟩, ⟨2, 0, .ro, 0x0⟩]⟩,
    ⟨"PWR_CTRL", 0x10011000, [], [⟨15, 8, .rw, 0x7⟩, ⟨2, 0, .wo, 0x0⟩]⟩,
    ⟨"PWR_STATUS", 0x10011004, [], [⟨3, 3, .ro, 0x0⟩, ⟨2, 0, .ro, 0x0⟩]⟩,
    ⟨"PWR_IOHOLD", 0x10011008, [], [⟨31, 0, .rw, 0x0⟩]⟩,
    ⟨"PWR_RESID", 0x10011010, [(4, 0x4)], [⟨31, 0, .ro, 0x0⟩]⟩,
    ⟨"PWR_WAKE_SRC", 0x10011020, [], [⟨31, 28, .ro, 0x0⟩, ⟨27, 24, .ro, 0x0⟩, ⟨23, 23, .ro, 0x0⟩, ⟨15, 0, .ro, 0x0⟩]⟩,
    ⟨"PWR_WAKE_TIME", 0x10011024, [], [⟨31, 0, .ro, 0x0⟩]⟩ ] ++
  [ ⟨"PWR_WAKE_SET", 0x10011028, [], [⟨5, 0, .ro, 0x0⟩]⟩,
    ⟨"PWR_WAKE_AT", 0x1001102C, [], [⟨31, 0, .rw, 0xFFFFFFFF⟩]⟩,
    ⟨"STIRRUP_CFG", 0x10011040, [], [⟨31, 31, .rw, 0x0⟩, ⟨30, 30, .rw, 0x0⟩, ⟨21, 0, .rw, 0xD3ED0⟩]⟩,
    ⟨"STIRRUP_COUNT", 0x10011044, [], [⟨31, 16, .rc, 0x0⟩, ⟨15, 0, .rc, 0x0⟩]⟩,
    ⟨"SURV_CFG", 0x10011050, [], [⟨31, 16, .rw, 0x384⟩, ⟨15, 0, .rw, 0x7D0⟩]⟩ ]

/-- Registers at 0x1002_xxxx. -/
def regRows1002 : List RegDesc :=
  [ ⟨"CINCH_CTRL", 0x10020000, [], [⟨31, 31, .wo, 0x0⟩, ⟨30, 30, .rw, 0x0⟩, ⟨19, 16, .rw, 0x0⟩, ⟨15, 0, .rw, 0x4321⟩]⟩,
    ⟨"CINCH_SERVO", 0x10020004, [], [⟨23, 8, .rw, 0xE10⟩, ⟨4, 0, .rw, 0x14⟩]⟩,
    ⟨"CINCH_STATUS", 0x10020008, [], [⟨31, 31, .w1c, 0x0⟩, ⟨30, 30, .w1c, 0x0⟩, ⟨29, 29, .w1c, 0x0⟩, ⟨28, 28, .w1c, 0x0⟩, ⟨19, 16, .ro, 0x0⟩, ⟨15, 12, .ro, 0xF⟩, ⟨11, 11, .ro, 0x0⟩, ⟨10, 8, .ro, 0x0⟩, ⟨1, 0, .ro, 0x0⟩]⟩,
    ⟨"CINCH_OFFSET", 0x1002000C, [], [⟨31, 0, .ro, 0x0⟩]⟩,
    ⟨"CINCH_RATE", 0x10020010, [], [⟨15, 0, .rw, 0x0⟩]⟩,
    ⟨"CINCH_SET_FRAME", 0x10020014, [], [⟨31, 0, .rw, 0x0⟩]⟩,
    ⟨"CINCH_PPS_CFG", 0x10020018, [], [⟨31, 28, .rw, 0x0⟩, ⟨15, 0, .rw, 0x0⟩]⟩,
    ⟨"CINCH_PTP_CFG", 0x1002001C, [(2, 0x4)], [⟨31, 28, .rw, 0x1⟩, ⟨0, 0, .rw, 0x0⟩]⟩,
    ⟨"CINCH_EPOCH", 0x10020024, [], [⟨31, 0, .rw, 0x0⟩]⟩,
    ⟨"CINCH_COUNT.w0", 0x10020030, [], [⟨31, 16, .ro, 0x0⟩, ⟨15, 0, .ro, 0x0⟩]⟩,
    ⟨"CINCH_COUNT.w1", 0x10020034, [], [⟨31, 16, .ro, 0x0⟩, ⟨15, 0, .ro, 0x0⟩]⟩,
    ⟨"CINCH_COUNT.w2", 0x10020038, [], [⟨31, 16, .ro, 0x0⟩, ⟨15, 0, .ro, 0x0⟩]⟩ ] ++
  [ ⟨"CINCH_COUNT.w3", 0x1002003C, [], [⟨31, 16, .ro, 0x0⟩, ⟨15, 0, .ro, 0x0⟩]⟩,
    ⟨"CINCH_AIR_NBR", 0x10020100, [(8, 0x4)], [⟨31, 31, .rw, 0x0⟩, ⟨30, 28, .rw, 0x0⟩, ⟨27, 16, .rw, 0x0⟩, ⟨15, 0, .rw, 0x0⟩]⟩,
    ⟨"CINCH_AIR_OBS.w0", 0x10020140, [], [⟨31, 0, .wo, 0x0⟩]⟩,
    ⟨"CINCH_AIR_OBS.w1", 0x10020144, [], [⟨29, 0, .wo, 0x0⟩]⟩,
    ⟨"CINCH_AIR_OBS.w2", 0x10020148, [], [⟨31, 0, .wo, 0x0⟩]⟩,
    ⟨"CINCH_AIR_OBS.w3", 0x1002014C, [], [⟨29, 0, .wo, 0x0⟩]⟩,
    ⟨"CINCH_AIR_OBS.w4", 0x10020150, [], [⟨31, 20, .wo, 0x0⟩, ⟨19, 16, .wo, 0x0⟩, ⟨15, 15, .wo, 0x0⟩, ⟨0, 0, .wo, 0x0⟩]⟩,
    ⟨"CINCH_BEACON.w0", 0x10020180, [], [⟨31, 31, .rw, 0x0⟩, ⟨30, 30, .rw, 0x0⟩, ⟨29, 26, .rw, 0x1⟩, ⟨25, 22, .rw, 0x0⟩, ⟨21, 18, .rw, 0x0⟩, ⟨17, 10, .rw, 0x0⟩]⟩,
    ⟨"CINCH_BEACON.w1", 0x10020184, [], [⟨31, 0, .rw, 0x0⟩]⟩,
    ⟨"CINCH_PLAN_CTRL", 0x10020200, [], [⟨31, 31, .w1s, 0x0⟩, ⟨16, 16, .ro, 0x0⟩, ⟨15, 0, .ro, 0x0⟩]⟩,
    ⟨"CINCH_NOW.w0", 0x10021000, [], [⟨31, 0, .ro, 0x0⟩]⟩,
    ⟨"CINCH_NOW.w1", 0x10021004, [], [⟨29, 0, .ro, 0x0⟩]⟩ ] ++
  [ ⟨"CINCH_NOW.w2", 0x10021008, [], [⟨31, 0, .ro, 0x0⟩]⟩,
    ⟨"CINCH_NOW.w3", 0x1002100C, [], [⟨31, 0, .ro, 0x0⟩]⟩,
    ⟨"CINCH_NOW.w4", 0x10021010, [], [⟨15, 0, .ro, 0xF000⟩]⟩,
    ⟨"CINCH_PLAN", 0x10028000, [(2, 0x4000), (4000, 0x4)], [⟨31, 0, .rw, 0x0⟩]⟩ ]

/-- Registers at 0x1003_xxxx. -/
def regRows1003 : List RegDesc :=
  [ ⟨"RTC_LOAD0", 0x10030000, [], [⟨31, 0, .rw, 0x0⟩]⟩,
    ⟨"RTC_LOAD1", 0x10030004, [], [⟨31, 17, .rw, 0x0⟩, ⟨15, 0, .rw, 0x0⟩]⟩,
    ⟨"RTC_CTRL", 0x10030008, [], [⟨31, 31, .wo, 0x0⟩, ⟨30, 30, .ro, 0x0⟩, ⟨7, 0, .rw, 0x0⟩]⟩,
    ⟨"RTC_VBAT_TS0", 0x10030010, [], [⟨31, 0, .ro, 0x0⟩]⟩,
    ⟨"RTC_VBAT_TS1", 0x10030014, [], [⟨31, 17, .ro, 0x0⟩, ⟨15, 0, .ro, 0x0⟩]⟩,
    ⟨"RTC_VBAT_STAT", 0x10030018, [], [⟨31, 31, .w1c, 0x0⟩, ⟨15, 0, .ro, 0x0⟩]⟩,
    ⟨"RTC_STATUS", 0x10030100, [], [⟨31, 31, .ro, 0x0⟩, ⟨30, 30, .ro, 0x0⟩, ⟨29, 29, .ro, 0x0⟩, ⟨28, 28, .ro, 0x0⟩]⟩,
    ⟨"RTC_FRAC", 0x10030104, [], [⟨15, 1, .ro, 0x0⟩]⟩,
    ⟨"RTC_SEC_LO", 0x10030108, [], [⟨31, 0, .ro, 0x0⟩]⟩,
    ⟨"RTC_SEC_HI", 0x1003010C, [], [⟨15, 0, .ro, 0x0⟩]⟩,
    ⟨"TMR_START", 0x10030200, [], [⟨31, 31, .wo, 0x0⟩, ⟨15, 0, .wo, 0x0⟩]⟩,
    ⟨"TMR_STOP", 0x10030204, [], [⟨15, 0, .wo, 0x0⟩]⟩ ] ++
  [ ⟨"TMR_GSTAT", 0x10030208, [], [⟨31, 16, .ro, 0x0⟩, ⟨15, 0, .ro, 0x0⟩]⟩,
    ⟨"TMR_CFG", 0x10031000, [(16, 0x100)], [⟨31, 31, .rw, 0x0⟩, ⟨30, 30, .wo, 0x0⟩, ⟨29, 29, .rw, 0x0⟩, ⟨28, 28, .ro, 0x0⟩, ⟨27, 24, .ro, 0x0⟩, ⟨23, 20, .rw, 0x0⟩, ⟨18, 12, .rw, 0x0⟩, ⟨3, 0, .rw, 0x0⟩]⟩,
    ⟨"TMR_RELOAD_LO", 0x10031004, [(16, 0x100)], [⟨31, 0, .rw, 0xFFFFFFFF⟩]⟩,
    ⟨"TMR_RELOAD_HI", 0x10031008, [(16, 0x100)], [⟨15, 0, .rw, 0xFFFF⟩]⟩,
    ⟨"TMR_CMP_LO", 0x1003100C, [(16, 0x100)], [⟨31, 0, .rw, 0x0⟩]⟩,
    ⟨"TMR_CMP_HI", 0x10031010, [(16, 0x100)], [⟨15, 0, .rw, 0x0⟩]⟩,
    ⟨"TMR_CNT_LO", 0x10031014, [(16, 0x100)], [⟨31, 0, .ro, 0x0⟩]⟩,
    ⟨"TMR_CNT_HI", 0x10031018, [(16, 0x100)], [⟨31, 31, .ro, 0x0⟩, ⟨19, 16, .ro, 0x0⟩, ⟨15, 0, .ro, 0x0⟩]⟩,
    ⟨"TMR_STATUS", 0x1003101C, [(16, 0x100)], [⟨31, 31, .ro, 0x0⟩, ⟨5, 5, .w1c, 0x0⟩, ⟨4, 4, .w1c, 0x0⟩, ⟨3, 3, .w1c, 0x0⟩, ⟨2, 2, .w1c, 0x0⟩, ⟨1, 1, .w1c, 0x0⟩, ⟨0, 0, .w1c, 0x0⟩]⟩ ]

/-- Registers at 0x1004_xxxx. -/
def regRows1004 : List RegDesc :=
  [ ⟨"MEM_BURN_CFG", 0x10040000, [], [⟨31, 31, .rw, 0x1⟩, ⟨7, 0, .rw, 0x18⟩]⟩,
    ⟨"MEM_BURN_STATUS", 0x10040004, [], [⟨19, 16, .ro, 0x0⟩, ⟨15, 0, .ro, 0x0⟩]⟩,
    ⟨"MEM_ECC_LAST.w0", 0x10040010, [], [⟨31, 0, .ro, 0x0⟩]⟩,
    ⟨"MEM_ECC_LAST.w1", 0x10040014, [], [⟨31, 28, .ro, 0x0⟩, ⟨27, 27, .ro, 0x0⟩, ⟨26, 20, .ro, 0x0⟩]⟩,
    ⟨"MEM_ECC_LAST.w2", 0x10040018, [], [⟨31, 0, .ro, 0x0⟩]⟩,
    ⟨"MEM_FLIP.w0", 0x10040020, [], [⟨31, 0, .rw, 0x0⟩]⟩,
    ⟨"MEM_FLIP.w1", 0x10040024, [], [⟨31, 0, .rw, 0x0⟩]⟩,
    ⟨"MEM_FLIP.w2", 0x10040028, [], [⟨31, 31, .w1s, 0x0⟩, ⟨11, 8, .rw, 0x0⟩, ⟨7, 0, .rw, 0x0⟩]⟩,
    ⟨"MEM_CLEAR", 0x10040030, [], [⟨31, 31, .wo, 0x0⟩, ⟨30, 30, .ro, 0x0⟩, ⟨29, 29, .w1c, 0x0⟩, ⟨28, 28, .rw, 0x0⟩, ⟨27, 26, .rw, 0x0⟩, ⟨18, 12, .rw, 0x0⟩, ⟨6, 0, .rw, 0x0⟩]⟩,
    ⟨"MEM_CNT.w0", 0x10040100, [(9, 0x8)], [⟨31, 0, .ro, 0x0⟩]⟩,
    ⟨"MEM_CNT.w1", 0x10040104, [(9, 0x8)], [⟨31, 0, .ro, 0x0⟩]⟩ ]

/-- Registers at 0x1005_xxxx. -/
def regRows1005 : List RegDesc :=
  [ ⟨"XSPI_CTRL", 0x10050000, [], [⟨31, 30, .ro, 0x0⟩, ⟨28, 16, .rw, 0xC8⟩, ⟨3, 2, .rw, 0x2⟩, ⟨1, 1, .rw, 0x1⟩]⟩,
    ⟨"XSPI_STATUS", 0x10050004, [], [⟨31, 31, .ro, 0x0⟩, ⟨30, 30, .ro, 0x0⟩, ⟨29, 29, .w1c, 0x0⟩, ⟨28, 28, .w1c, 0x0⟩, ⟨27, 27, .ro, 0x0⟩, ⟨23, 20, .ro, 0x0⟩]⟩,
    ⟨"XSPI_DEV0", 0x10050008, [], [⟨31, 27, .ro, 0x0⟩, ⟨15, 8, .ro, 0x0⟩, ⟨7, 0, .ro, 0x0⟩]⟩,
    ⟨"XSPI_DEV1", 0x1005000C, [], [⟨31, 16, .ro, 0x0⟩, ⟨15, 0, .ro, 0x0⟩]⟩,
    ⟨"XSPI_CMD.w0", 0x10050010, [], [⟨31, 28, .wo, 0x0⟩, ⟨15, 0, .wo, 0x0⟩]⟩,
    ⟨"XSPI_CMD.w1", 0x10050014, [], [⟨31, 0, .wo, 0x0⟩]⟩,
    ⟨"XSPI_CMD.w2", 0x10050018, [], [⟨31, 0, .wo, 0x0⟩]⟩,
    ⟨"XSPI_CMD.w3", 0x1005001C, [], [⟨16, 0, .wo, 0x0⟩]⟩,
    ⟨"XSPI_RESULT", 0x10050020, [], [⟨31, 28, .ro, 0x0⟩, ⟨27, 24, .ro, 0x0⟩, ⟨15, 0, .ro, 0x0⟩]⟩,
    ⟨"XSPI_RESULT2", 0x10050024, [], [⟨31, 0, .ro, 0x0⟩]⟩,
    ⟨"XSPI_LOST", 0x10050028, [], [⟨31, 28, .ro, 0x0⟩, ⟨27, 0, .ro, 0x0⟩]⟩,
    ⟨"XSPI_WEAR", 0x1005002C, [], [⟨31, 31, .w1c, 0x0⟩, ⟨23, 0, .rw, 0x13880⟩]⟩ ] ++
  [ ⟨"XSPI_COUNT.w0", 0x10050030, [], [⟨31, 16, .ro, 0x0⟩, ⟨15, 0, .ro, 0x0⟩]⟩,
    ⟨"XSPI_COUNT.w1", 0x10050034, [], [⟨31, 16, .ro, 0x0⟩, ⟨15, 0, .ro, 0x0⟩]⟩,
    ⟨"XSPI_COUNT.w2", 0x10050038, [], [⟨31, 16, .ro, 0x0⟩, ⟨15, 0, .ro, 0x0⟩]⟩,
    ⟨"XSPI_COUNT.w3", 0x1005003C, [], [⟨31, 16, .ro, 0x0⟩, ⟨15, 0, .ro, 0x0⟩]⟩,
    ⟨"XSPI_COUNT.w4", 0x10050040, [], [⟨31, 16, .ro, 0x0⟩, ⟨15, 0, .ro, 0x0⟩]⟩,
    ⟨"XSPI_ERASECNT", 0x10051000, [(4096, 0x4)], [⟨31, 0, .ro, 0x0⟩]⟩ ]

/-- Registers at 0x1006_xxxx. -/
def regRows1006 : List RegDesc :=
  [ ⟨"CIPHER_KEY_DATA", 0x10060000, [(4, 0x4)], [⟨31, 0, .wo, 0x0⟩]⟩,
    ⟨"CIPHER_KEY_CMD", 0x10060010, [], [⟨31, 28, .wo, 0x0⟩, ⟨23, 20, .wo, 0x0⟩, ⟨19, 19, .wo, 0x0⟩, ⟨7, 0, .wo, 0x0⟩]⟩,
    ⟨"CIPHER_STATUS", 0x10060014, [], [⟨31, 31, .w1c, 0x0⟩, ⟨30, 30, .ro, 0x0⟩, ⟨29, 29, .ro, 0x0⟩, ⟨21, 16, .ro, 0x0⟩, ⟨3, 0, .ro, 0x0⟩]⟩,
    ⟨"CIPHER_KC", 0x10060100, [(16, 0x4)], [⟨23, 16, .ro, 0x0⟩, ⟨7, 0, .rw, 0x0⟩]⟩,
    ⟨"CIPHER_COUNT.w0", 0x10060200, [], [⟨31, 0, .ro, 0x0⟩]⟩,
    ⟨"CIPHER_COUNT.w1", 0x10060204, [], [⟨31, 16, .ro, 0x0⟩, ⟨15, 0, .ro, 0x0⟩]⟩,
    ⟨"CIPHER_COUNT.w2", 0x10060208, [], [⟨31, 16, .ro, 0x0⟩, ⟨15, 0, .ro, 0x0⟩]⟩,
    ⟨"CIPHER_COUNT.w3", 0x1006020C, [], [⟨31, 16, .ro, 0x0⟩, ⟨15, 0, .ro, 0x0⟩]⟩,
    ⟨"TRNG_STATUS", 0x10060300, [], [⟨31, 31, .ro, 0x0⟩, ⟨30, 30, .w1c, 0x0⟩, ⟨29, 29, .w1c, 0x0⟩, ⟨28, 28, .ro, 0x0⟩, ⟨15, 0, .ro, 0x0⟩]⟩,
    ⟨"TRNG_DATA", 0x10060304, [], [⟨31, 31, .ro, 0x0⟩, ⟨30, 0, .ro, 0x0⟩]⟩,
    ⟨"ECC_PUB", 0x10060400, [(4, 0x40), (16, 0x4)], [⟨31, 0, .ro, 0x0⟩]⟩,
    ⟨"ECC_KEY_CTRL", 0x10060500, [(4, 0x4)], [⟨31, 31, .wo, 0x0⟩, ⟨30, 30, .wo, 0x0⟩, ⟨29, 29, .wo, 0x0⟩, ⟨28, 28, .ro, 0x0⟩, ⟨27, 27, .ro, 0x0⟩, ⟨23, 20, .rw, 0x0⟩]⟩ ] ++
  [ ⟨"CIPHER_SLOT", 0x10061000, [(256, 0x4)], [⟨31, 31, .ro, 0x0⟩, ⟨30, 30, .ro, 0x0⟩, ⟨29, 29, .ro, 0x0⟩, ⟨27, 24, .ro, 0x0⟩, ⟨16, 0, .ro, 0x0⟩]⟩ ]

/-- Registers at 0x1007_xxxx. -/
def regRows1007 : List RegDesc :=
  [ ⟨"TABLE_PORT_GO", 0x10070000, [(4, 0x100)], [⟨31, 0, .wo, 0x0⟩]⟩,
    ⟨"TABLE_PORT_STATUS", 0x10070004, [(4, 0x100)], [⟨0, 0, .ro, 0x0⟩]⟩,
    ⟨"TABLE_PORT_OWN", 0x10070400, [(4, 0x4)], [⟨15, 0, .wol, 0x0⟩]⟩,
    ⟨"TABLE_CFG", 0x10070800, [], [⟨31, 31, .rw, 0x0⟩, ⟨29, 16, .wol, 0x0⟩, ⟨15, 0, .rw, 0x3C⟩]⟩,
    ⟨"TABLE_OCC", 0x10070804, [(2, 0x4)], [⟨17, 0, .ro, 0x0⟩]⟩,
    ⟨"TABLE_COUNT.w0", 0x10070810, [], [⟨31, 16, .ro, 0x0⟩, ⟨15, 0, .ro, 0x0⟩]⟩,
    ⟨"TABLE_COUNT.w1", 0x10070814, [], [⟨31, 16, .ro, 0x0⟩, ⟨15, 0, .ro, 0x0⟩]⟩,
    ⟨"TABLE_COUNT.w2", 0x10070818, [], [⟨31, 16, .ro, 0x0⟩, ⟨15, 0, .ro, 0x0⟩]⟩,
    ⟨"TABLE_COUNT.w3", 0x1007081C, [], [⟨31, 16, .ro, 0x0⟩, ⟨15, 0, .ro, 0x0⟩]⟩,
    ⟨"TABLE_COUNT.w4", 0x10070820, [], [⟨31, 16, .ro, 0x0⟩, ⟨15, 0, .ro, 0x0⟩]⟩,
    ⟨"TABLE_COUNT.w5", 0x10070824, [], [⟨31, 16, .ro, 0x0⟩, ⟨15, 0, .ro, 0x0⟩]⟩,
    ⟨"TABLE_BB_CTR", 0x10070830, [], [⟨31, 0, .ro, 0x0⟩]⟩ ] ++
  [ ⟨"TABLE_MSG_ID", 0x10070834, [], [⟨31, 0, .ro, 0x0⟩]⟩,
    ⟨"TABLE_TQUOTA.w0", 0x10071000, [(16, 0x10)], [⟨16, 0, .wol, 0x0⟩]⟩,
    ⟨"TABLE_TQUOTA.w1", 0x10071004, [(16, 0x10)], [⟨17, 0, .wol, 0x0⟩]⟩,
    ⟨"TABLE_TQUOTA.w2", 0x10071008, [(16, 0x10)], [⟨17, 0, .wol, 0x0⟩]⟩,
    ⟨"TABLE_TQUOTA.w3", 0x1007100C, [(16, 0x10)], [⟨31, 18, .ro, 0x0⟩, ⟨17, 0, .ro, 0x0⟩]⟩,
    ⟨"TABLE_TINBOX.w0", 0x10072000, [(16, 0x10)], [⟨31, 0, .wol, 0x0⟩]⟩,
    ⟨"TABLE_TINBOX.w1", 0x10072004, [(16, 0x10)], [⟨31, 31, .wol, 0x0⟩, ⟨14, 8, .wol, 0x0⟩, ⟨3, 0, .wol, 0x0⟩]⟩,
    ⟨"TABLE_TINBOX.w2", 0x10072008, [(16, 0x10)], [⟨23, 0, .ro, 0x0⟩]⟩,
    ⟨"TABLE_TINBOX.w3", 0x1007200C, [(16, 0x10)], [⟨23, 0, .ro, 0x0⟩]⟩,
    ⟨"RELAY_CTRL", 0x10078000, [], [⟨31, 31, .rw, 0x0⟩, ⟨23, 16, .rw, 0x10⟩, ⟨11, 8, .rw, 0x2⟩, ⟨7, 0, .rw, 0x40⟩]⟩,
    ⟨"RELAY_DEVADDR", 0x10078004, [], [⟨11, 0, .ro, 0x0⟩]⟩,
    ⟨"RELAY_SEEN_OCC", 0x10078010, [], [⟨16, 0, .ro, 0x0⟩]⟩ ] ++
  [ ⟨"RELAY_SEEN_EVICT", 0x10078014, [], [⟨31, 0, .ro, 0x0⟩]⟩,
    ⟨"RELAY_BUF", 0x10078018, [], [⟨8, 0, .ro, 0x0⟩]⟩,
    ⟨"RELAY_TCFG", 0x10078100, [(16, 0x4)], [⟨31, 31, .rw, 0x0⟩, ⟨30, 30, .rw, 0x0⟩, ⟨29, 29, .rw, 0x0⟩, ⟨28, 28, .rw, 0x0⟩, ⟨26, 24, .rw, 0x0⟩, ⟨23, 16, .rw, 0x0⟩, ⟨15, 8, .rw, 0x0⟩, ⟨6, 0, .rw, 0x0⟩]⟩,
    ⟨"RELAY_TCOUNT.w0", 0x10078200, [(16, 0x20)], [⟨31, 0, .ro, 0x0⟩]⟩,
    ⟨"RELAY_TCOUNT.w1", 0x10078204, [(16, 0x20)], [⟨31, 16, .ro, 0x0⟩, ⟨15, 0, .ro, 0x0⟩]⟩,
    ⟨"RELAY_TCOUNT.w2", 0x10078208, [(16, 0x20)], [⟨31, 16, .ro, 0x0⟩, ⟨15, 0, .ro, 0x0⟩]⟩,
    ⟨"RELAY_TCOUNT.w3", 0x1007820C, [(16, 0x20)], [⟨31, 16, .ro, 0x0⟩, ⟨15, 0, .ro, 0x0⟩]⟩,
    ⟨"RELAY_TCOUNT.w4", 0x10078210, [(16, 0x20)], [⟨31, 16, .ro, 0x0⟩, ⟨15, 0, .ro, 0x0⟩]⟩,
    ⟨"RELAY_TCOUNT.w5", 0x10078214, [(16, 0x20)], [⟨31, 16, .ro, 0x0⟩, ⟨15, 0, .ro, 0x0⟩]⟩,
    ⟨"RELAY_TCOUNT.w6", 0x10078218, [(16, 0x20)], [⟨31, 16, .ro, 0x0⟩, ⟨15, 0, .ro, 0x0⟩]⟩,
    ⟨"RELAY_URG_LAT.w0", 0x10078400, [], [⟨31, 16, .ro, 0x0⟩, ⟨15, 0, .ro, 0x0⟩]⟩,
    ⟨"RELAY_URG_LAT.w1", 0x10078404, [], [⟨31, 0, .rc, 0x0⟩]⟩ ] ++
  [ ⟨"RELAY_URG_LAT.w2", 0x10078408, [], [⟨31, 0, .ro, 0x0⟩]⟩,
    ⟨"OLDTREE_ALIAS.w0", 0x10079000, [], [⟨31, 28, .wo, 0x0⟩, ⟨27, 27, .ro, 0x0⟩, ⟨26, 24, .ro, 0x0⟩, ⟨23, 0, .rw, 0x0⟩]⟩,
    ⟨"OLDTREE_ALIAS.w1", 0x10079004, [], [⟨31, 31, .ro, 0x0⟩, ⟨27, 24, .rw, 0x0⟩]⟩,
    ⟨"OLDTREE_ALIAS.w2", 0x10079008, [], [⟨31, 0, .rw, 0x0⟩]⟩,
    ⟨"OLDTREE_COUNT.w0", 0x10079010, [], [⟨31, 16, .ro, 0x0⟩, ⟨15, 0, .ro, 0x0⟩]⟩,
    ⟨"OLDTREE_COUNT.w1", 0x10079014, [], [⟨31, 16, .ro, 0x0⟩, ⟨15, 0, .ro, 0x0⟩]⟩ ]

/-- Registers at 0x1008_xxxx. -/
def regRows1008 : List RegDesc :=
  [ ⟨"TENANT_CFG", 0x10080000, [(16, 0x4)], [⟨31, 31, .ro, 0x0⟩, ⟨30, 30, .rw, 0x0⟩, ⟨29, 29, .w1c, 0x0⟩, ⟨6, 0, .wol, 0x0⟩]⟩,
    ⟨"TENANT_RFENCE", 0x10081000, [(4, 0x100), (64, 0x4)], [⟨31, 31, .rw, 0x0⟩, ⟨30, 30, .rw, 0x0⟩, ⟨29, 26, .rw, 0x0⟩, ⟨14, 8, .rw, 0x0⟩, ⟨6, 0, .rw, 0x0⟩]⟩,
    ⟨"TENANT_SFENCE", 0x10082000, [(32, 0x4)], [⟨31, 31, .rw, 0x0⟩, ⟨30, 30, .rw, 0x0⟩, ⟨29, 26, .rw, 0x0⟩, ⟨25, 24, .rw, 0x0⟩, ⟨22, 12, .rw, 0x0⟩, ⟨10, 0, .rw, 0x0⟩]⟩,
    ⟨"TENANT_FVIOL.w0", 0x10083000, [(16, 0x10)], [⟨31, 16, .ro, 0x0⟩, ⟨15, 0, .ro, 0x0⟩]⟩,
    ⟨"TENANT_FVIOL.w1", 0x10083004, [(16, 0x10)], [⟨31, 16, .ro, 0x0⟩, ⟨15, 0, .ro, 0x0⟩]⟩,
    ⟨"TENANT_FVIOL.w2", 0x10083008, [(16, 0x10)], [⟨31, 16, .ro, 0x0⟩, ⟨15, 0, .ro, 0x0⟩]⟩,
    ⟨"TENANT_CIPHER", 0x10084000, [(16, 0x4)], [⟨26, 24, .rw, 0x1⟩, ⟨13, 8, .rw, 0x0⟩, ⟨5, 0, .rw, 0x0⟩]⟩,
    ⟨"TENANT_CIPHER_RES", 0x10084040, [], [⟨5, 0, .rw, 0x8⟩]⟩ ]

/-- Registers at 0x1009_xxxx. -/
def regRows1009 : List RegDesc :=
  [ ⟨"ETH_CFG", 0x10090000, [(2, 0x10000)], [⟨31, 30, .rw, 0x0⟩, ⟨29, 29, .rw, 0x1⟩, ⟨28, 28, .rw, 0x0⟩, ⟨27, 27, .rw, 0x0⟩, ⟨11, 0, .rw, 0x0⟩]⟩,
    ⟨"ETH_STATUS", 0x10090004, [(2, 0x10000)], [⟨31, 31, .ro, 0x0⟩, ⟨30, 30, .ro, 0x0⟩, ⟨29, 28, .ro, 0x0⟩, ⟨15, 0, .rc, 0x0⟩]⟩,
    ⟨"ETH_MAC0", 0x10090008, [(2, 0x10000)], [⟨31, 0, .rw, 0x0⟩]⟩,
    ⟨"ETH_MAC1", 0x1009000C, [(2, 0x10000)], [⟨15, 0, .rw, 0x0⟩]⟩,
    ⟨"ETH_TYPE", 0x10090010, [(2, 0x10000)], [⟨31, 16, .rw, 0x88B5⟩, ⟨15, 0, .rw, 0x88B6⟩]⟩,
    ⟨"ETH_RING.w0", 0x10090020, [(2, 0x10000)], [⟨31, 0, .rw, 0x0⟩]⟩,
    ⟨"ETH_RING.w1", 0x10090024, [(2, 0x10000)], [⟨3, 0, .rw, 0x0⟩]⟩,
    ⟨"ETH_RING.w2", 0x10090028, [(2, 0x10000)], [⟨23, 0, .ro, 0x0⟩]⟩,
    ⟨"ETH_RING.w3", 0x1009002C, [(2, 0x10000)], [⟨23, 0, .rw, 0x0⟩]⟩,
    ⟨"ETH_RING.w4", 0x10090030, [(2, 0x10000)], [⟨31, 0, .rw, 0x0⟩]⟩,
    ⟨"ETH_RING.w5", 0x10090034, [(2, 0x10000)], [⟨3, 0, .rw, 0x0⟩]⟩,
    ⟨"ETH_RING.w6", 0x10090038, [(2, 0x10000)], [⟨23, 0, .rw, 0x0⟩]⟩ ] ++
  [ ⟨"ETH_RING.w7", 0x1009003C, [(2, 0x10000)], [⟨23, 0, .ro, 0x0⟩]⟩,
    ⟨"ETH_PTP.w0", 0x10090040, [(2, 0x10000)], [⟨31, 0, .ro, 0x0⟩]⟩,
    ⟨"ETH_PTP.w1", 0x10090044, [(2, 0x10000)], [⟨15, 0, .ro, 0x0⟩]⟩,
    ⟨"ETH_PTP.w2", 0x10090048, [(2, 0x10000)], [⟨29, 0, .ro, 0x0⟩]⟩,
    ⟨"ETH_PTP.w3", 0x1009004C, [(2, 0x10000)], [⟨31, 0, .rw, 0x0⟩]⟩,
    ⟨"ETH_PTP.w4", 0x10090050, [(2, 0x10000)], [⟨31, 0, .wo, 0x0⟩]⟩,
    ⟨"ETH_TXTS.w0", 0x10090060, [(2, 0x10000)], [⟨31, 31, .ro, 0x0⟩, ⟨15, 0, .ro, 0x0⟩]⟩,
    ⟨"ETH_TXTS.w1", 0x10090064, [(2, 0x10000)], [⟨29, 0, .ro, 0x0⟩]⟩,
    ⟨"ETH_TXTS.w2", 0x10090068, [(2, 0x10000)], [⟨31, 0, .ro, 0x0⟩]⟩,
    ⟨"ETH_MDIO", 0x10090080, [], [⟨31, 31, .w1s, 0x0⟩, ⟨30, 30, .rw, 0x0⟩, ⟨29, 25, .rw, 0x0⟩, ⟨24, 20, .rw, 0x0⟩, ⟨15, 0, .rw, 0x0⟩]⟩,
    ⟨"ETH_COUNT.w0", 0x10090100, [(2, 0x10000)], [⟨31, 16, .ro, 0x0⟩, ⟨15, 0, .ro, 0x0⟩]⟩,
    ⟨"ETH_COUNT.w1", 0x10090104, [(2, 0x10000)], [⟨31, 16, .ro, 0x0⟩, ⟨15, 0, .ro, 0x0⟩]⟩ ] ++
  [ ⟨"ETH_COUNT.w2", 0x10090108, [(2, 0x10000)], [⟨31, 24, .ro, 0x0⟩, ⟨23, 16, .ro, 0x0⟩, ⟨15, 0, .ro, 0x0⟩]⟩,
    ⟨"ETH_MGMT_CFG", 0x10090800, [], [⟨31, 31, .rw, 0x0⟩, ⟨30, 29, .rw, 0x0⟩, ⟨3, 0, .rw, 0x2⟩]⟩,
    ⟨"ETH_MGMT_BASE", 0x10090804, [], [⟨31, 0, .wol, 0x0⟩]⟩,
    ⟨"ETH_MGMT_PEND", 0x10090808, [], [⟨31, 31, .rc, 0x0⟩, ⟨6, 0, .ro, 0x0⟩]⟩,
    ⟨"ETH_MGMT_DONE", 0x1009080C, [], [⟨31, 24, .wo, 0x0⟩, ⟨23, 14, .wo, 0x0⟩, ⟨6, 0, .wo, 0x0⟩]⟩,
    ⟨"ETH_MGMT_COUNT.w0", 0x10090810, [], [⟨31, 16, .ro, 0x0⟩, ⟨15, 0, .ro, 0x0⟩]⟩,
    ⟨"ETH_MGMT_COUNT.w1", 0x10090814, [], [⟨31, 16, .ro, 0x0⟩, ⟨15, 0, .ro, 0x0⟩]⟩,
    ⟨"ETH_MGMT_COUNT.w2", 0x10090818, [], [⟨31, 16, .ro, 0x0⟩, ⟨15, 0, .ro, 0x0⟩]⟩ ]

/-- Registers at 0x100B_xxxx. -/
def regRows100B : List RegDesc :=
  [ ⟨"PINMUX_SEL", 0x100B0000, [(32, 0x4)], [⟨7, 6, .rw, 0x3⟩, ⟨5, 4, .rw, 0x1⟩, ⟨2, 0, .rw, 0x0⟩]⟩,
    ⟨"PINMUX_STATUS", 0x100B0080, [], [⟨31, 31, .w1c, 0x0⟩, ⟨30, 30, .w1c, 0x0⟩, ⟨20, 16, .ro, 0x0⟩, ⟨2, 0, .ro, 0x0⟩]⟩,
    ⟨"GPIO_OUT", 0x100B0084, [], [⟨31, 0, .rw, 0x0⟩]⟩,
    ⟨"GPIO_OE", 0x100B0088, [], [⟨31, 0, .rw, 0x0⟩]⟩,
    ⟨"GPIO_IN", 0x100B008C, [], [⟨31, 0, .ro, 0x0⟩]⟩,
    ⟨"PINMUX_CINCH_OUT", 0x100B00A0, [], [⟨31, 31, .rw, 0x1⟩, ⟨27, 16, .rw, 0x64⟩, ⟨15, 0, .rw, 0x0⟩]⟩,
    ⟨"PINMUX_PPS", 0x100B00A4, [], [⟨31, 31, .rw, 0x0⟩, ⟨30, 30, .rw, 0x0⟩, ⟨27, 16, .rw, 0x64⟩]⟩,
    ⟨"PINMUX_CINCH_IN", 0x100B00A8, [], [⟨31, 16, .rc, 0x0⟩, ⟨15, 0, .rc, 0x0⟩]⟩,
    ⟨"UART_CFG", 0x100B0400, [(2, 0x20)], [⟨31, 31, .rw, 0x0⟩, ⟨30, 30, .rw, 0x0⟩, ⟨19, 0, .rw, 0x364⟩]⟩,
    ⟨"UART_DATA", 0x100B0404, [(2, 0x20)], [⟨31, 31, .ro, 0x0⟩, ⟨8, 8, .ro, 0x0⟩, ⟨7, 0, .rw, 0x0⟩]⟩,
    ⟨"UART_STATUS", 0x100B0408, [(2, 0x20)], [⟨31, 16, .rc, 0x0⟩, ⟨14, 8, .ro, 0x0⟩, ⟨6, 0, .ro, 0x0⟩]⟩,
    ⟨"SPI_CFG", 0x100B0440, [], [⟨31, 31, .rw, 0x0⟩, ⟨30, 29, .rw, 0x0⟩, ⟨28, 27, .rw, 0x0⟩, ⟨15, 0, .rw, 0x32⟩]⟩ ] ++
  [ ⟨"SPI_DATA", 0x100B0444, [], [⟨31, 31, .ro, 0x0⟩, ⟨7, 0, .rw, 0x0⟩]⟩,
    ⟨"I2C_CFG", 0x100B0460, [], [⟨15, 0, .rw, 0xFA⟩]⟩,
    ⟨"I2C_CMD", 0x100B0464, [], [⟨31, 30, .wo, 0x0⟩, ⟨29, 29, .ro, 0x0⟩, ⟨28, 28, .ro, 0x0⟩, ⟨27, 27, .wo, 0x0⟩, ⟨7, 0, .rw, 0x0⟩]⟩ ]

/-- Registers at 0x100C_xxxx. -/
def regRows100C : List RegDesc :=
  [ ⟨"LATIGO_STATUS", 0x100C0000, [(5, 0x40)], [⟨31, 31, .ro, 0x0⟩, ⟨22, 16, .ro, 0x0⟩, ⟨14, 8, .ro, 0x0⟩, ⟨1, 0, .ro, 0x0⟩]⟩,
    ⟨"LATIGO_TIMEOUT", 0x100C0004, [(5, 0x40)], [⟨9, 0, .rw, 0xA⟩]⟩,
    ⟨"LATIGO_ERRCNT", 0x100C0008, [(5, 0x40)], [⟨31, 16, .rc, 0x0⟩, ⟨15, 8, .rc, 0x0⟩, ⟨7, 0, .rc, 0x0⟩]⟩ ]

/-- Registers at 0x1010_xxxx. -/
def regRows1010 : List RegDesc :=
  [ ⟨"RADIO_PATH_CTRL", 0x10100000, [(2, 0x20)], [⟨15, 8, .rw, 0x0⟩, ⟨4, 4, .rw, 0x0⟩, ⟨3, 3, .rw, 0x0⟩, ⟨1, 0, .rw, 0x0⟩]⟩,
    ⟨"RADIO_PATH_STATUS", 0x10100004, [(2, 0x20)], [⟨31, 16, .rc, 0x0⟩, ⟨15, 8, .ro, 0x0⟩, ⟨7, 7, .w1c, 0x0⟩, ⟨6, 6, .w1c, 0x0⟩, ⟨2, 2, .ro, 0x0⟩, ⟨1, 0, .ro, 0x0⟩]⟩,
    ⟨"RADIO_PATH_FE", 0x10100008, [(2, 0x20)], [⟨25, 16, .rw, 0x0⟩, ⟨9, 0, .rw, 0x0⟩]⟩,
    ⟨"RADIO_TUNER_CFG", 0x10100100, [(16, 0x10)], [⟨31, 31, .rw, 0x0⟩, ⟨24, 22, .rw, 0x0⟩, ⟨21, 0, .rw, 0x0⟩]⟩,
    ⟨"RADIO_TX_CTRL", 0x10100400, [(2, 0x80)], [⟨3, 3, .rw, 0x0⟩, ⟨2, 2, .rw, 0x0⟩, ⟨1, 0, .rw, 0x0⟩]⟩,
    ⟨"RADIO_TX_STATUS", 0x10100404, [(2, 0x80)], [⟨26, 16, .ro, 0x0⟩, ⟨14, 8, .ro, 0x0⟩, ⟨7, 7, .ro, 0x0⟩, ⟨6, 4, .ro, 0x0⟩, ⟨3, 3, .ro, 0x0⟩, ⟨2, 0, .ro, 0x0⟩]⟩,
    ⟨"RADIO_TX_FE", 0x10100408, [(2, 0x80)], [⟨14, 8, .rw, 0x8⟩, ⟨5, 0, .rw, 0xA⟩]⟩,
    ⟨"RADIO_TX_CAL", 0x1010040C, [(2, 0x80)], [⟨31, 31, .wo, 0x0⟩, ⟨30, 30, .wo, 0x0⟩, ⟨29, 29, .ro, 0x0⟩, ⟨21, 0, .rw, 0x0⟩]⟩,
    ⟨"RADIO_TX_COUNT", 0x10100410, [(2, 0x80)], [⟨31, 16, .rc, 0x0⟩, ⟨15, 0, .rc, 0x0⟩]⟩,
    ⟨"RADIO_LBT_COUNT", 0x10100414, [(2, 0x80)], [⟨31, 16, .rc, 0x0⟩, ⟨15, 8, .rc, 0x0⟩, ⟨7, 0, .rc, 0x0⟩]⟩,
    ⟨"RADIO_TX_SUBMIT", 0x10100420, [(2, 0x80), (8, 0x4)], [⟨31, 0, .wo, 0x0⟩]⟩,
    ⟨"RADIO_TX_RESULT", 0x10100440, [(2, 0x80)], [⟨31, 16, .ro, 0x0⟩, ⟨4, 4, .ro, 0x0⟩, ⟨3, 0, .ro, 0x0⟩]⟩ ] ++
  [ ⟨"RADIO_TX_CANCEL", 0x10100444, [(2, 0x80)], [⟨15, 0, .wo, 0x0⟩]⟩,
    ⟨"RADIO_SUBBAND.w0", 0x10100800, [(16, 0x10)], [⟨31, 31, .ro, 0x0⟩, ⟨21, 0, .ro, 0x0⟩]⟩,
    ⟨"RADIO_SUBBAND.w1", 0x10100804, [(16, 0x10)], [⟨21, 0, .ro, 0x0⟩]⟩,
    ⟨"RADIO_SUBBAND.w2", 0x10100808, [(16, 0x10)], [⟨31, 24, .ro, 0x0⟩, ⟨23, 14, .ro, 0x0⟩, ⟨13, 13, .ro, 0x0⟩]⟩,
    ⟨"RADIO_SUBBAND.w3", 0x1010080C, [(16, 0x10)], [⟨31, 24, .ro, 0x0⟩, ⟨23, 12, .ro, 0x0⟩, ⟨11, 0, .ro, 0x0⟩]⟩,
    ⟨"RADIO_REG_PROFILE", 0x10100900, [], [⟨31, 16, .ro, 0x0⟩, ⟨15, 8, .ro, 0x0⟩, ⟨7, 0, .ro, 0x0⟩]⟩,
    ⟨"RADIO_OLDTREE", 0x10100904, [], [⟨31, 31, .ro, 0x0⟩, ⟨30, 30, .ro, 0x0⟩, ⟨15, 0, .ro, 0x0⟩]⟩,
    ⟨"DUTY_CFG", 0x10100A00, [(16, 0x10)], [⟨9, 0, .rw, 0x0⟩]⟩,
    ⟨"DUTY_USED", 0x10100A04, [(16, 0x10)], [⟨28, 0, .ro, 0x0⟩]⟩,
    ⟨"DUTY_URG", 0x10100A08, [(16, 0x10)], [⟨28, 0, .ro, 0x0⟩]⟩,
    ⟨"DUTY_REFUSED", 0x10100A0C, [(16, 0x10)], [⟨31, 16, .rc, 0x0⟩, ⟨15, 0, .rc, 0x0⟩]⟩,
    ⟨"DUTY_SHARE", 0x10100C00, [(16, 0x40), (16, 0x4)], [⟨25, 16, .rw, 0x0⟩, ⟨9, 0, .rw, 0x0⟩]⟩ ] ++
  [ ⟨"DUTY_TUSED", 0x10101000, [(16, 0x40), (16, 0x4)], [⟨28, 0, .ro, 0x0⟩]⟩ ]

/-- Registers at 0x1013_xxxx. -/
def regRows1013 : List RegDesc :=
  [ ⟨"RADIO_SPEC_CTRL", 0x10130000, [], [⟨31, 31, .wo, 0x0⟩, ⟨30, 30, .ro, 0x0⟩, ⟨29, 29, .rc, 0x0⟩, ⟨28, 28, .rc, 0x0⟩, ⟨7, 4, .rw, 0x4⟩, ⟨3, 0, .rw, 0x0⟩]⟩,
    ⟨"RADIO_SPEC_DATA", 0x10131000, [(512, 0x4)], [⟨31, 0, .ro, 0x0⟩]⟩ ]

/-- Registers at 0x1014_xxxx. -/
def regRows1014 : List RegDesc :=
  [ ⟨"RADIO_RX_CFG", 0x10140000, [(512, 0x100)], [⟨31, 31, .rw, 0x0⟩, ⟨29, 28, .rw, 0x0⟩, ⟨27, 24, .rw, 0x0⟩, ⟨23, 20, .rw, 0x0⟩, ⟨19, 16, .rw, 0x0⟩, ⟨15, 14, .rw, 0x0⟩]⟩,
    ⟨"RADIO_RX_FREQ", 0x10140004, [(512, 0x100)], [⟨31, 0, .rw, 0x0⟩]⟩,
    ⟨"RADIO_RX_DECIM", 0x10140008, [(512, 0x100)], [⟨11, 8, .rw, 0x1⟩, ⟨7, 4, .rw, 0x1⟩, ⟨3, 0, .rw, 0x1⟩]⟩,
    ⟨"RADIO_RX_STATUS", 0x1014000C, [(512, 0x100)], [⟨15, 15, .w1c, 0x0⟩, ⟨14, 14, .ro, 0x0⟩, ⟨13, 13, .ro, 0x0⟩, ⟨12, 12, .ro, 0x0⟩, ⟨11, 11, .ro, 0x0⟩, ⟨10, 8, .ro, 0x0⟩, ⟨7, 7, .ro, 0x0⟩, ⟨6, 4, .ro, 0x0⟩, ⟨3, 3, .ro, 0x0⟩, ⟨2, 0, .ro, 0x0⟩]⟩,
    ⟨"RADIO_RX_GDELAY_A", 0x10140010, [(512, 0x100)], [⟨23, 0, .ro, 0x0⟩]⟩,
    ⟨"RADIO_RX_GDELAY_B", 0x10140014, [(512, 0x100)], [⟨23, 0, .ro, 0x0⟩]⟩,
    ⟨"RADIO_RX_SYNC", 0x10140018, [(512, 0x100), (5, 0x4)], [⟨31, 0, .ro, 0x0⟩]⟩,
    ⟨"RADIO_RX_DET_CFG", 0x10140030, [(512, 0x100)], [⟨31, 18, .rw, 0xA0⟩, ⟨17, 9, .rw, 0x64⟩, ⟨8, 0, .rw, 0xA⟩]⟩,
    ⟨"RADIO_RX_DET_A", 0x10140034, [(512, 0x100)], [⟨31, 16, .ro, 0x8000⟩, ⟨15, 0, .ro, 0x8000⟩]⟩,
    ⟨"RADIO_RX_DET_B", 0x10140038, [(512, 0x100)], [⟨31, 16, .ro, 0x8000⟩, ⟨15, 0, .ro, 0x8000⟩]⟩,
    ⟨"RADIO_RX_ENV", 0x1014003C, [(512, 0x100)], [⟨31, 16, .ro, 0x8000⟩, ⟨15, 0, .ro, 0x8000⟩]⟩,
    ⟨"RADIO_RX_COUNT", 0x10140040, [(512, 0x100)], [⟨31, 16, .rc, 0x0⟩, ⟨15, 8, .rc, 0x0⟩, ⟨7, 0, .rc, 0x0⟩]⟩ ]

/-- Registers at 0x1020_xxxx. -/
def regRows1020 : List RegDesc :=
  [ ⟨"DECODER_CAP", 0x10200000, [], [⟨13, 8, .rw, 0x10⟩, ⟨5, 0, .rw, 0x14⟩]⟩,
    ⟨"DECODER_RESERVE", 0x10200004, [], [⟨15, 0, .rw, 0x5555⟩]⟩,
    ⟨"DECODER_CORE_STATUS", 0x10200010, [(8, 0x4)], [⟨31, 31, .ro, 0x0⟩, ⟨27, 24, .ro, 0x0⟩, ⟨23, 20, .ro, 0x0⟩, ⟨16, 16, .ro, 0x0⟩, ⟨15, 0, .ro, 0x0⟩]⟩,
    ⟨"DECODER_TQ", 0x10200100, [(4, 0x40), (16, 0x4)], [⟨31, 31, .rw, 0x0⟩, ⟨26, 24, .rw, 0x0⟩, ⟨20, 16, .rw, 0x0⟩, ⟨12, 8, .rw, 0x0⟩, ⟨4, 0, .rw, 0x0⟩]⟩,
    ⟨"DECODER_RING_BASE", 0x10201000, [(4, 0x400), (16, 0x40)], [⟨31, 0, .wol, 0x0⟩]⟩,
    ⟨"DECODER_RING_CFG", 0x10201004, [(4, 0x400), (16, 0x40)], [⟨31, 31, .wol, 0x0⟩, ⟨14, 8, .wol, 0x0⟩, ⟨3, 0, .wol, 0x0⟩]⟩,
    ⟨"DECODER_RING_WR", 0x10201008, [(4, 0x400), (16, 0x40)], [⟨23, 0, .ro, 0x0⟩]⟩,
    ⟨"DECODER_RING_RD", 0x1020100C, [(4, 0x400), (16, 0x40)], [⟨23, 0, .ro, 0x0⟩]⟩,
    ⟨"DECODER_OVR", 0x10204000, [(512, 0x4)], [⟨15, 0, .ro, 0x0⟩]⟩,
    ⟨"DECODER_TQ_STATUS", 0x10208000, [(16, 0x100), (4, 0x4)], [⟨31, 31, .ro, 0x0⟩, ⟨29, 25, .ro, 0x0⟩, ⟨24, 20, .ro, 0x0⟩, ⟨15, 0, .ro, 0x0⟩]⟩,
    ⟨"DECODER_FCOUNT.w0", 0x10208010, [(16, 0x100), (4, 0x10)], [⟨31, 0, .ro, 0x0⟩]⟩,
    ⟨"DECODER_FCOUNT.w1", 0x10208014, [(16, 0x100), (4, 0x10)], [⟨31, 16, .ro, 0x0⟩, ⟨15, 0, .ro, 0x0⟩]⟩ ] ++
  [ ⟨"DECODER_FCOUNT.w2", 0x10208018, [(16, 0x100), (4, 0x10)], [⟨31, 16, .ro, 0x0⟩, ⟨15, 0, .ro, 0x0⟩]⟩,
    ⟨"DECODER_FCOUNT.w3", 0x1020801C, [(16, 0x100), (4, 0x10)], [⟨31, 16, .ro, 0x0⟩, ⟨15, 0, .ro, 0x0⟩]⟩ ]

/-- Registers at 0x1030_xxxx. -/
def regRows1030 : List RegDesc :=
  [ ⟨"ENGCTL_CL", 0x10300000, [(16, 0x100)], [⟨31, 28, .ro, 0x0⟩, ⟨27, 27, .ro, 0x0⟩, ⟨26, 24, .ro, 0x0⟩, ⟨19, 0, .rw, 0x0⟩]⟩,
    ⟨"ENGCTL_CL_COUNT", 0x10300004, [(16, 0x100)], [⟨31, 16, .ro, 0x0⟩, ⟨15, 0, .ro, 0x0⟩]⟩,
    ⟨"ENGCTL_ENG", 0x10300040, [(16, 0x100), (8, 0x10)], [⟨31, 31, .w1s, 0x0⟩, ⟨30, 30, .w1s, 0x0⟩, ⟨29, 28, .ro, 0x0⟩, ⟨27, 24, .ro, 0x0⟩, ⟨20, 16, .ro, 0x0⟩, ⟨15, 0, .ro, 0x0⟩]⟩,
    ⟨"ENGCTL_IADDR", 0x10300044, [(16, 0x100), (8, 0x10)], [⟨31, 31, .w1c, 0x0⟩, ⟨15, 3, .rw, 0x0⟩]⟩,
    ⟨"ENGCTL_IDATA_LO", 0x10300048, [(16, 0x100), (8, 0x10)], [⟨31, 0, .rw, 0x0⟩]⟩,
    ⟨"ENGCTL_IDATA_HI", 0x1030004C, [(16, 0x100), (8, 0x10)], [⟨31, 0, .rw, 0x0⟩]⟩,
    ⟨"ENGCTL_TPRIO", 0x1030F000, [(16, 0x4)], [⟨2, 0, .rw, 0x0⟩]⟩ ]

/-- The rows of the 64 KiB block that holds an address. -/
def regRows (blk : Nat) : List RegDesc :=
  match blk with
  | 0x1000 => regRows1000
  | 0x1001 => regRows1001
  | 0x1002 => regRows1002
  | 0x1003 => regRows1003
  | 0x1004 => regRows1004
  | 0x1005 => regRows1005
  | 0x1006 => regRows1006
  | 0x1007 => regRows1007
  | 0x1008 => regRows1008
  | 0x1009 => regRows1009
  | 0x100B => regRows100B
  | 0x100C => regRows100C
  | 0x1010 => regRows1010
  | 0x1013 => regRows1013
  | 0x1014 => regRows1014
  | 0x1020 => regRows1020
  | 0x1030 => regRows1030
  | 0x1015 => regRows1014
  | 0x100A => regRows1009
  | _ => []

/-- Address of SYS_DEVICE_ID (chapter 00, R8). -/
abbrev aSYS_DEVICE_ID : Nat := 0x10000000

/-- Address of SYS_RESET_REASON (chapter 02, R75). -/
abbrev aSYS_RESET_REASON : Nat := 0x10000010
abbrev fSYS_RESET_REASON_cause : Fld := ⟨aSYS_RESET_REASON, 28, 4⟩
abbrev fSYS_RESET_REASON_history : Fld := ⟨aSYS_RESET_REASON, 16, 8⟩
abbrev fSYS_RESET_REASON_count : Fld := ⟨aSYS_RESET_REASON, 0, 16⟩

/-- Address of SYS_BOOT_STATUS (chapter 02, R75). -/
abbrev aSYS_BOOT_STATUS : Nat := 0x10000014
abbrev fSYS_BOOT_STATUS_fail_a : Fld := ⟨aSYS_BOOT_STATUS, 20, 4⟩
abbrev fSYS_BOOT_STATUS_fail_b : Fld := ⟨aSYS_BOOT_STATUS, 16, 4⟩
abbrev fSYS_BOOT_STATUS_rom_ver : Fld := ⟨aSYS_BOOT_STATUS, 8, 8⟩
abbrev fSYS_BOOT_STATUS_trial : Fld := ⟨aSYS_BOOT_STATUS, 3, 1⟩
abbrev fSYS_BOOT_STATUS_settings_reset : Fld := ⟨aSYS_BOOT_STATUS, 2, 1⟩
abbrev fSYS_BOOT_STATUS_bank : Fld := ⟨aSYS_BOOT_STATUS, 0, 2⟩

/-- Address of SYS_BOOT_CTRL (chapter 02, R75). -/
abbrev aSYS_BOOT_CTRL : Nat := 0x10000018
abbrev fSYS_BOOT_CTRL_rb_floor : Fld := ⟨aSYS_BOOT_CTRL, 16, 16⟩
abbrev fSYS_BOOT_CTRL_trials_left : Fld := ⟨aSYS_BOOT_CTRL, 8, 2⟩
abbrev fSYS_BOOT_CTRL_trial : Fld := ⟨aSYS_BOOT_CTRL, 4, 1⟩
abbrev fSYS_BOOT_CTRL_pref_bank : Fld := ⟨aSYS_BOOT_CTRL, 1, 1⟩

/-- Address of SYS_TENANT_RUN (chapter 02, R75). -/
abbrev aSYS_TENANT_RUN : Nat := 0x1000001C
abbrev fSYS_TENANT_RUN_refused : Fld := ⟨aSYS_TENANT_RUN, 16, 16⟩
abbrev fSYS_TENANT_RUN_started : Fld := ⟨aSYS_TENANT_RUN, 0, 16⟩

/-- Address of SYS_RESET_CTRL (chapter 02, R75). -/
abbrev aSYS_RESET_CTRL : Nat := 0x10000020

/-- Address of SYS_IMAGE_VER (chapter 02, R75). -/
abbrev aSYS_IMAGE_VER : Nat := 0x10000024
abbrev fSYS_IMAGE_VER_version : Fld := ⟨aSYS_IMAGE_VER, 0, 32⟩

/-- Address of SYS_DBG (chapter 17, R412). -/
abbrev aSYS_DBG : Nat := 0x10000040
abbrev fSYS_DBG_scope : Fld := ⟨aSYS_DBG, 30, 2⟩
abbrev fSYS_DBG_attached : Fld := ⟨aSYS_DBG, 29, 1⟩
abbrev fSYS_DBG_fails : Fld := ⟨aSYS_DBG, 0, 2⟩

/-- Address of SYS_THERMAL (chapter 20, R461). -/
abbrev aSYS_THERMAL : Nat := 0x10000044
abbrev fSYS_THERMAL_warn : Fld := ⟨aSYS_THERMAL, 31, 1⟩
abbrev fSYS_THERMAL_tj_r : Fld := ⟨aSYS_THERMAL, 16, 8⟩
abbrev fSYS_THERMAL_tj_c1 : Fld := ⟨aSYS_THERMAL, 8, 8⟩
abbrev fSYS_THERMAL_tj_c0 : Fld := ⟨aSYS_THERMAL, 0, 8⟩

/-- Address of SYS_THERMAL_CFG (chapter 20, R461). -/
abbrev aSYS_THERMAL_CFG : Nat := 0x10000048
abbrev fSYS_THERMAL_CFG_warn_c : Fld := ⟨aSYS_THERMAL_CFG, 0, 8⟩

/-- Address of SYS_LOG_SEQ (chapter 02, R78). -/
abbrev aSYS_LOG_SEQ : Nat := 0x10000050
abbrev fSYS_LOG_SEQ_seq : Fld := ⟨aSYS_LOG_SEQ, 0, 32⟩

/-- Address of SYS_LOG_DROP (chapter 02, R78). -/
abbrev aSYS_LOG_DROP : Nat := 0x10000054
abbrev fSYS_LOG_DROP_dropped : Fld := ⟨aSYS_LOG_DROP, 0, 16⟩

/-- Address of SYS_LOG_ADD.w0 (chapter 02, R78). -/
abbrev aSYS_LOG_ADD_w0 : Nat := 0x10000060

/-- Address of SYS_LOG_ADD.w1 (chapter 02, R78). -/
abbrev aSYS_LOG_ADD_w1 : Nat := 0x10000064

/-- Address of SYS_LOG_ADD.w2 (chapter 02, R78). -/
abbrev aSYS_LOG_ADD_w2 : Nat := 0x10000068

/-- Address of SYS_LOG_ADD.w3 (chapter 02, R78). -/
abbrev aSYS_LOG_ADD_w3 : Nat := 0x1000006C

/-- Address of SYS_LOG_ADD.w4 (chapter 02, R78). -/
abbrev aSYS_LOG_ADD_w4 : Nat := 0x10000070

/-- Address of GIRTH_CTRL (chapter 13, R348). -/
abbrev aGIRTH_CTRL : Nat := 0x10010000
abbrev fGIRTH_CTRL_auto : Fld := ⟨aGIRTH_CTRL, 31, 1⟩
abbrev fGIRTH_CTRL_force : Fld := ⟨aGIRTH_CTRL, 30, 1⟩
abbrev fGIRTH_CTRL_force_plan : Fld := ⟨aGIRTH_CTRL, 28, 2⟩
abbrev fGIRTH_CTRL_plan_max : Fld := ⟨aGIRTH_CTRL, 26, 2⟩
abbrev fGIRTH_CTRL_plan_min : Fld := ⟨aGIRTH_CTRL, 24, 2⟩
abbrev fGIRTH_CTRL_up_hold : Fld := ⟨aGIRTH_CTRL, 0, 16⟩

/-- Address of GIRTH_STATUS (chapter 13, R348). -/
abbrev aGIRTH_STATUS : Nat := 0x10010004
abbrev fGIRTH_STATUS_plan : Fld := ⟨aGIRTH_STATUS, 30, 2⟩
abbrev fGIRTH_STATUS_target : Fld := ⟨aGIRTH_STATUS, 28, 2⟩
abbrev fGIRTH_STATUS_changing : Fld := ⟨aGIRTH_STATUS, 27, 1⟩
abbrev fGIRTH_STATUS_mains_ok : Fld := ⟨aGIRTH_STATUS, 26, 1⟩
abbrev fGIRTH_STATUS_die1_ready : Fld := ⟨aGIRTH_STATUS, 24, 1⟩
abbrev fGIRTH_STATUS_hold : Fld := ⟨aGIRTH_STATUS, 0, 16⟩

/-- Address of GIRTH_PACK_CFG (chapter 13, R348). -/
abbrev aGIRTH_PACK_CFG : Nat := 0x10010008
abbrev fGIRTH_PACK_CFG_shunt_uohm : Fld := ⟨aGIRTH_PACK_CFG, 16, 16⟩
abbrev fGIRTH_PACK_CFG_vbus_div : Fld := ⟨aGIRTH_PACK_CFG, 0, 16⟩

/-- Address of GIRTH_RESERVE (chapter 13, R348). -/
abbrev aGIRTH_RESERVE : Nat := 0x1001000C
abbrev fGIRTH_RESERVE_reserve_j : Fld := ⟨aGIRTH_RESERVE, 0, 32⟩

/-- Address of GIRTH_HORIZON (chapter 13, R348). -/
abbrev aGIRTH_HORIZON : Nat := 0x10010010
abbrev fGIRTH_HORIZON_horizon : Fld := ⟨aGIRTH_HORIZON, 0, 32⟩

/-- Address of GIRTH_MAINS_W (chapter 13, R348). -/
abbrev aGIRTH_MAINS_W : Nat := 0x10010014
abbrev fGIRTH_MAINS_W_w_mains : Fld := ⟨aGIRTH_MAINS_W, 0, 32⟩

/-- Address of GIRTH_EXT (chapter 13, R348). -/
abbrev aGIRTH_EXT : Nat := 0x10010018
abbrev fGIRTH_EXT_ext_base_mw : Fld := ⟨aGIRTH_EXT, 16, 16⟩
abbrev fGIRTH_EXT_margin_pm : Fld := ⟨aGIRTH_EXT, 0, 10⟩

/-- Address of GIRTH_PA (chapter 13, R348). -/
abbrev aGIRTH_PA : Nat := 0x1001001C
abbrev fGIRTH_PA_pa_mw_txh : Fld := ⟨aGIRTH_PA, 16, 16⟩
abbrev fGIRTH_PA_pa_mw_txl : Fld := ⟨aGIRTH_PA, 0, 16⟩

/-- Address of GIRTH_URG (chapter 13, R348). -/
abbrev aGIRTH_URG : Nat := 0x10010020
abbrev fGIRTH_URG_urg_res_pm : Fld := ⟨aGIRTH_URG, 0, 10⟩

/-- Address of GIRTH_DAY (chapter 13, R348). -/
abbrev aGIRTH_DAY : Nat := 0x10010024
abbrev fGIRTH_DAY_day_offset_s : Fld := ⟨aGIRTH_DAY, 0, 17⟩

/-- Address of GIRTH_LEDGER (chapter 13, R348). -/
abbrev aGIRTH_LEDGER (k : Nat) (h : Nat) : Nat := 0x10010100 + k * 0x8 + h * 0x4
abbrev fGIRTH_LEDGER_uj (k : Nat) (h : Nat) : Fld := ⟨aGIRTH_LEDGER k h, 0, 32⟩

/-- Address of GIRTH_TLEDGER (chapter 13, R348). -/
abbrev aGIRTH_TLEDGER (t : Nat) (h : Nat) : Nat := 0x10010180 + t * 0x8 + h * 0x4
abbrev fGIRTH_TLEDGER_uj (t : Nat) (h : Nat) : Fld := ⟨aGIRTH_TLEDGER t h, 0, 32⟩

/-- Address of GIRTH_FRAME.w0 (chapter 13, R348). -/
abbrev aGIRTH_FRAME_w0 : Nat := 0x10010200
abbrev fGIRTH_FRAME_frame : Fld := ⟨aGIRTH_FRAME_w0, 0, 32⟩

/-- Address of GIRTH_FRAME.w1 (chapter 13, R348). -/
abbrev aGIRTH_FRAME_w1 : Nat := 0x10010204
abbrev fGIRTH_FRAME_own : Fld := ⟨aGIRTH_FRAME_w1, 0, 32⟩

/-- Address of GIRTH_FRAME.w2 (chapter 13, R348). -/
abbrev aGIRTH_FRAME_w2 : Nat := 0x10010208
abbrev fGIRTH_FRAME_pack_net : Fld := ⟨aGIRTH_FRAME_w2, 0, 32⟩

/-- Address of GIRTH_FRAME.w3 (chapter 13, R348). -/
abbrev aGIRTH_FRAME_w3 : Nat := 0x1001020C
abbrev fGIRTH_FRAME_allowance : Fld := ⟨aGIRTH_FRAME_w3, 0, 32⟩

/-- Address of GIRTH_FRAME.w4 (chapter 13, R348). -/
abbrev aGIRTH_FRAME_w4 : Nat := 0x10010210
abbrev fGIRTH_FRAME_charged : Fld := ⟨aGIRTH_FRAME_w4, 0, 32⟩

/-- Address of GIRTH_FRAME.w5 (chapter 13, R348). -/
abbrev aGIRTH_FRAME_w5 : Nat := 0x10010214
abbrev fGIRTH_FRAME_model_err : Fld := ⟨aGIRTH_FRAME_w5, 0, 32⟩

/-- Address of GIRTH_TSHARE (chapter 13, R348). -/
abbrev aGIRTH_TSHARE (t : Nat) : Nat := 0x10010300 + t * 0x4
abbrev fGIRTH_TSHARE_ceil_pm (t : Nat) : Fld := ⟨aGIRTH_TSHARE t, 16, 10⟩
abbrev fGIRTH_TSHARE_guar_pm (t : Nat) : Fld := ⟨aGIRTH_TSHARE t, 0, 10⟩

/-- Address of GIRTH_COUNT.w0 (chapter 13, R348). -/
abbrev aGIRTH_COUNT_w0 : Nat := 0x10010380
abbrev fGIRTH_COUNT_tx_deny : Fld := ⟨aGIRTH_COUNT_w0, 16, 16⟩
abbrev fGIRTH_COUNT_urg_deny : Fld := ⟨aGIRTH_COUNT_w0, 0, 16⟩

/-- Address of GIRTH_COUNT.w1 (chapter 13, R348). -/
abbrev aGIRTH_COUNT_w1 : Nat := 0x10010384
abbrev fGIRTH_COUNT_plan_down : Fld := ⟨aGIRTH_COUNT_w1, 16, 16⟩
abbrev fGIRTH_COUNT_plan_up : Fld := ⟨aGIRTH_COUNT_w1, 0, 16⟩

/-- Address of GIRTH_COUNT.w2 (chapter 13, R348). -/
abbrev aGIRTH_COUNT_w2 : Nat := 0x10010388
abbrev fGIRTH_COUNT_freq_clamp : Fld := ⟨aGIRTH_COUNT_w2, 16, 16⟩
abbrev fGIRTH_COUNT_node_deny : Fld := ⟨aGIRTH_COUNT_w2, 0, 16⟩

/-- Address of GIRTH_COUNT.w3 (chapter 13, R348). -/
abbrev aGIRTH_COUNT_w3 : Nat := 0x1001038C
abbrev fGIRTH_COUNT_survival : Fld := ⟨aGIRTH_COUNT_w3, 16, 16⟩
abbrev fGIRTH_COUNT_wakes : Fld := ⟨aGIRTH_COUNT_w3, 0, 16⟩

/-- Address of GIRTH_NCLASS.w0 (chapter 13, R348). -/
abbrev aGIRTH_NCLASS_w0 (c : Nat) : Nat := 0x10010400 + c * 0x8
abbrev fGIRTH_NCLASS_tx_uj_ms (c : Nat) : Fld := ⟨aGIRTH_NCLASS_w0 c, 16, 16⟩
abbrev fGIRTH_NCLASS_rx_uj_ms (c : Nat) : Fld := ⟨aGIRTH_NCLASS_w0 c, 0, 16⟩

/-- Address of GIRTH_NCLASS.w1 (chapter 13, R348). -/
abbrev aGIRTH_NCLASS_w1 (c : Nat) : Nat := 0x10010404 + c * 0x8
abbrev fGIRTH_NCLASS_reply_uj (c : Nat) : Fld := ⟨aGIRTH_NCLASS_w1 c, 16, 16⟩

/-- Address of GIRTH_NACC.w0 (chapter 13, R348). -/
abbrev aGIRTH_NACC_w0 : Nat := 0x10010480

/-- Address of GIRTH_NACC.w1 (chapter 13, R348). -/
abbrev aGIRTH_NACC_w1 : Nat := 0x10010484
abbrev fGIRTH_NACC_arg : Fld := ⟨aGIRTH_NACC_w1, 0, 32⟩

/-- Address of GIRTH_NACC.w2 (chapter 13, R348). -/
abbrev aGIRTH_NACC_w2 : Nat := 0x10010488
abbrev fGIRTH_NACC_arg2 : Fld := ⟨aGIRTH_NACC_w2, 0, 32⟩

/-- Address of GIRTH_NACC.w3 (chapter 13, R348). -/
abbrev aGIRTH_NACC_w3 : Nat := 0x1001048C
abbrev fGIRTH_NACC_life_mj : Fld := ⟨aGIRTH_NACC_w3, 3, 28⟩
abbrev fGIRTH_NACC_status : Fld := ⟨aGIRTH_NACC_w3, 0, 3⟩

/-- Address of PWR_CTRL (chapter 13, R348). -/
abbrev aPWR_CTRL : Nat := 0x10011000
abbrev fPWR_CTRL_wake_en : Fld := ⟨aPWR_CTRL, 8, 8⟩

/-- Address of PWR_STATUS (chapter 13, R348). -/
abbrev aPWR_STATUS : Nat := 0x10011004
abbrev fPWR_STATUS_off_armed : Fld := ⟨aPWR_STATUS, 3, 1⟩
abbrev fPWR_STATUS_state : Fld := ⟨aPWR_STATUS, 0, 3⟩

/-- Address of PWR_IOHOLD (chapter 13, R348). -/
abbrev aPWR_IOHOLD : Nat := 0x10011008
abbrev fPWR_IOHOLD_hold : Fld := ⟨aPWR_IOHOLD, 0, 32⟩

/-- Address of PWR_RESID (chapter 13, R348). -/
abbrev aPWR_RESID (s : Nat) : Nat := 0x10011010 + s * 0x4
abbrev fPWR_RESID_seconds (s : Nat) : Fld := ⟨aPWR_RESID s, 0, 32⟩

/-- Address of PWR_WAKE_SRC (chapter 13, R348). -/
abbrev aPWR_WAKE_SRC : Nat := 0x10011020
abbrev fPWR_WAKE_SRC_source : Fld := ⟨aPWR_WAKE_SRC, 28, 4⟩
abbrev fPWR_WAKE_SRC_plan : Fld := ⟨aPWR_WAKE_SRC, 24, 4⟩
abbrev fPWR_WAKE_SRC_surv_active : Fld := ⟨aPWR_WAKE_SRC, 23, 1⟩
abbrev fPWR_WAKE_SRC_wakes : Fld := ⟨aPWR_WAKE_SRC, 0, 16⟩

/-- Address of PWR_WAKE_TIME (chapter 13, R348). -/
abbrev aPWR_WAKE_TIME : Nat := 0x10011024
abbrev fPWR_WAKE_TIME_rtc_s : Fld := ⟨aPWR_WAKE_TIME, 0, 32⟩

/-- Address of PWR_WAKE_SET (chapter 13, R348). -/
abbrev aPWR_WAKE_SET : Nat := 0x10011028
abbrev fPWR_WAKE_SET_fired : Fld := ⟨aPWR_WAKE_SET, 0, 6⟩

/-- Address of PWR_WAKE_AT (chapter 13, R348). -/
abbrev aPWR_WAKE_AT : Nat := 0x1001102C
abbrev fPWR_WAKE_AT_alarm_s : Fld := ⟨aPWR_WAKE_AT, 0, 32⟩

/-- Address of STIRRUP_CFG (chapter 13, R348). -/
abbrev aSTIRRUP_CFG : Nat := 0x10011040
abbrev fSTIRRUP_CFG_en : Fld := ⟨aSTIRRUP_CFG, 31, 1⟩
abbrev fSTIRRUP_CFG_all_en : Fld := ⟨aSTIRRUP_CFG, 30, 1⟩
abbrev fSTIRRUP_CFG_freq_khz : Fld := ⟨aSTIRRUP_CFG, 0, 22⟩

/-- Address of STIRRUP_COUNT (chapter 13, R348). -/
abbrev aSTIRRUP_COUNT : Nat := 0x10011044
abbrev fSTIRRUP_COUNT_matched : Fld := ⟨aSTIRRUP_COUNT, 16, 16⟩
abbrev fSTIRRUP_COUNT_crc_fail : Fld := ⟨aSTIRRUP_COUNT, 0, 16⟩

/-- Address of SURV_CFG (chapter 13, R348). -/
abbrev aSURV_CFG : Nat := 0x10011050
abbrev fSURV_CFG_period_s : Fld := ⟨aSURV_CFG, 16, 16⟩
abbrev fSURV_CFG_window_ms : Fld := ⟨aSURV_CFG, 0, 16⟩

/-- Address of CINCH_CTRL (chapter 07, R205). -/
abbrev aCINCH_CTRL : Nat := 0x10020000
abbrev fCINCH_CTRL_set_frame_valid : Fld := ⟨aCINCH_CTRL, 30, 1⟩
abbrev fCINCH_CTRL_src_en : Fld := ⟨aCINCH_CTRL, 16, 4⟩
abbrev fCINCH_CTRL_prio : Fld := ⟨aCINCH_CTRL, 0, 16⟩

/-- Address of CINCH_SERVO (chapter 07, R205). -/
abbrev aCINCH_SERVO : Nat := 0x10020004
abbrev fCINCH_SERVO_holdover_keep : Fld := ⟨aCINCH_SERVO, 8, 16⟩
abbrev fCINCH_SERVO_slew_limit_us : Fld := ⟨aCINCH_SERVO, 0, 5⟩

/-- Address of CINCH_STATUS (chapter 07, R205). -/
abbrev aCINCH_STATUS : Nat := 0x10020008
abbrev fCINCH_STATUS_alarm_beyond : Fld := ⟨aCINCH_STATUS, 31, 1⟩
abbrev fCINCH_STATUS_alarm_hold : Fld := ⟨aCINCH_STATUS, 30, 1⟩
abbrev fCINCH_STATUS_src_lost : Fld := ⟨aCINCH_STATUS, 29, 1⟩
abbrev fCINCH_STATUS_ext_slip : Fld := ⟨aCINCH_STATUS, 28, 1⟩
abbrev fCINCH_STATUS_stratum : Fld := ⟨aCINCH_STATUS, 12, 4⟩
abbrev fCINCH_STATUS_locked : Fld := ⟨aCINCH_STATUS, 11, 1⟩
abbrev fCINCH_STATUS_source : Fld := ⟨aCINCH_STATUS, 8, 3⟩
abbrev fCINCH_STATUS_state : Fld := ⟨aCINCH_STATUS, 0, 2⟩

/-- Address of CINCH_OFFSET (chapter 07, R205). -/
abbrev aCINCH_OFFSET : Nat := 0x1002000C
abbrev fCINCH_OFFSET_offset : Fld := ⟨aCINCH_OFFSET, 0, 32⟩

/-- Address of CINCH_RATE (chapter 07, R205). -/
abbrev aCINCH_RATE : Nat := 0x10020010

/-- Address of CINCH_SET_FRAME (chapter 07, R205). -/
abbrev aCINCH_SET_FRAME : Nat := 0x10020014
abbrev fCINCH_SET_FRAME_frame : Fld := ⟨aCINCH_SET_FRAME, 0, 32⟩

/-- Address of CINCH_PPS_CFG (chapter 07, R205). -/
abbrev aCINCH_PPS_CFG : Nat := 0x10020018
abbrev fCINCH_PPS_CFG_pps_stratum : Fld := ⟨aCINCH_PPS_CFG, 28, 4⟩
abbrev fCINCH_PPS_CFG_pps_offset_ns : Fld := ⟨aCINCH_PPS_CFG, 0, 16⟩

/-- Address of CINCH_PTP_CFG (chapter 07, R205). -/
abbrev aCINCH_PTP_CFG (p : Nat) : Nat := 0x1002001C + p * 0x4
abbrev fCINCH_PTP_CFG_ptp_stratum (p : Nat) : Fld := ⟨aCINCH_PTP_CFG p, 28, 4⟩
abbrev fCINCH_PTP_CFG_ptp_ok (p : Nat) : Fld := ⟨aCINCH_PTP_CFG p, 0, 1⟩

/-- Address of CINCH_EPOCH (chapter 07, R205). -/
abbrev aCINCH_EPOCH : Nat := 0x10020024
abbrev fCINCH_EPOCH_epoch : Fld := ⟨aCINCH_EPOCH, 0, 32⟩

/-- Address of CINCH_COUNT.w0 (chapter 07, R205). -/
abbrev aCINCH_COUNT_w0 : Nat := 0x10020030
abbrev fCINCH_COUNT_steps : Fld := ⟨aCINCH_COUNT_w0, 16, 16⟩
abbrev fCINCH_COUNT_step_deferred : Fld := ⟨aCINCH_COUNT_w0, 0, 16⟩

/-- Address of CINCH_COUNT.w1 (chapter 07, R205). -/
abbrev aCINCH_COUNT_w1 : Nat := 0x10020034
abbrev fCINCH_COUNT_sets : Fld := ⟨aCINCH_COUNT_w1, 16, 16⟩
abbrev fCINCH_COUNT_slots_removed : Fld := ⟨aCINCH_COUNT_w1, 0, 16⟩

/-- Address of CINCH_COUNT.w2 (chapter 07, R205). -/
abbrev aCINCH_COUNT_w2 : Nat := 0x10020038
abbrev fCINCH_COUNT_src_lost : Fld := ⟨aCINCH_COUNT_w2, 16, 16⟩
abbrev fCINCH_COUNT_obs_refused : Fld := ⟨aCINCH_COUNT_w2, 0, 16⟩

/-- Address of CINCH_COUNT.w3 (chapter 07, R205). -/
abbrev aCINCH_COUNT_w3 : Nat := 0x1002003C
abbrev fCINCH_COUNT_beacon_sent : Fld := ⟨aCINCH_COUNT_w3, 16, 16⟩
abbrev fCINCH_COUNT_beacon_fail : Fld := ⟨aCINCH_COUNT_w3, 0, 16⟩

/-- Address of CINCH_AIR_NBR (chapter 07, R205). -/
abbrev aCINCH_AIR_NBR (i : Nat) : Nat := 0x10020100 + i * 0x4
abbrev fCINCH_AIR_NBR_valid (i : Nat) : Fld := ⟨aCINCH_AIR_NBR i, 31, 1⟩
abbrev fCINCH_AIR_NBR_period (i : Nat) : Fld := ⟨aCINCH_AIR_NBR i, 28, 3⟩
abbrev fCINCH_AIR_NBR_device (i : Nat) : Fld := ⟨aCINCH_AIR_NBR i, 16, 12⟩
abbrev fCINCH_AIR_NBR_air_delay_ns (i : Nat) : Fld := ⟨aCINCH_AIR_NBR i, 0, 16⟩

/-- Address of CINCH_AIR_OBS.w0 (chapter 07, R205). -/
abbrev aCINCH_AIR_OBS_w0 : Nat := 0x10020140

/-- Address of CINCH_AIR_OBS.w4 (chapter 07, R205). -/
abbrev aCINCH_AIR_OBS_w4 : Nat := 0x10020150

/-- Address of CINCH_BEACON.w0 (chapter 07, R205). -/
abbrev aCINCH_BEACON_w0 : Nat := 0x10020180
abbrev fCINCH_BEACON_en : Fld := ⟨aCINCH_BEACON_w0, 31, 1⟩
abbrev fCINCH_BEACON_chain : Fld := ⟨aCINCH_BEACON_w0, 30, 1⟩
abbrev fCINCH_BEACON_mode : Fld := ⟨aCINCH_BEACON_w0, 26, 4⟩
abbrev fCINCH_BEACON_code_id : Fld := ⟨aCINCH_BEACON_w0, 22, 4⟩
abbrev fCINCH_BEACON_sub_band : Fld := ⟨aCINCH_BEACON_w0, 18, 4⟩
abbrev fCINCH_BEACON_power : Fld := ⟨aCINCH_BEACON_w0, 10, 8⟩

/-- Address of CINCH_BEACON.w1 (chapter 07, R205). -/
abbrev aCINCH_BEACON_w1 : Nat := 0x10020184
abbrev fCINCH_BEACON_freq_hz : Fld := ⟨aCINCH_BEACON_w1, 0, 32⟩

/-- Address of CINCH_PLAN_CTRL (chapter 07, R205). -/
abbrev aCINCH_PLAN_CTRL : Nat := 0x10020200
abbrev fCINCH_PLAN_CTRL_swap : Fld := ⟨aCINCH_PLAN_CTRL, 31, 1⟩
abbrev fCINCH_PLAN_CTRL_active : Fld := ⟨aCINCH_PLAN_CTRL, 16, 1⟩
abbrev fCINCH_PLAN_CTRL_swaps : Fld := ⟨aCINCH_PLAN_CTRL, 0, 16⟩

/-- Address of CINCH_NOW.w0 (chapter 07, R205). -/
abbrev aCINCH_NOW_w0 : Nat := 0x10021000

/-- Address of CINCH_NOW.w1 (chapter 07, R205). -/
abbrev aCINCH_NOW_w1 : Nat := 0x10021004

/-- Address of CINCH_NOW.w2 (chapter 07, R205). -/
abbrev aCINCH_NOW_w2 : Nat := 0x10021008

/-- Address of CINCH_NOW.w3 (chapter 07, R205). -/
abbrev aCINCH_NOW_w3 : Nat := 0x1002100C
abbrev fCINCH_NOW_last_len : Fld := ⟨aCINCH_NOW_w3, 0, 32⟩

/-- Address of CINCH_NOW.w4 (chapter 07, R205). -/
abbrev aCINCH_NOW_w4 : Nat := 0x10021010

/-- Address of CINCH_PLAN (chapter 07, R200). -/
abbrev aCINCH_PLAN (b : Nat) (s : Nat) : Nat := 0x10028000 + b * 0x4000 + s * 0x4

/-- Address of RTC_LOAD0 (chapter 16, R387). -/
abbrev aRTC_LOAD0 : Nat := 0x10030000
abbrev fRTC_LOAD0_sec_lo : Fld := ⟨aRTC_LOAD0, 0, 32⟩

/-- Address of RTC_LOAD1 (chapter 16, R387). -/
abbrev aRTC_LOAD1 : Nat := 0x10030004
abbrev fRTC_LOAD1_frac : Fld := ⟨aRTC_LOAD1, 17, 15⟩
abbrev fRTC_LOAD1_sec_hi : Fld := ⟨aRTC_LOAD1, 0, 16⟩

/-- Address of RTC_CTRL (chapter 16, R387). -/
abbrev aRTC_CTRL : Nat := 0x10030008
abbrev fRTC_CTRL_cal : Fld := ⟨aRTC_CTRL, 0, 8⟩

/-- Address of RTC_VBAT_TS0 (chapter 16, R387). -/
abbrev aRTC_VBAT_TS0 : Nat := 0x10030010
abbrev fRTC_VBAT_TS0_sec_lo : Fld := ⟨aRTC_VBAT_TS0, 0, 32⟩

/-- Address of RTC_VBAT_TS1 (chapter 16, R387). -/
abbrev aRTC_VBAT_TS1 : Nat := 0x10030014
abbrev fRTC_VBAT_TS1_frac : Fld := ⟨aRTC_VBAT_TS1, 17, 15⟩
abbrev fRTC_VBAT_TS1_sec_hi : Fld := ⟨aRTC_VBAT_TS1, 0, 16⟩

/-- Address of RTC_VBAT_STAT (chapter 16, R387). -/
abbrev aRTC_VBAT_STAT : Nat := 0x10030018
abbrev fRTC_VBAT_STAT_ts_valid : Fld := ⟨aRTC_VBAT_STAT, 31, 1⟩
abbrev fRTC_VBAT_STAT_count : Fld := ⟨aRTC_VBAT_STAT, 0, 16⟩

/-- Address of RTC_STATUS (chapter 16, R387). -/
abbrev aRTC_STATUS : Nat := 0x10030100
abbrev fRTC_STATUS_valid : Fld := ⟨aRTC_STATUS, 31, 1⟩
abbrev fRTC_STATUS_on_vbat : Fld := ⟨aRTC_STATUS, 30, 1⟩
abbrev fRTC_STATUS_vbat_low : Fld := ⟨aRTC_STATUS, 29, 1⟩
abbrev fRTC_STATUS_xtal_fail : Fld := ⟨aRTC_STATUS, 28, 1⟩

/-- Address of RTC_FRAC (chapter 16, R387). -/
abbrev aRTC_FRAC : Nat := 0x10030104

/-- Address of RTC_SEC_LO (chapter 16, R387). -/
abbrev aRTC_SEC_LO : Nat := 0x10030108

/-- Address of RTC_SEC_HI (chapter 16, R387). -/
abbrev aRTC_SEC_HI : Nat := 0x1003010C

/-- Address of TMR_START (chapter 16, R394). -/
abbrev aTMR_START : Nat := 0x10030200

/-- Address of TMR_STOP (chapter 16, R394). -/
abbrev aTMR_STOP : Nat := 0x10030204

/-- Address of TMR_GSTAT (chapter 16, R394). -/
abbrev aTMR_GSTAT : Nat := 0x10030208

/-- Address of TMR_CFG (chapter 16, R394). -/
abbrev aTMR_CFG (n : Nat) : Nat := 0x10031000 + n * 0x100
abbrev fTMR_CFG_en (n : Nat) : Fld := ⟨aTMR_CFG n, 31, 1⟩
abbrev fTMR_CFG_cmp_sync (n : Nat) : Fld := ⟨aTMR_CFG n, 29, 1⟩
abbrev fTMR_CFG_sup (n : Nat) : Fld := ⟨aTMR_CFG n, 28, 1⟩
abbrev fTMR_CFG_owner (n : Nat) : Fld := ⟨aTMR_CFG n, 24, 4⟩
abbrev fTMR_CFG_pre (n : Nat) : Fld := ⟨aTMR_CFG n, 20, 4⟩
abbrev fTMR_CFG_target (n : Nat) : Fld := ⟨aTMR_CFG n, 12, 7⟩
abbrev fTMR_CFG_notify (n : Nat) : Fld := ⟨aTMR_CFG n, 0, 4⟩

/-- Address of TMR_RELOAD_HI (chapter 16, R394). -/
abbrev aTMR_RELOAD_HI (n : Nat) : Nat := 0x10031008 + n * 0x100
abbrev fTMR_RELOAD_HI_reload_hi (n : Nat) : Fld := ⟨aTMR_RELOAD_HI n, 0, 16⟩

/-- Address of TMR_CMP_HI (chapter 16, R394). -/
abbrev aTMR_CMP_HI (n : Nat) : Nat := 0x10031010 + n * 0x100

/-- Address of TMR_STATUS (chapter 16, R394). -/
abbrev aTMR_STATUS (n : Nat) : Nat := 0x1003101C + n * 0x100
abbrev fTMR_STATUS_behind (n : Nat) : Fld := ⟨aTMR_STATUS n, 5, 1⟩
abbrev fTMR_STATUS_double (n : Nat) : Fld := ⟨aTMR_STATUS n, 4, 1⟩
abbrev fTMR_STATUS_top (n : Nat) : Fld := ⟨aTMR_STATUS n, 3, 1⟩
abbrev fTMR_STATUS_bottom (n : Nat) : Fld := ⟨aTMR_STATUS n, 2, 1⟩
abbrev fTMR_STATUS_up (n : Nat) : Fld := ⟨aTMR_STATUS n, 1, 1⟩
abbrev fTMR_STATUS_down (n : Nat) : Fld := ⟨aTMR_STATUS n, 0, 1⟩

/-- Address of MEM_BURN_CFG (chapter 14, R360). -/
abbrev aMEM_BURN_CFG : Nat := 0x10040000
abbrev fMEM_BURN_CFG_en : Fld := ⟨aMEM_BURN_CFG, 31, 1⟩
abbrev fMEM_BURN_CFG_period_h : Fld := ⟨aMEM_BURN_CFG, 0, 8⟩

/-- Address of MEM_BURN_STATUS (chapter 14, R360). -/
abbrev aMEM_BURN_STATUS : Nat := 0x10040004
abbrev fMEM_BURN_STATUS_mem : Fld := ⟨aMEM_BURN_STATUS, 16, 4⟩
abbrev fMEM_BURN_STATUS_passes : Fld := ⟨aMEM_BURN_STATUS, 0, 16⟩

/-- Address of MEM_ECC_LAST.w0 (chapter 14, R360). -/
abbrev aMEM_ECC_LAST_w0 : Nat := 0x10040010
abbrev fMEM_ECC_LAST_addr : Fld := ⟨aMEM_ECC_LAST_w0, 0, 32⟩

/-- Address of MEM_ECC_LAST.w1 (chapter 14, R360). -/
abbrev aMEM_ECC_LAST_w1 : Nat := 0x10040014
abbrev fMEM_ECC_LAST_mem : Fld := ⟨aMEM_ECC_LAST_w1, 28, 4⟩
abbrev fMEM_ECC_LAST_write : Fld := ⟨aMEM_ECC_LAST_w1, 27, 1⟩
abbrev fMEM_ECC_LAST_reader : Fld := ⟨aMEM_ECC_LAST_w1, 20, 7⟩

/-- Address of MEM_ECC_LAST.w2 (chapter 14, R360). -/
abbrev aMEM_ECC_LAST_w2 : Nat := 0x10040018
abbrev fMEM_ECC_LAST_frame : Fld := ⟨aMEM_ECC_LAST_w2, 0, 32⟩

/-- Address of MEM_FLIP.w0 (chapter 14, R360). -/
abbrev aMEM_FLIP_w0 : Nat := 0x10040020

/-- Address of MEM_FLIP.w1 (chapter 14, R360). -/
abbrev aMEM_FLIP_w1 : Nat := 0x10040024

/-- Address of MEM_FLIP.w2 (chapter 14, R360). -/
abbrev aMEM_FLIP_w2 : Nat := 0x10040028
abbrev fMEM_FLIP_armed : Fld := ⟨aMEM_FLIP_w2, 31, 1⟩
abbrev fMEM_FLIP_mem : Fld := ⟨aMEM_FLIP_w2, 8, 4⟩
abbrev fMEM_FLIP_check : Fld := ⟨aMEM_FLIP_w2, 0, 8⟩

/-- Address of MEM_CLEAR (chapter 14, R360). -/
abbrev aMEM_CLEAR : Nat := 0x10040030
abbrev fMEM_CLEAR_busy : Fld := ⟨aMEM_CLEAR, 30, 1⟩
abbrev fMEM_CLEAR_err : Fld := ⟨aMEM_CLEAR, 29, 1⟩
abbrev fMEM_CLEAR_space : Fld := ⟨aMEM_CLEAR, 28, 1⟩
abbrev fMEM_CLEAR_region : Fld := ⟨aMEM_CLEAR, 26, 2⟩
abbrev fMEM_CLEAR_last : Fld := ⟨aMEM_CLEAR, 12, 7⟩
abbrev fMEM_CLEAR_first : Fld := ⟨aMEM_CLEAR, 0, 7⟩

/-- Address of MEM_CNT.w0 (chapter 14, R360). -/
abbrev aMEM_CNT_w0 (m : Nat) : Nat := 0x10040100 + m * 0x8
abbrev fMEM_CNT_corrected (m : Nat) : Fld := ⟨aMEM_CNT_w0 m, 0, 32⟩

/-- Address of MEM_CNT.w1 (chapter 14, R360). -/
abbrev aMEM_CNT_w1 (m : Nat) : Nat := 0x10040104 + m * 0x8
abbrev fMEM_CNT_uncorrectable (m : Nat) : Fld := ⟨aMEM_CNT_w1 m, 0, 32⟩

/-- Address of XSPI_CTRL (chapter 15, R379). -/
abbrev aXSPI_CTRL : Nat := 0x10050000
abbrev fXSPI_CTRL_mode : Fld := ⟨aXSPI_CTRL, 30, 2⟩
abbrev fXSPI_CTRL_run_min_us : Fld := ⟨aXSPI_CTRL, 16, 13⟩
abbrev fXSPI_CTRL_prog_retry : Fld := ⟨aXSPI_CTRL, 2, 2⟩
abbrev fXSPI_CTRL_erase_retry : Fld := ⟨aXSPI_CTRL, 1, 1⟩

/-- Address of XSPI_STATUS (chapter 15, R379). -/
abbrev aXSPI_STATUS : Nat := 0x10050004
abbrev fXSPI_STATUS_busy : Fld := ⟨aXSPI_STATUS, 31, 1⟩
abbrev fXSPI_STATUS_suspended : Fld := ⟨aXSPI_STATUS, 30, 1⟩
abbrev fXSPI_STATUS_go_refused : Fld := ⟨aXSPI_STATUS, 29, 1⟩
abbrev fXSPI_STATUS_op_lost : Fld := ⟨aXSPI_STATUS, 28, 1⟩
abbrev fXSPI_STATUS_dev_ok : Fld := ⟨aXSPI_STATUS, 27, 1⟩
abbrev fXSPI_STATUS_op : Fld := ⟨aXSPI_STATUS, 20, 4⟩

/-- Address of XSPI_DEV0 (chapter 15, R379). -/
abbrev aXSPI_DEV0 : Nat := 0x10050008
abbrev fXSPI_DEV0_size_log2 : Fld := ⟨aXSPI_DEV0, 27, 5⟩

/-- Address of XSPI_DEV1 (chapter 15, R379). -/
abbrev aXSPI_DEV1 : Nat := 0x1005000C
abbrev fXSPI_DEV1_terase_ms : Fld := ⟨aXSPI_DEV1, 16, 16⟩
abbrev fXSPI_DEV1_tpp_us : Fld := ⟨aXSPI_DEV1, 0, 16⟩

/-- Address of XSPI_CMD.w0 (chapter 15, R379). -/
abbrev aXSPI_CMD_w0 : Nat := 0x10050010

/-- Address of XSPI_CMD.w1 (chapter 15, R379). -/
abbrev aXSPI_CMD_w1 : Nat := 0x10050014
abbrev fXSPI_CMD_addr : Fld := ⟨aXSPI_CMD_w1, 0, 32⟩

/-- Address of XSPI_CMD.w2 (chapter 15, R379). -/
abbrev aXSPI_CMD_w2 : Nat := 0x10050018
abbrev fXSPI_CMD_buf : Fld := ⟨aXSPI_CMD_w2, 0, 32⟩

/-- Address of XSPI_CMD.w3 (chapter 15, R379). -/
abbrev aXSPI_CMD_w3 : Nat := 0x1005001C
abbrev fXSPI_CMD_length : Fld := ⟨aXSPI_CMD_w3, 0, 17⟩

/-- Address of XSPI_RESULT (chapter 15, R379). -/
abbrev aXSPI_RESULT : Nat := 0x10050020
abbrev fXSPI_RESULT_status : Fld := ⟨aXSPI_RESULT, 28, 4⟩
abbrev fXSPI_RESULT_boot_code : Fld := ⟨aXSPI_RESULT, 24, 4⟩
abbrev fXSPI_RESULT_tag : Fld := ⟨aXSPI_RESULT, 0, 16⟩

/-- Address of XSPI_RESULT2 (chapter 15, R379). -/
abbrev aXSPI_RESULT2 : Nat := 0x10050024
abbrev fXSPI_RESULT2_detail : Fld := ⟨aXSPI_RESULT2, 0, 32⟩

/-- Address of XSPI_LOST (chapter 15, R379). -/
abbrev aXSPI_LOST : Nat := 0x10050028
abbrev fXSPI_LOST_op : Fld := ⟨aXSPI_LOST, 28, 4⟩
abbrev fXSPI_LOST_offset : Fld := ⟨aXSPI_LOST, 0, 28⟩

/-- Address of XSPI_WEAR (chapter 15, R379). -/
abbrev aXSPI_WEAR : Nat := 0x1005002C
abbrev fXSPI_WEAR_warned : Fld := ⟨aXSPI_WEAR, 31, 1⟩
abbrev fXSPI_WEAR_erase_warn : Fld := ⟨aXSPI_WEAR, 0, 24⟩

/-- Address of XSPI_COUNT.w0 (chapter 15, R379). -/
abbrev aXSPI_COUNT_w0 : Nat := 0x10050030
abbrev fXSPI_COUNT_erases : Fld := ⟨aXSPI_COUNT_w0, 16, 16⟩
abbrev fXSPI_COUNT_programs : Fld := ⟨aXSPI_COUNT_w0, 0, 16⟩

/-- Address of XSPI_COUNT.w1 (chapter 15, R379). -/
abbrev aXSPI_COUNT_w1 : Nat := 0x10050034
abbrev fXSPI_COUNT_suspends : Fld := ⟨aXSPI_COUNT_w1, 16, 16⟩
abbrev fXSPI_COUNT_retries : Fld := ⟨aXSPI_COUNT_w1, 0, 16⟩

/-- Address of XSPI_COUNT.w2 (chapter 15, R379). -/
abbrev aXSPI_COUNT_w2 : Nat := 0x10050038
abbrev fXSPI_COUNT_fails : Fld := ⟨aXSPI_COUNT_w2, 16, 16⟩
abbrev fXSPI_COUNT_not_blank : Fld := ⟨aXSPI_COUNT_w2, 0, 16⟩

/-- Address of XSPI_COUNT.w3 (chapter 15, R379). -/
abbrev aXSPI_COUNT_w3 : Nat := 0x1005003C
abbrev fXSPI_COUNT_protected : Fld := ⟨aXSPI_COUNT_w3, 16, 16⟩
abbrev fXSPI_COUNT_busy : Fld := ⟨aXSPI_COUNT_w3, 0, 16⟩

/-- Address of XSPI_COUNT.w4 (chapter 15, R379). -/
abbrev aXSPI_COUNT_w4 : Nat := 0x10050040
abbrev fXSPI_COUNT_busy_read : Fld := ⟨aXSPI_COUNT_w4, 16, 16⟩
abbrev fXSPI_COUNT_oob : Fld := ⟨aXSPI_COUNT_w4, 0, 16⟩

/-- Address of CIPHER_KEY_DATA (chapter 12, R317). -/
abbrev aCIPHER_KEY_DATA (w : Nat) : Nat := 0x10060000 + w * 0x4

/-- Address of CIPHER_KEY_CMD (chapter 12, R317). -/
abbrev aCIPHER_KEY_CMD : Nat := 0x10060010

/-- Address of CIPHER_STATUS (chapter 12, R317). -/
abbrev aCIPHER_STATUS : Nat := 0x10060014
abbrev fCIPHER_STATUS_cmd_err : Fld := ⟨aCIPHER_STATUS, 31, 1⟩

/-- Address of CIPHER_KC (chapter 12, R317). -/
abbrev aCIPHER_KC (t : Nat) : Nat := 0x10060100 + t * 0x4
abbrev fCIPHER_KC_kc_guar (t : Nat) : Fld := ⟨aCIPHER_KC t, 0, 8⟩

/-- Address of CIPHER_COUNT.w0 (chapter 12, R317). -/
abbrev aCIPHER_COUNT_w0 : Nat := 0x10060200
abbrev fCIPHER_COUNT_ok : Fld := ⟨aCIPHER_COUNT_w0, 0, 32⟩

/-- Address of CIPHER_COUNT.w1 (chapter 12, R317). -/
abbrev aCIPHER_COUNT_w1 : Nat := 0x10060204
abbrev fCIPHER_COUNT_auth_fail : Fld := ⟨aCIPHER_COUNT_w1, 16, 16⟩
abbrev fCIPHER_COUNT_key_erased : Fld := ⟨aCIPHER_COUNT_w1, 0, 16⟩

/-- Address of CIPHER_COUNT.w2 (chapter 12, R317). -/
abbrev aCIPHER_COUNT_w2 : Nat := 0x10060208
abbrev fCIPHER_COUNT_kc_miss : Fld := ⟨aCIPHER_COUNT_w2, 16, 16⟩
abbrev fCIPHER_COUNT_unwrap_fail : Fld := ⟨aCIPHER_COUNT_w2, 0, 16⟩

/-- Address of CIPHER_COUNT.w3 (chapter 12, R317). -/
abbrev aCIPHER_COUNT_w3 : Nat := 0x1006020C
abbrev fCIPHER_COUNT_busy : Fld := ⟨aCIPHER_COUNT_w3, 16, 16⟩
abbrev fCIPHER_COUNT_no_key : Fld := ⟨aCIPHER_COUNT_w3, 0, 16⟩

/-- Address of TRNG_STATUS (chapter 12, R317). -/
abbrev aTRNG_STATUS : Nat := 0x10060300
abbrev fTRNG_STATUS_ok : Fld := ⟨aTRNG_STATUS, 31, 1⟩
abbrev fTRNG_STATUS_rct_fail : Fld := ⟨aTRNG_STATUS, 30, 1⟩
abbrev fTRNG_STATUS_apt_fail : Fld := ⟨aTRNG_STATUS, 29, 1⟩
abbrev fTRNG_STATUS_startup_done : Fld := ⟨aTRNG_STATUS, 28, 1⟩
abbrev fTRNG_STATUS_fail_count : Fld := ⟨aTRNG_STATUS, 0, 16⟩

/-- Address of TRNG_DATA (chapter 12, R317). -/
abbrev aTRNG_DATA : Nat := 0x10060304

/-- Address of ECC_PUB (chapter 12, R317). -/
abbrev aECC_PUB (i : Nat) (w : Nat) : Nat := 0x10060400 + i * 0x40 + w * 0x4

/-- Address of ECC_KEY_CTRL (chapter 12, R317). -/
abbrev aECC_KEY_CTRL (i : Nat) : Nat := 0x10060500 + i * 0x4
abbrev fECC_KEY_CTRL_busy (i : Nat) : Fld := ⟨aECC_KEY_CTRL i, 28, 1⟩
abbrev fECC_KEY_CTRL_valid (i : Nat) : Fld := ⟨aECC_KEY_CTRL i, 27, 1⟩
abbrev fECC_KEY_CTRL_owner (i : Nat) : Fld := ⟨aECC_KEY_CTRL i, 20, 4⟩

/-- Address of TABLE_PORT_GO (chapter 08, R224). -/
abbrev aTABLE_PORT_GO (p : Nat) : Nat := 0x10070000 + p * 0x100

/-- Address of TABLE_PORT_OWN (chapter 08, R224). -/
abbrev aTABLE_PORT_OWN (p : Nat) : Nat := 0x10070400 + p * 0x4
abbrev fTABLE_PORT_OWN_tenants (p : Nat) : Fld := ⟨aTABLE_PORT_OWN p, 0, 16⟩

/-- Address of TABLE_CFG (chapter 08, R224). -/
abbrev aTABLE_CFG : Nat := 0x10070800
abbrev fTABLE_CFG_sweep_en : Fld := ⟨aTABLE_CFG, 31, 1⟩
abbrev fTABLE_CFG_hash_salt : Fld := ⟨aTABLE_CFG, 16, 14⟩

/-- Address of TABLE_OCC (chapter 08, R224). -/
abbrev aTABLE_OCC (w : Nat) : Nat := 0x10070804 + w * 0x4

/-- Address of TABLE_COUNT.w0 (chapter 08, R224). -/
abbrev aTABLE_COUNT_w0 : Nat := 0x10070810
abbrev fTABLE_COUNT_evicted : Fld := ⟨aTABLE_COUNT_w0, 16, 16⟩
abbrev fTABLE_COUNT_set_pinned : Fld := ⟨aTABLE_COUNT_w0, 0, 16⟩

/-- Address of TABLE_COUNT.w1 (chapter 08, R224). -/
abbrev aTABLE_COUNT_w1 : Nat := 0x10070814
abbrev fTABLE_COUNT_swept : Fld := ⟨aTABLE_COUNT_w1, 16, 16⟩
abbrev fTABLE_COUNT_learn_miss : Fld := ⟨aTABLE_COUNT_w1, 0, 16⟩

/-- Address of TABLE_COUNT.w2 (chapter 08, R224). -/
abbrev aTABLE_COUNT_w2 : Nat := 0x10070818
abbrev fTABLE_COUNT_fwd_sent : Fld := ⟨aTABLE_COUNT_w2, 16, 16⟩
abbrev fTABLE_COUNT_no_route : Fld := ⟨aTABLE_COUNT_w2, 0, 16⟩

/-- Address of TABLE_COUNT.w3 (chapter 08, R224). -/
abbrev aTABLE_COUNT_w3 : Nat := 0x1007081C
abbrev fTABLE_COUNT_flooded : Fld := ⟨aTABLE_COUNT_w3, 16, 16⟩
abbrev fTABLE_COUNT_fwd_dup : Fld := ⟨aTABLE_COUNT_w3, 0, 16⟩

/-- Address of TABLE_COUNT.w4 (chapter 08, R224). -/
abbrev aTABLE_COUNT_w4 : Nat := 0x10070820
abbrev fTABLE_COUNT_hop_exhaust : Fld := ⟨aTABLE_COUNT_w4, 16, 16⟩
abbrev fTABLE_COUNT_inbox_full : Fld := ⟨aTABLE_COUNT_w4, 0, 16⟩

/-- Address of TABLE_COUNT.w5 (chapter 08, R224). -/
abbrev aTABLE_COUNT_w5 : Nat := 0x10070824
abbrev fTABLE_COUNT_port_busy : Fld := ⟨aTABLE_COUNT_w5, 16, 16⟩
abbrev fTABLE_COUNT_bad_cmd : Fld := ⟨aTABLE_COUNT_w5, 0, 16⟩

/-- Address of TABLE_BB_CTR (chapter 08, R224). -/
abbrev aTABLE_BB_CTR : Nat := 0x10070830
abbrev fTABLE_BB_CTR_bb_ctr : Fld := ⟨aTABLE_BB_CTR, 0, 32⟩

/-- Address of TABLE_MSG_ID (chapter 08, R224). -/
abbrev aTABLE_MSG_ID : Nat := 0x10070834
abbrev fTABLE_MSG_ID_msg_id : Fld := ⟨aTABLE_MSG_ID, 0, 32⟩

/-- Address of TABLE_TQUOTA.w0 (chapter 08, R224). -/
abbrev aTABLE_TQUOTA_w0 (t : Nat) : Nat := 0x10071000 + t * 0x10
abbrev fTABLE_TQUOTA_rec_base (t : Nat) : Fld := ⟨aTABLE_TQUOTA_w0 t, 0, 17⟩

/-- Address of TABLE_TQUOTA.w1 (chapter 08, R224). -/
abbrev aTABLE_TQUOTA_w1 (t : Nat) : Nat := 0x10071004 + t * 0x10
abbrev fTABLE_TQUOTA_rec_count (t : Nat) : Fld := ⟨aTABLE_TQUOTA_w1 t, 0, 18⟩

/-- Address of TABLE_TQUOTA.w2 (chapter 08, R224). -/
abbrev aTABLE_TQUOTA_w2 (t : Nat) : Nat := 0x10071008 + t * 0x10
abbrev fTABLE_TQUOTA_max_pinned (t : Nat) : Fld := ⟨aTABLE_TQUOTA_w2 t, 0, 18⟩

/-- Address of TABLE_TINBOX.w0 (chapter 08, R224). -/
abbrev aTABLE_TINBOX_w0 (t : Nat) : Nat := 0x10072000 + t * 0x10
abbrev fTABLE_TINBOX_base (t : Nat) : Fld := ⟨aTABLE_TINBOX_w0 t, 0, 32⟩

/-- Address of TABLE_TINBOX.w1 (chapter 08, R224). -/
abbrev aTABLE_TINBOX_w1 (t : Nat) : Nat := 0x10072004 + t * 0x10
abbrev fTABLE_TINBOX_valid (t : Nat) : Fld := ⟨aTABLE_TINBOX_w1 t, 31, 1⟩
abbrev fTABLE_TINBOX_target (t : Nat) : Fld := ⟨aTABLE_TINBOX_w1 t, 8, 7⟩
abbrev fTABLE_TINBOX_s (t : Nat) : Fld := ⟨aTABLE_TINBOX_w1 t, 0, 4⟩

/-- Address of TABLE_TINBOX.w2 (chapter 08, R224). -/
abbrev aTABLE_TINBOX_w2 (t : Nat) : Nat := 0x10072008 + t * 0x10
abbrev fTABLE_TINBOX_wr (t : Nat) : Fld := ⟨aTABLE_TINBOX_w2 t, 0, 24⟩

/-- Address of TABLE_TINBOX.w3 (chapter 08, R224). -/
abbrev aTABLE_TINBOX_w3 (t : Nat) : Nat := 0x1007200C + t * 0x10
abbrev fTABLE_TINBOX_rd (t : Nat) : Fld := ⟨aTABLE_TINBOX_w3 t, 0, 24⟩

/-- Address of RELAY_CTRL (chapter 06, R185). -/
abbrev aRELAY_CTRL : Nat := 0x10078000
abbrev fRELAY_CTRL_en : Fld := ⟨aRELAY_CTRL, 31, 1⟩
abbrev fRELAY_CTRL_life : Fld := ⟨aRELAY_CTRL, 16, 8⟩
abbrev fRELAY_CTRL_k : Fld := ⟨aRELAY_CTRL, 8, 4⟩
abbrev fRELAY_CTRL_win_ms : Fld := ⟨aRELAY_CTRL, 0, 8⟩

/-- Address of RELAY_DEVADDR (chapter 06, R185). -/
abbrev aRELAY_DEVADDR : Nat := 0x10078004
abbrev fRELAY_DEVADDR_device : Fld := ⟨aRELAY_DEVADDR, 0, 12⟩

/-- Address of RELAY_SEEN_OCC (chapter 06, R185). -/
abbrev aRELAY_SEEN_OCC : Nat := 0x10078010

/-- Address of RELAY_SEEN_EVICT (chapter 06, R185). -/
abbrev aRELAY_SEEN_EVICT : Nat := 0x10078014
abbrev fRELAY_SEEN_EVICT_evict : Fld := ⟨aRELAY_SEEN_EVICT, 0, 32⟩

/-- Address of RELAY_BUF (chapter 06, R185). -/
abbrev aRELAY_BUF : Nat := 0x10078018

/-- Address of RELAY_TCFG (chapter 06, R185). -/
abbrev aRELAY_TCFG (t : Nat) : Nat := 0x10078100 + t * 0x4
abbrev fRELAY_TCFG_plain_ok (t : Nat) : Fld := ⟨aRELAY_TCFG t, 31, 1⟩
abbrev fRELAY_TCFG_relay_en (t : Nat) : Fld := ⟨aRELAY_TCFG t, 30, 1⟩
abbrev fRELAY_TCFG_urg_relay (t : Nat) : Fld := ⟨aRELAY_TCFG t, 29, 1⟩
abbrev fRELAY_TCFG_ack_en (t : Nat) : Fld := ⟨aRELAY_TCFG t, 28, 1⟩
abbrev fRELAY_TCFG_relay_prio (t : Nat) : Fld := ⟨aRELAY_TCFG t, 24, 3⟩
abbrev fRELAY_TCFG_relay_power (t : Nat) : Fld := ⟨aRELAY_TCFG t, 16, 8⟩
abbrev fRELAY_TCFG_ack_power (t : Nat) : Fld := ⟨aRELAY_TCFG t, 8, 8⟩
abbrev fRELAY_TCFG_target (t : Nat) : Fld := ⟨aRELAY_TCFG t, 0, 7⟩

/-- Address of RELAY_TCOUNT.w0 (chapter 06, R185). -/
abbrev aRELAY_TCOUNT_w0 (t : Nat) : Nat := 0x10078200 + t * 0x20
abbrev fRELAY_TCOUNT_delivered (t : Nat) : Fld := ⟨aRELAY_TCOUNT_w0 t, 0, 32⟩

/-- Address of RELAY_TCOUNT.w1 (chapter 06, R185). -/
abbrev aRELAY_TCOUNT_w1 (t : Nat) : Nat := 0x10078204 + t * 0x20
abbrev fRELAY_TCOUNT_dup (t : Nat) : Fld := ⟨aRELAY_TCOUNT_w1 t, 16, 16⟩
abbrev fRELAY_TCOUNT_mic_fail (t : Nat) : Fld := ⟨aRELAY_TCOUNT_w1 t, 0, 16⟩

/-- Address of RELAY_TCOUNT.w2 (chapter 06, R185). -/
abbrev aRELAY_TCOUNT_w2 (t : Nat) : Nat := 0x10078208 + t * 0x20
abbrev fRELAY_TCOUNT_replay (t : Nat) : Fld := ⟨aRELAY_TCOUNT_w2 t, 16, 16⟩
abbrev fRELAY_TCOUNT_foreign (t : Nat) : Fld := ⟨aRELAY_TCOUNT_w2 t, 0, 16⟩

/-- Address of RELAY_TCOUNT.w3 (chapter 06, R185). -/
abbrev aRELAY_TCOUNT_w3 (t : Nat) : Nat := 0x1007820C + t * 0x20
abbrev fRELAY_TCOUNT_relayed (t : Nat) : Fld := ⟨aRELAY_TCOUNT_w3 t, 16, 16⟩
abbrev fRELAY_TCOUNT_suppressed (t : Nat) : Fld := ⟨aRELAY_TCOUNT_w3 t, 0, 16⟩

/-- Address of RELAY_TCOUNT.w4 (chapter 06, R185). -/
abbrev aRELAY_TCOUNT_w4 (t : Nat) : Nat := 0x10078210 + t * 0x20
abbrev fRELAY_TCOUNT_ack_sent (t : Nat) : Fld := ⟨aRELAY_TCOUNT_w4 t, 16, 16⟩
abbrev fRELAY_TCOUNT_ack_lost (t : Nat) : Fld := ⟨aRELAY_TCOUNT_w4 t, 0, 16⟩

/-- Address of RELAY_TCOUNT.w5 (chapter 06, R185). -/
abbrev aRELAY_TCOUNT_w5 (t : Nat) : Nat := 0x10078214 + t * 0x20
abbrev fRELAY_TCOUNT_unknown (t : Nat) : Fld := ⟨aRELAY_TCOUNT_w5 t, 16, 16⟩
abbrev fRELAY_TCOUNT_plain (t : Nat) : Fld := ⟨aRELAY_TCOUNT_w5 t, 0, 16⟩

/-- Address of RELAY_TCOUNT.w6 (chapter 06, R185). -/
abbrev aRELAY_TCOUNT_w6 (t : Nat) : Nat := 0x10078218 + t * 0x20
abbrev fRELAY_TCOUNT_class_mismatch (t : Nat) : Fld := ⟨aRELAY_TCOUNT_w6 t, 16, 16⟩
abbrev fRELAY_TCOUNT_no_relay (t : Nat) : Fld := ⟨aRELAY_TCOUNT_w6 t, 0, 16⟩

/-- Address of RELAY_URG_LAT.w0 (chapter 19, R438). -/
abbrev aRELAY_URG_LAT_w0 : Nat := 0x10078400
abbrev fRELAY_URG_LAT_radiated : Fld := ⟨aRELAY_URG_LAT_w0, 16, 16⟩
abbrev fRELAY_URG_LAT_over : Fld := ⟨aRELAY_URG_LAT_w0, 0, 16⟩

/-- Address of RELAY_URG_LAT.w1 (chapter 19, R438). -/
abbrev aRELAY_URG_LAT_w1 : Nat := 0x10078404
abbrev fRELAY_URG_LAT_max_ns : Fld := ⟨aRELAY_URG_LAT_w1, 0, 32⟩

/-- Address of RELAY_URG_LAT.w2 (chapter 19, R438). -/
abbrev aRELAY_URG_LAT_w2 : Nat := 0x10078408
abbrev fRELAY_URG_LAT_last_ns : Fld := ⟨aRELAY_URG_LAT_w2, 0, 32⟩

/-- Address of OLDTREE_ALIAS.w0 (chapter 18, R430). -/
abbrev aOLDTREE_ALIAS_w0 : Nat := 0x10079000
abbrev fOLDTREE_ALIAS_status : Fld := ⟨aOLDTREE_ALIAS_w0, 24, 3⟩
abbrev fOLDTREE_ALIAS_addr : Fld := ⟨aOLDTREE_ALIAS_w0, 0, 24⟩

/-- Address of OLDTREE_ALIAS.w1 (chapter 18, R430). -/
abbrev aOLDTREE_ALIAS_w1 : Nat := 0x10079004
abbrev fOLDTREE_ALIAS_valid : Fld := ⟨aOLDTREE_ALIAS_w1, 31, 1⟩
abbrev fOLDTREE_ALIAS_tenant : Fld := ⟨aOLDTREE_ALIAS_w1, 24, 4⟩

/-- Address of OLDTREE_ALIAS.w2 (chapter 18, R430). -/
abbrev aOLDTREE_ALIAS_w2 : Nat := 0x10079008
abbrev fOLDTREE_ALIAS_node_id : Fld := ⟨aOLDTREE_ALIAS_w2, 0, 32⟩

/-- Address of OLDTREE_COUNT.w0 (chapter 18, R430). -/
abbrev aOLDTREE_COUNT_w0 : Nat := 0x10079010
abbrev fOLDTREE_COUNT_alias_miss : Fld := ⟨aOLDTREE_COUNT_w0, 16, 16⟩
abbrev fOLDTREE_COUNT_res_placed : Fld := ⟨aOLDTREE_COUNT_w0, 0, 16⟩

/-- Address of OLDTREE_COUNT.w1 (chapter 18, R430). -/
abbrev aOLDTREE_COUNT_w1 : Nat := 0x10079014
abbrev fOLDTREE_COUNT_res_fail : Fld := ⟨aOLDTREE_COUNT_w1, 16, 16⟩
abbrev fOLDTREE_COUNT_res_unused : Fld := ⟨aOLDTREE_COUNT_w1, 0, 16⟩

/-- Address of TENANT_CFG (chapter 11, R293). -/
abbrev aTENANT_CFG (t : Nat) : Nat := 0x10080000 + t * 0x4
abbrev fTENANT_CFG_declared (t : Nat) : Fld := ⟨aTENANT_CFG t, 31, 1⟩
abbrev fTENANT_CFG_suspend (t : Nat) : Fld := ⟨aTENANT_CFG t, 30, 1⟩
abbrev fTENANT_CFG_fence_err (t : Nat) : Fld := ⟨aTENANT_CFG t, 29, 1⟩
abbrev fTENANT_CFG_fault_target (t : Nat) : Fld := ⟨aTENANT_CFG t, 0, 7⟩

/-- Address of TENANT_RFENCE (chapter 11, R293). -/
abbrev aTENANT_RFENCE (r : Nat) (e : Nat) : Nat := 0x10081000 + r * 0x100 + e * 0x4
abbrev fTENANT_RFENCE_valid (r : Nat) (e : Nat) : Fld := ⟨aTENANT_RFENCE r e, 31, 1⟩
abbrev fTENANT_RFENCE_write (r : Nat) (e : Nat) : Fld := ⟨aTENANT_RFENCE r e, 30, 1⟩
abbrev fTENANT_RFENCE_tenant (r : Nat) (e : Nat) : Fld := ⟨aTENANT_RFENCE r e, 26, 4⟩
abbrev fTENANT_RFENCE_last (r : Nat) (e : Nat) : Fld := ⟨aTENANT_RFENCE r e, 8, 7⟩
abbrev fTENANT_RFENCE_first (r : Nat) (e : Nat) : Fld := ⟨aTENANT_RFENCE r e, 0, 7⟩

/-- Address of TENANT_SFENCE (chapter 11, R293). -/
abbrev aTENANT_SFENCE (e : Nat) : Nat := 0x10082000 + e * 0x4
abbrev fTENANT_SFENCE_valid (e : Nat) : Fld := ⟨aTENANT_SFENCE e, 31, 1⟩
abbrev fTENANT_SFENCE_write (e : Nat) : Fld := ⟨aTENANT_SFENCE e, 30, 1⟩
abbrev fTENANT_SFENCE_tenant (e : Nat) : Fld := ⟨aTENANT_SFENCE e, 26, 4⟩
abbrev fTENANT_SFENCE_space (e : Nat) : Fld := ⟨aTENANT_SFENCE e, 24, 2⟩
abbrev fTENANT_SFENCE_last (e : Nat) : Fld := ⟨aTENANT_SFENCE e, 12, 11⟩
abbrev fTENANT_SFENCE_first (e : Nat) : Fld := ⟨aTENANT_SFENCE e, 0, 11⟩

/-- Address of TENANT_FVIOL.w0 (chapter 11, R293). -/
abbrev aTENANT_FVIOL_w0 (t : Nat) : Nat := 0x10083000 + t * 0x10
abbrev fTENANT_FVIOL_region0 (t : Nat) : Fld := ⟨aTENANT_FVIOL_w0 t, 16, 16⟩
abbrev fTENANT_FVIOL_region1 (t : Nat) : Fld := ⟨aTENANT_FVIOL_w0 t, 0, 16⟩

/-- Address of TENANT_FVIOL.w1 (chapter 11, R293). -/
abbrev aTENANT_FVIOL_w1 (t : Nat) : Nat := 0x10083004 + t * 0x10
abbrev fTENANT_FVIOL_region2 (t : Nat) : Fld := ⟨aTENANT_FVIOL_w1 t, 16, 16⟩
abbrev fTENANT_FVIOL_region3 (t : Nat) : Fld := ⟨aTENANT_FVIOL_w1 t, 0, 16⟩

/-- Address of TENANT_FVIOL.w2 (chapter 11, R293). -/
abbrev aTENANT_FVIOL_w2 (t : Nat) : Nat := 0x10083008 + t * 0x10
abbrev fTENANT_FVIOL_system (t : Nat) : Fld := ⟨aTENANT_FVIOL_w2 t, 16, 16⟩
abbrev fTENANT_FVIOL_register (t : Nat) : Fld := ⟨aTENANT_FVIOL_w2 t, 0, 16⟩

/-- Address of TENANT_CIPHER (chapter 11, R293). -/
abbrev aTENANT_CIPHER (t : Nat) : Nat := 0x10084000 + t * 0x4
abbrev fTENANT_CIPHER_run_max (t : Nat) : Fld := ⟨aTENANT_CIPHER t, 24, 3⟩
abbrev fTENANT_CIPHER_q_ceil (t : Nat) : Fld := ⟨aTENANT_CIPHER t, 8, 6⟩
abbrev fTENANT_CIPHER_q_guar (t : Nat) : Fld := ⟨aTENANT_CIPHER t, 0, 6⟩

/-- Address of TENANT_CIPHER_RES (chapter 11, R293). -/
abbrev aTENANT_CIPHER_RES : Nat := 0x10084040
abbrev fTENANT_CIPHER_RES_q_res : Fld := ⟨aTENANT_CIPHER_RES, 0, 6⟩

/-- Address of ETH_CFG (chapter 17, R400). -/
abbrev aETH_CFG (p : Nat) : Nat := 0x10090000 + p * 0x10000
abbrev fETH_CFG_mode (p : Nat) : Fld := ⟨aETH_CFG p, 30, 2⟩
abbrev fETH_CFG_an_en (p : Nat) : Fld := ⟨aETH_CFG p, 29, 1⟩
abbrev fETH_CFG_vlan_en (p : Nat) : Fld := ⟨aETH_CFG p, 28, 1⟩
abbrev fETH_CFG_accept_other (p : Nat) : Fld := ⟨aETH_CFG p, 27, 1⟩
abbrev fETH_CFG_vid (p : Nat) : Fld := ⟨aETH_CFG p, 0, 12⟩

/-- Address of ETH_STATUS (chapter 17, R400). -/
abbrev aETH_STATUS (p : Nat) : Nat := 0x10090004 + p * 0x10000
abbrev fETH_STATUS_link (p : Nat) : Fld := ⟨aETH_STATUS p, 31, 1⟩
abbrev fETH_STATUS_an_done (p : Nat) : Fld := ⟨aETH_STATUS p, 30, 1⟩
abbrev fETH_STATUS_speed (p : Nat) : Fld := ⟨aETH_STATUS p, 28, 2⟩
abbrev fETH_STATUS_changes (p : Nat) : Fld := ⟨aETH_STATUS p, 0, 16⟩

/-- Address of ETH_MAC0 (chapter 17, R400). -/
abbrev aETH_MAC0 (p : Nat) : Nat := 0x10090008 + p * 0x10000
abbrev fETH_MAC0_mac_lo (p : Nat) : Fld := ⟨aETH_MAC0 p, 0, 32⟩

/-- Address of ETH_MAC1 (chapter 17, R400). -/
abbrev aETH_MAC1 (p : Nat) : Nat := 0x1009000C + p * 0x10000
abbrev fETH_MAC1_mac_hi (p : Nat) : Fld := ⟨aETH_MAC1 p, 0, 16⟩

/-- Address of ETH_TYPE (chapter 17, R400). -/
abbrev aETH_TYPE (p : Nat) : Nat := 0x10090010 + p * 0x10000
abbrev fETH_TYPE_ix_type (p : Nat) : Fld := ⟨aETH_TYPE p, 16, 16⟩
abbrev fETH_TYPE_mg_type (p : Nat) : Fld := ⟨aETH_TYPE p, 0, 16⟩

/-- Address of ETH_RING.w0 (chapter 17, R400). -/
abbrev aETH_RING_w0 (p : Nat) : Nat := 0x10090020 + p * 0x10000

/-- Address of ETH_RING.w1 (chapter 17, R400). -/
abbrev aETH_RING_w1 (p : Nat) : Nat := 0x10090024 + p * 0x10000

/-- Address of ETH_RING.w2 (chapter 17, R400). -/
abbrev aETH_RING_w2 (p : Nat) : Nat := 0x10090028 + p * 0x10000
abbrev fETH_RING_w2_wr (p : Nat) : Fld := ⟨aETH_RING_w2 p, 0, 24⟩

/-- Address of ETH_RING.w3 (chapter 17, R400). -/
abbrev aETH_RING_w3 (p : Nat) : Nat := 0x1009002C + p * 0x10000
abbrev fETH_RING_w3_rd (p : Nat) : Fld := ⟨aETH_RING_w3 p, 0, 24⟩

/-- Address of ETH_RING.w4 (chapter 17, R400). -/
abbrev aETH_RING_w4 (p : Nat) : Nat := 0x10090030 + p * 0x10000

/-- Address of ETH_RING.w5 (chapter 17, R400). -/
abbrev aETH_RING_w5 (p : Nat) : Nat := 0x10090034 + p * 0x10000

/-- Address of ETH_RING.w6 (chapter 17, R400). -/
abbrev aETH_RING_w6 (p : Nat) : Nat := 0x10090038 + p * 0x10000
abbrev fETH_RING_w6_wr (p : Nat) : Fld := ⟨aETH_RING_w6 p, 0, 24⟩

/-- Address of ETH_RING.w7 (chapter 17, R400). -/
abbrev aETH_RING_w7 (p : Nat) : Nat := 0x1009003C + p * 0x10000
abbrev fETH_RING_w7_rd (p : Nat) : Fld := ⟨aETH_RING_w7 p, 0, 24⟩

/-- Address of ETH_PTP.w0 (chapter 17, R400). -/
abbrev aETH_PTP_w0 (p : Nat) : Nat := 0x10090040 + p * 0x10000
abbrev fETH_PTP_sec_lo (p : Nat) : Fld := ⟨aETH_PTP_w0 p, 0, 32⟩

/-- Address of ETH_PTP.w1 (chapter 17, R400). -/
abbrev aETH_PTP_w1 (p : Nat) : Nat := 0x10090044 + p * 0x10000
abbrev fETH_PTP_sec_hi (p : Nat) : Fld := ⟨aETH_PTP_w1 p, 0, 16⟩

/-- Address of ETH_PTP.w2 (chapter 17, R400). -/
abbrev aETH_PTP_w2 (p : Nat) : Nat := 0x10090048 + p * 0x10000
abbrev fETH_PTP_ns (p : Nat) : Fld := ⟨aETH_PTP_w2 p, 0, 30⟩

/-- Address of ETH_PTP.w3 (chapter 17, R400). -/
abbrev aETH_PTP_w3 (p : Nat) : Nat := 0x1009004C + p * 0x10000
abbrev fETH_PTP_rate_ppb (p : Nat) : Fld := ⟨aETH_PTP_w3 p, 0, 32⟩

/-- Address of ETH_PTP.w4 (chapter 17, R400). -/
abbrev aETH_PTP_w4 (p : Nat) : Nat := 0x10090050 + p * 0x10000

/-- Address of ETH_TXTS.w0 (chapter 17, R400). -/
abbrev aETH_TXTS_w0 (p : Nat) : Nat := 0x10090060 + p * 0x10000

/-- Address of ETH_TXTS.w1 (chapter 17, R400). -/
abbrev aETH_TXTS_w1 (p : Nat) : Nat := 0x10090064 + p * 0x10000

/-- Address of ETH_TXTS.w2 (chapter 17, R400). -/
abbrev aETH_TXTS_w2 (p : Nat) : Nat := 0x10090068 + p * 0x10000

/-- Address of ETH_MDIO (chapter 17, R400). -/
abbrev aETH_MDIO : Nat := 0x10090080
abbrev fETH_MDIO_go : Fld := ⟨aETH_MDIO, 31, 1⟩
abbrev fETH_MDIO_read : Fld := ⟨aETH_MDIO, 30, 1⟩
abbrev fETH_MDIO_data : Fld := ⟨aETH_MDIO, 0, 16⟩

/-- Address of ETH_COUNT.w0 (chapter 17, R400). -/
abbrev aETH_COUNT_w0 (p : Nat) : Nat := 0x10090100 + p * 0x10000
abbrev fETH_COUNT_rx_ok (p : Nat) : Fld := ⟨aETH_COUNT_w0 p, 16, 16⟩
abbrev fETH_COUNT_tx_ok (p : Nat) : Fld := ⟨aETH_COUNT_w0 p, 0, 16⟩

/-- Address of ETH_COUNT.w1 (chapter 17, R400). -/
abbrev aETH_COUNT_w1 (p : Nat) : Nat := 0x10090104 + p * 0x10000
abbrev fETH_COUNT_rx_err (p : Nat) : Fld := ⟨aETH_COUNT_w1 p, 16, 16⟩
abbrev fETH_COUNT_drop_addr (p : Nat) : Fld := ⟨aETH_COUNT_w1 p, 0, 16⟩

/-- Address of ETH_COUNT.w2 (chapter 17, R400). -/
abbrev aETH_COUNT_w2 (p : Nat) : Nat := 0x10090108 + p * 0x10000
abbrev fETH_COUNT_pause (p : Nat) : Fld := ⟨aETH_COUNT_w2 p, 24, 8⟩
abbrev fETH_COUNT_txts_lost (p : Nat) : Fld := ⟨aETH_COUNT_w2 p, 16, 8⟩
abbrev fETH_COUNT_drop_type (p : Nat) : Fld := ⟨aETH_COUNT_w2 p, 0, 16⟩

/-- Address of ETH_MGMT_CFG (chapter 17, R403). -/
abbrev aETH_MGMT_CFG : Nat := 0x10090800
abbrev fETH_MGMT_CFG_en : Fld := ⟨aETH_MGMT_CFG, 31, 1⟩
abbrev fETH_MGMT_CFG_ports : Fld := ⟨aETH_MGMT_CFG, 29, 2⟩
abbrev fETH_MGMT_CFG_key_slot : Fld := ⟨aETH_MGMT_CFG, 0, 4⟩

/-- Address of ETH_MGMT_BASE (chapter 17, R403). -/
abbrev aETH_MGMT_BASE : Nat := 0x10090804

/-- Address of ETH_MGMT_PEND (chapter 17, R403). -/
abbrev aETH_MGMT_PEND : Nat := 0x10090808

/-- Address of ETH_MGMT_DONE (chapter 17, R403). -/
abbrev aETH_MGMT_DONE : Nat := 0x1009080C

/-- Address of ETH_MGMT_COUNT.w0 (chapter 17, R403). -/
abbrev aETH_MGMT_COUNT_w0 : Nat := 0x10090810
abbrev fETH_MGMT_COUNT_accepted : Fld := ⟨aETH_MGMT_COUNT_w0, 16, 16⟩
abbrev fETH_MGMT_COUNT_auth_fail : Fld := ⟨aETH_MGMT_COUNT_w0, 0, 16⟩

/-- Address of ETH_MGMT_COUNT.w1 (chapter 17, R403). -/
abbrev aETH_MGMT_COUNT_w1 : Nat := 0x10090814
abbrev fETH_MGMT_COUNT_dup_resent : Fld := ⟨aETH_MGMT_COUNT_w1, 16, 16⟩
abbrev fETH_MGMT_COUNT_dup_pending : Fld := ⟨aETH_MGMT_COUNT_w1, 0, 16⟩

/-- Address of ETH_MGMT_COUNT.w2 (chapter 17, R403). -/
abbrev aETH_MGMT_COUNT_w2 : Nat := 0x10090818
abbrev fETH_MGMT_COUNT_busy : Fld := ⟨aETH_MGMT_COUNT_w2, 16, 16⟩
abbrev fETH_MGMT_COUNT_expired : Fld := ⟨aETH_MGMT_COUNT_w2, 0, 16⟩

/-- Address of PINMUX_SEL (chapter 17, R416). -/
abbrev aPINMUX_SEL (g : Nat) : Nat := 0x100B0000 + g * 0x4
abbrev fPINMUX_SEL_pull (g : Nat) : Fld := ⟨aPINMUX_SEL g, 6, 2⟩
abbrev fPINMUX_SEL_drive (g : Nat) : Fld := ⟨aPINMUX_SEL g, 4, 2⟩
abbrev fPINMUX_SEL_func (g : Nat) : Fld := ⟨aPINMUX_SEL g, 0, 3⟩

/-- Address of PINMUX_STATUS (chapter 17, R416). -/
abbrev aPINMUX_STATUS : Nat := 0x100B0080
abbrev fPINMUX_STATUS_refused : Fld := ⟨aPINMUX_STATUS, 31, 1⟩
abbrev fPINMUX_STATUS_conflict : Fld := ⟨aPINMUX_STATUS, 30, 1⟩
abbrev fPINMUX_STATUS_ball : Fld := ⟨aPINMUX_STATUS, 16, 5⟩
abbrev fPINMUX_STATUS_cause : Fld := ⟨aPINMUX_STATUS, 0, 3⟩

/-- Address of GPIO_OUT (chapter 17, R416). -/
abbrev aGPIO_OUT : Nat := 0x100B0084
abbrev fGPIO_OUT_out : Fld := ⟨aGPIO_OUT, 0, 32⟩

/-- Address of GPIO_OE (chapter 17, R416). -/
abbrev aGPIO_OE : Nat := 0x100B0088
abbrev fGPIO_OE_oe : Fld := ⟨aGPIO_OE, 0, 32⟩

/-- Address of GPIO_IN (chapter 17, R416). -/
abbrev aGPIO_IN : Nat := 0x100B008C

/-- Address of PINMUX_CINCH_OUT (chapter 17, R406). -/
abbrev aPINMUX_CINCH_OUT : Nat := 0x100B00A0
abbrev fPINMUX_CINCH_OUT_en : Fld := ⟨aPINMUX_CINCH_OUT, 31, 1⟩
abbrev fPINMUX_CINCH_OUT_offset_ns : Fld := ⟨aPINMUX_CINCH_OUT, 0, 16⟩

/-- Address of PINMUX_PPS (chapter 17, R406). -/
abbrev aPINMUX_PPS : Nat := 0x100B00A4
abbrev fPINMUX_PPS_en : Fld := ⟨aPINMUX_PPS, 31, 1⟩
abbrev fPINMUX_PPS_pps_port : Fld := ⟨aPINMUX_PPS, 30, 1⟩

/-- Address of PINMUX_CINCH_IN (chapter 17, R406). -/
abbrev aPINMUX_CINCH_IN : Nat := 0x100B00A8
abbrev fPINMUX_CINCH_IN_extra : Fld := ⟨aPINMUX_CINCH_IN, 16, 16⟩
abbrev fPINMUX_CINCH_IN_edges : Fld := ⟨aPINMUX_CINCH_IN, 0, 16⟩

/-- Address of UART_CFG (chapter 17, R416). -/
abbrev aUART_CFG (u : Nat) : Nat := 0x100B0400 + u * 0x20
abbrev fUART_CFG_en (u : Nat) : Fld := ⟨aUART_CFG u, 31, 1⟩

/-- Address of UART_DATA (chapter 17, R416). -/
abbrev aUART_DATA (u : Nat) : Nat := 0x100B0404 + u * 0x20

/-- Address of UART_STATUS (chapter 17, R416). -/
abbrev aUART_STATUS (u : Nat) : Nat := 0x100B0408 + u * 0x20
abbrev fUART_STATUS_overrun (u : Nat) : Fld := ⟨aUART_STATUS u, 16, 16⟩

/-- Address of SPI_CFG (chapter 17, R416). -/
abbrev aSPI_CFG : Nat := 0x100B0440
abbrev fSPI_CFG_en : Fld := ⟨aSPI_CFG, 31, 1⟩

/-- Address of SPI_DATA (chapter 17, R416). -/
abbrev aSPI_DATA : Nat := 0x100B0444
abbrev fSPI_DATA_busy : Fld := ⟨aSPI_DATA, 31, 1⟩
abbrev fSPI_DATA_byte : Fld := ⟨aSPI_DATA, 0, 8⟩

/-- Address of I2C_CFG (chapter 17, R416). -/
abbrev aI2C_CFG : Nat := 0x100B0460

/-- Address of I2C_CMD (chapter 17, R416). -/
abbrev aI2C_CMD : Nat := 0x100B0464
abbrev fI2C_CMD_busy : Fld := ⟨aI2C_CMD, 29, 1⟩
abbrev fI2C_CMD_nack : Fld := ⟨aI2C_CMD, 28, 1⟩
abbrev fI2C_CMD_byte : Fld := ⟨aI2C_CMD, 0, 8⟩

/-- Address of LATIGO_STATUS (chapter 01, R43). -/
abbrev aLATIGO_STATUS (link : Nat) : Nat := 0x100C0000 + link * 0x40
abbrev fLATIGO_STATUS_out_rx (link : Nat) : Fld := ⟨aLATIGO_STATUS link, 16, 7⟩
abbrev fLATIGO_STATUS_out_tx (link : Nat) : Fld := ⟨aLATIGO_STATUS link, 8, 7⟩
abbrev fLATIGO_STATUS_state (link : Nat) : Fld := ⟨aLATIGO_STATUS link, 0, 2⟩

/-- Address of LATIGO_TIMEOUT (chapter 01, R43). -/
abbrev aLATIGO_TIMEOUT (link : Nat) : Nat := 0x100C0004 + link * 0x40

/-- Address of LATIGO_ERRCNT (chapter 01, R43). -/
abbrev aLATIGO_ERRCNT (link : Nat) : Nat := 0x100C0008 + link * 0x40
abbrev fLATIGO_ERRCNT_crc_err (link : Nat) : Fld := ⟨aLATIGO_ERRCNT link, 16, 16⟩
abbrev fLATIGO_ERRCNT_resend_exh (link : Nat) : Fld := ⟨aLATIGO_ERRCNT link, 8, 8⟩
abbrev fLATIGO_ERRCNT_timeout_cnt (link : Nat) : Fld := ⟨aLATIGO_ERRCNT link, 0, 8⟩

/-- Address of RADIO_PATH_CTRL (chapter 03, R85). -/
abbrev aRADIO_PATH_CTRL (p : Nat) : Nat := 0x10100000 + p * 0x20
abbrev fRADIO_PATH_CTRL_byp_step (p : Nat) : Fld := ⟨aRADIO_PATH_CTRL p, 8, 8⟩
abbrev fRADIO_PATH_CTRL_lna_byp (p : Nat) : Fld := ⟨aRADIO_PATH_CTRL p, 4, 1⟩
abbrev fRADIO_PATH_CTRL_rate (p : Nat) : Fld := ⟨aRADIO_PATH_CTRL p, 3, 1⟩
abbrev fRADIO_PATH_CTRL_state_req (p : Nat) : Fld := ⟨aRADIO_PATH_CTRL p, 0, 2⟩

/-- Address of RADIO_PATH_STATUS (chapter 03, R85). -/
abbrev aRADIO_PATH_STATUS (p : Nat) : Nat := 0x10100004 + p * 0x20
abbrev fRADIO_PATH_STATUS_ovld_cnt (p : Nat) : Fld := ⟨aRADIO_PATH_STATUS p, 16, 16⟩
abbrev fRADIO_PATH_STATUS_span_err (p : Nat) : Fld := ⟨aRADIO_PATH_STATUS p, 7, 1⟩
abbrev fRADIO_PATH_STATUS_pll_loss (p : Nat) : Fld := ⟨aRADIO_PATH_STATUS p, 6, 1⟩
abbrev fRADIO_PATH_STATUS_cal_done (p : Nat) : Fld := ⟨aRADIO_PATH_STATUS p, 2, 1⟩
abbrev fRADIO_PATH_STATUS_state (p : Nat) : Fld := ⟨aRADIO_PATH_STATUS p, 0, 2⟩

/-- Address of RADIO_PATH_FE (chapter 04, R125). -/
abbrev aRADIO_PATH_FE (p : Nat) : Nat := 0x10100008 + p * 0x20
abbrev fRADIO_PATH_FE_fe_delay_ns (p : Nat) : Fld := ⟨aRADIO_PATH_FE p, 16, 10⟩
abbrev fRADIO_PATH_FE_fe_gain (p : Nat) : Fld := ⟨aRADIO_PATH_FE p, 0, 10⟩

/-- Address of RADIO_TUNER_CFG (chapter 03, R87). -/
abbrev aRADIO_TUNER_CFG (t : Nat) : Nat := 0x10100100 + t * 0x10
abbrev fRADIO_TUNER_CFG_en (t : Nat) : Fld := ⟨aRADIO_TUNER_CFG t, 31, 1⟩
abbrev fRADIO_TUNER_CFG_span (t : Nat) : Fld := ⟨aRADIO_TUNER_CFG t, 22, 3⟩
abbrev fRADIO_TUNER_CFG_centre_khz (t : Nat) : Fld := ⟨aRADIO_TUNER_CFG t, 0, 22⟩

/-- Address of RADIO_TX_CTRL (chapter 03, R102). -/
abbrev aRADIO_TX_CTRL (c : Nat) : Nat := 0x10100400 + c * 0x80
abbrev fRADIO_TX_CTRL_tx_pa_mode (c : Nat) : Fld := ⟨aRADIO_TX_CTRL c, 3, 1⟩
abbrev fRADIO_TX_CTRL_auto_wake (c : Nat) : Fld := ⟨aRADIO_TX_CTRL c, 2, 1⟩
abbrev fRADIO_TX_CTRL_state_req (c : Nat) : Fld := ⟨aRADIO_TX_CTRL c, 0, 2⟩

/-- Address of RADIO_TX_STATUS (chapter 03, R102). -/
abbrev aRADIO_TX_STATUS (c : Nat) : Nat := 0x10100404 + c * 0x80
abbrev fRADIO_TX_STATUS_pa_gain_fault (c : Nat) : Fld := ⟨aRADIO_TX_STATUS c, 7, 1⟩
abbrev fRADIO_TX_STATUS_locked (c : Nat) : Fld := ⟨aRADIO_TX_STATUS c, 3, 1⟩
abbrev fRADIO_TX_STATUS_state (c : Nat) : Fld := ⟨aRADIO_TX_STATUS c, 0, 3⟩

/-- Address of RADIO_TX_FE (chapter 03, R102). -/
abbrev aRADIO_TX_FE (c : Nat) : Nat := 0x10100408 + c * 0x80
abbrev fRADIO_TX_FE_ramp_us (c : Nat) : Fld := ⟨aRADIO_TX_FE c, 8, 7⟩
abbrev fRADIO_TX_FE_lead_us (c : Nat) : Fld := ⟨aRADIO_TX_FE c, 0, 6⟩

/-- Address of RADIO_TX_CAL (chapter 03, R102). -/
abbrev aRADIO_TX_CAL (c : Nat) : Nat := 0x1010040C + c * 0x80
abbrev fRADIO_TX_CAL_busy (c : Nat) : Fld := ⟨aRADIO_TX_CAL c, 29, 1⟩
abbrev fRADIO_TX_CAL_lo_khz (c : Nat) : Fld := ⟨aRADIO_TX_CAL c, 0, 22⟩

/-- Address of RADIO_TX_COUNT (chapter 03, R102). -/
abbrev aRADIO_TX_COUNT (c : Nat) : Nat := 0x10100410 + c * 0x80
abbrev fRADIO_TX_COUNT_late_lock (c : Nat) : Fld := ⟨aRADIO_TX_COUNT c, 16, 16⟩
abbrev fRADIO_TX_COUNT_clamped (c : Nat) : Fld := ⟨aRADIO_TX_COUNT c, 0, 16⟩

/-- Address of RADIO_LBT_COUNT (chapter 06, R185). -/
abbrev aRADIO_LBT_COUNT (c : Nat) : Nat := 0x10100414 + c * 0x80
abbrev fRADIO_LBT_COUNT_cca_busy (c : Nat) : Fld := ⟨aRADIO_LBT_COUNT c, 16, 16⟩
abbrev fRADIO_LBT_COUNT_cca_fail (c : Nat) : Fld := ⟨aRADIO_LBT_COUNT c, 8, 8⟩
abbrev fRADIO_LBT_COUNT_no_probe (c : Nat) : Fld := ⟨aRADIO_LBT_COUNT c, 0, 8⟩

/-- Address of RADIO_TX_SUBMIT (chapter 03, R96). -/
abbrev aRADIO_TX_SUBMIT (c : Nat) (w : Nat) : Nat := 0x10100420 + c * 0x80 + w * 0x4

/-- Address of RADIO_TX_RESULT (chapter 03, R102). -/
abbrev aRADIO_TX_RESULT (c : Nat) : Nat := 0x10100440 + c * 0x80
abbrev fRADIO_TX_RESULT_tag (c : Nat) : Fld := ⟨aRADIO_TX_RESULT c, 16, 16⟩
abbrev fRADIO_TX_RESULT_accepted (c : Nat) : Fld := ⟨aRADIO_TX_RESULT c, 4, 1⟩
abbrev fRADIO_TX_RESULT_status (c : Nat) : Fld := ⟨aRADIO_TX_RESULT c, 0, 4⟩

/-- Address of RADIO_REG_PROFILE (chapter 03, R105). -/
abbrev aRADIO_REG_PROFILE : Nat := 0x10100900

/-- Address of RADIO_OLDTREE (chapter 18, R417). -/
abbrev aRADIO_OLDTREE : Nat := 0x10100904

/-- Address of DUTY_CFG (chapter 06, R185). -/
abbrev aDUTY_CFG (n : Nat) : Nat := 0x10100A00 + n * 0x10
abbrev fDUTY_CFG_urg_res_pm (n : Nat) : Fld := ⟨aDUTY_CFG n, 0, 10⟩

/-- Address of DUTY_REFUSED (chapter 06, R185). -/
abbrev aDUTY_REFUSED (n : Nat) : Nat := 0x10100A0C + n * 0x10
abbrev fDUTY_REFUSED_no_duty (n : Nat) : Fld := ⟨aDUTY_REFUSED n, 16, 16⟩
abbrev fDUTY_REFUSED_urg_exhaust (n : Nat) : Fld := ⟨aDUTY_REFUSED n, 0, 16⟩

/-- Address of DUTY_SHARE (chapter 06, R185). -/
abbrev aDUTY_SHARE (n : Nat) (t : Nat) : Nat := 0x10100C00 + n * 0x40 + t * 0x4
abbrev fDUTY_SHARE_ceil_pm (n : Nat) (t : Nat) : Fld := ⟨aDUTY_SHARE n t, 16, 10⟩
abbrev fDUTY_SHARE_guar_pm (n : Nat) (t : Nat) : Fld := ⟨aDUTY_SHARE n t, 0, 10⟩

/-- Address of RADIO_SPEC_CTRL (chapter 04, R125). -/
abbrev aRADIO_SPEC_CTRL : Nat := 0x10130000
abbrev fRADIO_SPEC_CTRL_busy : Fld := ⟨aRADIO_SPEC_CTRL, 30, 1⟩
abbrev fRADIO_SPEC_CTRL_done : Fld := ⟨aRADIO_SPEC_CTRL, 29, 1⟩
abbrev fRADIO_SPEC_CTRL_abort : Fld := ⟨aRADIO_SPEC_CTRL, 28, 1⟩
abbrev fRADIO_SPEC_CTRL_avg : Fld := ⟨aRADIO_SPEC_CTRL, 4, 4⟩
abbrev fRADIO_SPEC_CTRL_tuner : Fld := ⟨aRADIO_SPEC_CTRL, 0, 4⟩

/-- Address of RADIO_SPEC_DATA (chapter 04, R123). -/
abbrev aRADIO_SPEC_DATA (k : Nat) : Nat := 0x10131000 + k * 0x4

/-- Address of RADIO_RX_CFG (chapter 04, R125). -/
abbrev aRADIO_RX_CFG (n : Nat) : Nat := 0x10140000 + n * 0x100
abbrev fRADIO_RX_CFG_en (n : Nat) : Fld := ⟨aRADIO_RX_CFG n, 31, 1⟩
abbrev fRADIO_RX_CFG_branch_sel (n : Nat) : Fld := ⟨aRADIO_RX_CFG n, 28, 2⟩
abbrev fRADIO_RX_CFG_mode (n : Nat) : Fld := ⟨aRADIO_RX_CFG n, 24, 4⟩
abbrev fRADIO_RX_CFG_width (n : Nat) : Fld := ⟨aRADIO_RX_CFG n, 20, 4⟩
abbrev fRADIO_RX_CFG_tenant (n : Nat) : Fld := ⟨aRADIO_RX_CFG n, 16, 4⟩
abbrev fRADIO_RX_CFG_home (n : Nat) : Fld := ⟨aRADIO_RX_CFG n, 14, 2⟩

/-- Address of RADIO_RX_FREQ (chapter 04, R125). -/
abbrev aRADIO_RX_FREQ (n : Nat) : Nat := 0x10140004 + n * 0x100
abbrev fRADIO_RX_FREQ_freq_hz (n : Nat) : Fld := ⟨aRADIO_RX_FREQ n, 0, 32⟩

/-- Address of RADIO_RX_DECIM (chapter 04, R125). -/
abbrev aRADIO_RX_DECIM (n : Nat) : Nat := 0x10140008 + n * 0x100
abbrev fRADIO_RX_DECIM_d1 (n : Nat) : Fld := ⟨aRADIO_RX_DECIM n, 8, 4⟩
abbrev fRADIO_RX_DECIM_d2 (n : Nat) : Fld := ⟨aRADIO_RX_DECIM n, 4, 4⟩
abbrev fRADIO_RX_DECIM_d3 (n : Nat) : Fld := ⟨aRADIO_RX_DECIM n, 0, 4⟩

/-- Address of RADIO_RX_STATUS (chapter 04, R125). -/
abbrev aRADIO_RX_STATUS (n : Nat) : Nat := 0x1014000C + n * 0x100
abbrev fRADIO_RX_STATUS_cfg_err (n : Nat) : Fld := ⟨aRADIO_RX_STATUS n, 15, 1⟩
abbrev fRADIO_RX_STATUS_plan_off (n : Nat) : Fld := ⟨aRADIO_RX_STATUS n, 14, 1⟩
abbrev fRADIO_RX_STATUS_no_source (n : Nat) : Fld := ⟨aRADIO_RX_STATUS n, 13, 1⟩
abbrev fRADIO_RX_STATUS_blank_b (n : Nat) : Fld := ⟨aRADIO_RX_STATUS n, 12, 1⟩
abbrev fRADIO_RX_STATUS_blank_a (n : Nat) : Fld := ⟨aRADIO_RX_STATUS n, 11, 1⟩
abbrev fRADIO_RX_STATUS_tuner_b (n : Nat) : Fld := ⟨aRADIO_RX_STATUS n, 8, 3⟩
abbrev fRADIO_RX_STATUS_bound_b (n : Nat) : Fld := ⟨aRADIO_RX_STATUS n, 7, 1⟩
abbrev fRADIO_RX_STATUS_tuner_a (n : Nat) : Fld := ⟨aRADIO_RX_STATUS n, 4, 3⟩
abbrev fRADIO_RX_STATUS_bound_a (n : Nat) : Fld := ⟨aRADIO_RX_STATUS n, 3, 1⟩
abbrev fRADIO_RX_STATUS_state (n : Nat) : Fld := ⟨aRADIO_RX_STATUS n, 0, 3⟩

/-- Address of RADIO_RX_SYNC (chapter 04, R125). -/
abbrev aRADIO_RX_SYNC (n : Nat) (w : Nat) : Nat := 0x10140018 + n * 0x100 + w * 0x4

/-- Address of RADIO_RX_DET_CFG (chapter 04, R125). -/
abbrev aRADIO_RX_DET_CFG (n : Nat) : Nat := 0x10140030 + n * 0x100
abbrev fRADIO_RX_DET_CFG_win_us (n : Nat) : Fld := ⟨aRADIO_RX_DET_CFG n, 18, 14⟩
abbrev fRADIO_RX_DET_CFG_decay_us (n : Nat) : Fld := ⟨aRADIO_RX_DET_CFG n, 9, 9⟩
abbrev fRADIO_RX_DET_CFG_attack_us (n : Nat) : Fld := ⟨aRADIO_RX_DET_CFG n, 0, 9⟩

/-- Address of RADIO_RX_DET_A (chapter 04, R125). -/
abbrev aRADIO_RX_DET_A (n : Nat) : Nat := 0x10140034 + n * 0x100

/-- Address of RADIO_RX_DET_B (chapter 04, R125). -/
abbrev aRADIO_RX_DET_B (n : Nat) : Nat := 0x10140038 + n * 0x100

/-- Address of RADIO_RX_ENV (chapter 04, R125). -/
abbrev aRADIO_RX_ENV (n : Nat) : Nat := 0x1014003C + n * 0x100
abbrev fRADIO_RX_ENV_env_a (n : Nat) : Fld := ⟨aRADIO_RX_ENV n, 16, 16⟩
abbrev fRADIO_RX_ENV_env_b (n : Nat) : Fld := ⟨aRADIO_RX_ENV n, 0, 16⟩

/-- Address of RADIO_RX_COUNT (chapter 04, R125). -/
abbrev aRADIO_RX_COUNT (n : Nat) : Nat := 0x10140040 + n * 0x100
abbrev fRADIO_RX_COUNT_syncs (n : Nat) : Fld := ⟨aRADIO_RX_COUNT n, 16, 16⟩
abbrev fRADIO_RX_COUNT_aborts (n : Nat) : Fld := ⟨aRADIO_RX_COUNT n, 8, 8⟩
abbrev fRADIO_RX_COUNT_switches (n : Nat) : Fld := ⟨aRADIO_RX_COUNT n, 0, 8⟩

/-- Address of DECODER_CAP (chapter 05, R153). -/
abbrev aDECODER_CAP : Nat := 0x10200000
abbrev fDECODER_CAP_urg_cap : Fld := ⟨aDECODER_CAP, 8, 6⟩
abbrev fDECODER_CAP_norm_cap : Fld := ⟨aDECODER_CAP, 0, 6⟩

/-- Address of DECODER_RESERVE (chapter 05, R153). -/
abbrev aDECODER_RESERVE : Nat := 0x10200004
abbrev fDECODER_RESERVE_res : Fld := ⟨aDECODER_RESERVE, 0, 16⟩

/-- Address of DECODER_CORE_STATUS (chapter 05, R153). -/
abbrev aDECODER_CORE_STATUS (c : Nat) : Nat := 0x10200010 + c * 0x4
abbrev fDECODER_CORE_STATUS_preempt (c : Nat) : Fld := ⟨aDECODER_CORE_STATUS c, 0, 16⟩

/-- Address of DECODER_TQ (chapter 05, R153). -/
abbrev aDECODER_TQ (r : Nat) (t : Nat) : Nat := 0x10200100 + r * 0x40 + t * 0x4
abbrev fDECODER_TQ_deliver_bad (r : Nat) (t : Nat) : Fld := ⟨aDECODER_TQ r t, 31, 1⟩
abbrev fDECODER_TQ_prio (r : Nat) (t : Nat) : Fld := ⟨aDECODER_TQ r t, 24, 3⟩
abbrev fDECODER_TQ_urg_max (r : Nat) (t : Nat) : Fld := ⟨aDECODER_TQ r t, 16, 5⟩
abbrev fDECODER_TQ_ceil (r : Nat) (t : Nat) : Fld := ⟨aDECODER_TQ r t, 8, 5⟩
abbrev fDECODER_TQ_guar (r : Nat) (t : Nat) : Fld := ⟨aDECODER_TQ r t, 0, 5⟩

/-- Address of DECODER_RING_BASE (chapter 05, R153). -/
abbrev aDECODER_RING_BASE (r : Nat) (t : Nat) : Nat := 0x10201000 + r * 0x400 + t * 0x40
abbrev fDECODER_RING_BASE_base (r : Nat) (t : Nat) : Fld := ⟨aDECODER_RING_BASE r t, 0, 32⟩

/-- Address of DECODER_RING_CFG (chapter 05, R153). -/
abbrev aDECODER_RING_CFG (r : Nat) (t : Nat) : Nat := 0x10201004 + r * 0x400 + t * 0x40
abbrev fDECODER_RING_CFG_valid (r : Nat) (t : Nat) : Fld := ⟨aDECODER_RING_CFG r t, 31, 1⟩
abbrev fDECODER_RING_CFG_target (r : Nat) (t : Nat) : Fld := ⟨aDECODER_RING_CFG r t, 8, 7⟩
abbrev fDECODER_RING_CFG_s (r : Nat) (t : Nat) : Fld := ⟨aDECODER_RING_CFG r t, 0, 4⟩

/-- Address of DECODER_RING_WR (chapter 05, R153). -/
abbrev aDECODER_RING_WR (r : Nat) (t : Nat) : Nat := 0x10201008 + r * 0x400 + t * 0x40
abbrev fDECODER_RING_WR_count (r : Nat) (t : Nat) : Fld := ⟨aDECODER_RING_WR r t, 0, 24⟩

/-- Address of DECODER_RING_RD (chapter 05, R153). -/
abbrev aDECODER_RING_RD (r : Nat) (t : Nat) : Nat := 0x1020100C + r * 0x400 + t * 0x40
abbrev fDECODER_RING_RD_count (r : Nat) (t : Nat) : Fld := ⟨aDECODER_RING_RD r t, 0, 24⟩

/-- Address of DECODER_OVR (chapter 05, R153). -/
abbrev aDECODER_OVR (n : Nat) : Nat := 0x10204000 + n * 0x4
abbrev fDECODER_OVR_dec_overrun (n : Nat) : Fld := ⟨aDECODER_OVR n, 0, 16⟩

/-- Address of DECODER_TQ_STATUS (chapter 05, R153). -/
abbrev aDECODER_TQ_STATUS (t : Nat) (r : Nat) : Nat := 0x10208000 + t * 0x100 + r * 0x4
abbrev fDECODER_TQ_STATUS_rd_err (t : Nat) (r : Nat) : Fld := ⟨aDECODER_TQ_STATUS t r, 31, 1⟩
abbrev fDECODER_TQ_STATUS_held (t : Nat) (r : Nat) : Fld := ⟨aDECODER_TQ_STATUS t r, 0, 16⟩

/-- Address of DECODER_FCOUNT.w0 (chapter 05, R153). -/
abbrev aDECODER_FCOUNT_w0 (t : Nat) (r : Nat) : Nat := 0x10208010 + t * 0x100 + r * 0x10
abbrev fDECODER_FCOUNT_ok (t : Nat) (r : Nat) : Fld := ⟨aDECODER_FCOUNT_w0 t r, 0, 32⟩

/-- Address of DECODER_FCOUNT.w1 (chapter 05, R153). -/
abbrev aDECODER_FCOUNT_w1 (t : Nat) (r : Nat) : Nat := 0x10208014 + t * 0x100 + r * 0x10
abbrev fDECODER_FCOUNT_crc_fail (t : Nat) (r : Nat) : Fld := ⟨aDECODER_FCOUNT_w1 t r, 16, 16⟩
abbrev fDECODER_FCOUNT_hdr_fail (t : Nat) (r : Nat) : Fld := ⟨aDECODER_FCOUNT_w1 t r, 0, 16⟩

/-- Address of DECODER_FCOUNT.w2 (chapter 05, R153). -/
abbrev aDECODER_FCOUNT_w2 (t : Nat) (r : Nat) : Nat := 0x10208018 + t * 0x100 + r * 0x10
abbrev fDECODER_FCOUNT_ring_full (t : Nat) (r : Nat) : Fld := ⟨aDECODER_FCOUNT_w2 t r, 16, 16⟩
abbrev fDECODER_FCOUNT_overrun (t : Nat) (r : Nat) : Fld := ⟨aDECODER_FCOUNT_w2 t r, 0, 16⟩

/-- Address of DECODER_FCOUNT.w3 (chapter 05, R153). -/
abbrev aDECODER_FCOUNT_w3 (t : Nat) (r : Nat) : Nat := 0x1020801C + t * 0x100 + r * 0x10
abbrev fDECODER_FCOUNT_urg_demoted (t : Nat) (r : Nat) : Fld := ⟨aDECODER_FCOUNT_w3 t r, 16, 16⟩
abbrev fDECODER_FCOUNT_cw_cap (t : Nat) (r : Nat) : Fld := ⟨aDECODER_FCOUNT_w3 t r, 0, 16⟩

/-- Address of ENGCTL_CL (chapter 10, R271). -/
abbrev aENGCTL_CL (c : Nat) : Nat := 0x10300000 + c * 0x100
abbrev fENGCTL_CL_tenant (c : Nat) : Fld := ⟨aENGCTL_CL c, 28, 4⟩
abbrev fENGCTL_CL_owned (c : Nat) : Fld := ⟨aENGCTL_CL c, 27, 1⟩
abbrev fENGCTL_CL_freq (c : Nat) : Fld := ⟨aENGCTL_CL c, 24, 3⟩
abbrev fENGCTL_CL_halt_us (c : Nat) : Fld := ⟨aENGCTL_CL c, 0, 20⟩

/-- Address of ENGCTL_CL_COUNT (chapter 10, R271). -/
abbrev aENGCTL_CL_COUNT (c : Nat) : Nat := 0x10300004 + c * 0x100
abbrev fENGCTL_CL_COUNT_expiries (c : Nat) : Fld := ⟨aENGCTL_CL_COUNT c, 16, 16⟩
abbrev fENGCTL_CL_COUNT_bad_svc (c : Nat) : Fld := ⟨aENGCTL_CL_COUNT c, 0, 16⟩

/-- Address of ENGCTL_TPRIO (chapter 10, R272). -/
abbrev aENGCTL_TPRIO (t : Nat) : Nat := 0x1030F000 + t * 0x4
abbrev fENGCTL_TPRIO_max_prio (t : Nat) : Fld := ⟨aENGCTL_TPRIO t, 0, 3⟩

end Sys2Proof.Machine
end

