-- ==== Sys2Proof/Machine/State.lean ====
section
/-!
DEFINITION. The state of the block as plain data: every register, memory, queue, counter, mode and ball that the spec
gives the part, in records by unit, and the queue of commands that wait. INVENTORY.md lists every piece with its rule.
Registers of the system register map live in `State.regs` by address; the records hold what no register shows.
-/

namespace Sys2Proof.Machine

/-- Reasons a run stops. No command of this block raises one: every command has an effect (log entry 1). The one
constructor exists because the interface asks for a type; nothing raises it. Safe. -/
inductive Fault where
  | unreachable
  deriving DecidableEq, Repr

/-- Reasons a command has no meaning. -/
inductive Refusal where
  /-- The arm of Dispatch.lean has no meaning yet; raised by `exec` alone. Safe. -/
  | notModelled (mnemonic : String)
  deriving DecidableEq, Repr

/-! ## Engines, task slots, notices (chapters 9 and 10) -/

/-- The states of a task slot (R258). -/
inductive SlotSt where
  | idle | waiting | ready | running
  deriving DecidableEq, Repr

/-- The reasons that Table 10-2 reports at dispatch. -/
structure Reasons where
  start : Bool := false
  yielded : Bool := false
  signal : Bool := false
  notice : Bool := false
  cinch : Bool := false
  deriving DecidableEq, Repr

/-- One task slot of an engine (R257–R262): its bank, its state and its armed Cinch compare (frame, ns) of R247. -/
structure Slot where
  st : SlotSt := .idle
  en : Bool := false
  prio : Nat := 0
  entry : Nat := 0
  pc : Word := 0#32
  xs : Tab Word := []
  p47 : BitVec 4 := 0#4
  age : Nat := 0
  pend : Bool := false
  why : Reasons := {}
  readyLost : Bool := false
  cancelDue : Bool := false
  offDue : Bool := false
  armed : Option (Nat × Nat) := none
  deriving DecidableEq, Repr

/-- A notice of four words (Table 10-5). -/
structure Notice where
  w0 : Word := 0#32
  w1 : Word := 0#32
  w2 : Word := 0#32
  w3 : Word := 0#32
  deriving DecidableEq, Repr

/-- Whether a core runs (ENGCTL_ENG run): running, idle, stopped by a fault, stopped by the supervisor or the debugger,
or not released (unowned, not started, or before step 12). -/
inductive RunSt where
  | running | idle | faulted | stopped | gated
  deriving DecidableEq, Repr

/-- An update the multiplier has been issued and has not applied (R241, R242). -/
inductive MulOp where
  | mul (a b : Word)
  | mulu (a b : Word)
  | mac (a b : Word)
  | setLo (a : Word)
  | setHi (a : Word)
  deriving DecidableEq, Repr

/-- What an outstanding access delivers when it completes (R234): nothing (a posted store or request), a word to a
register of the bank of a slot, the same of an IN or OUT, which completes before the next instruction issues, a register pair, what a read of the flash window that missed the line buffer will bring (R363), or nothing until the MSG
with this number is in its queue (R267). -/
inductive OutKind where
  | posted
  | load (slot rd : Nat) (v : Word)
  | io (slot rd : Nat) (v : Word)
  | loadPair (slot rd : Nat) (lo hi : Word)
  | window (slot rd off size : Nat) (sgn : Bool)
  | msg (id : Nat)
  deriving DecidableEq, Repr

/-- One outstanding access of a core: its target (for the order of R36), the Latigo transaction it holds, its effect. -/
structure OutAcc where
  target : Nat
  txn : Option (Nat × Nat)
  kind : OutKind
  deriving DecidableEq, Repr

/-- The last fault of a core (R252). -/
structure FaultRec where
  count : Nat := 0
  cause : Nat := 0
  pc : Nat := 0
  addr : Word := 0#32
  deriving DecidableEq, Repr

/-- The inbound queue of a core, its views and its routes (R263–R268). -/
structure Inbound where
  queue : List Notice := []
  view : Notice := {}
  lost : Nat := 0
  lastLost : Nat := 0
  route0 : Word := 0#32
  route1 : Word := 0#32
  send1 : Word := 0#32
  send2 : Word := 0#32
  send3 : Word := 0#32
  deriving DecidableEq, Repr

/-- The flip mask of R356: 64 data bits, 8 check bits, armed. -/
structure FlipMask where
  lo : Word := 0#32
  hi : Word := 0#32
  check : BitVec 8 := 0#8
  armed : Bool := false
  deriving DecidableEq, Repr

/-- ENGCTL's I-SRAM window of one engine (R272). -/
structure IWin where
  addr : Nat := 0
  err : Bool := false
  staged : Word := 0#32
  latched : Word := 0#32
  deriving DecidableEq, Repr

/-- One Finhit core: a link engine or the supervisor (R225, R255). `hold`: its cluster is stopped by the energy plan or
by SLEEP (R333, R343); `mulq`: updates the multiplier has taken, each with the cycles left until it applies it (R242);
`dport`: cycles for which a narrow store still keeps the local memory port (R235); `wait`, `waitTxn`: the coprocessor answer
it waits for and the Latigo transaction that brings it; `dbgStop`: the debugger holds it, `stepOne`: and lets it do one instruction (R412). -/
structure Engine where
  run : RunSt := .gated
  xs : Tab Word := []
  p13 : BitVec 3 := 0#3
  mac : BitVec 64 := 0#64
  mulq : List (MulOp × Nat) := []
  dport : Nat := 0
  cychi : Word := 0#32
  crc : Word := 0#32
  pn : BitVec 9 := 0#9
  cur : Nat := 0
  slots : Tab Slot := []
  nq : Inbound := {}
  outs : List OutAcc := []
  wait : Option (Nat × Word) := none
  waitTxn : Option (Nat × Nat) := none
  nowFrame : Word := 0#32
  flip : FlipMask := {}
  win : IWin := {}
  hold : Bool := false
  stepOne : Bool := false
  dbgStop : Bool := false
  deriving DecidableEq, Repr

/-- A notice on its way to a core's queue: the core's number (128: the supervisor), the notice, the number of the MSG
it is and the core that sent it, if it is one (R264, R267). -/
structure Flight where
  target : Nat
  notice : Notice
  msg : Option (Nat × Nat) := none
  deriving DecidableEq, Repr

/-- A priority change on its way to the arbiters (R274): of a slot of a core, of a tenant's cap, or of a tenant in the
decoder arbiter of a region. -/
inductive PrioChange where
  | slot (core slot prio : Nat)
  | cap (tenant prio : Nat)
  | decoder (region tenant prio : Nat)
  deriving DecidableEq, Repr

/-- One cluster, or the supervisor (number 16): its halter (R269, R270), whether it runs and since which monotonic count,
and the half cycles of its island counted up to an instant (CYCLO, R226). -/
structure Cluster where
  released : Bool := false
  halter : Nat := 0
  halterOn : Bool := false
  haltAt : Nat := 0
  cyc2 : Nat := 0
  cycAt : Nat := 0
  deriving DecidableEq, Repr

/-! ## Time, log, memory upkeep -/

/-- One entry of the operator-log buffer and how many of its three writes are done (R77). -/
structure LogItem where
  code : Nat
  tenant : Nat
  engine : Nat
  seq : Nat
  frame : Nat
  rtc : Nat
  d0 : Nat
  d1 : Nat
  d2 : Nat
  d3 : Nat
  step : Nat := 0
  deriving DecidableEq, Repr

/-- The operator-log writer (R77), and how many FENCE entries per tenant (R284) and ECC entries per memory (R351) were
written in this Cinch frame. -/
structure LogSt where
  buf : List LogItem := []
  fenceCount : Tab Nat := []
  eccCount : Tab Nat := []
  deriving DecidableEq, Repr

/-- Check bits and upkeep of memory: error patterns by word key (R349), corrected words that wait for their write-back
(R350), granule clears that run (R355: first key, end key), the Burnisher's next group (R357). -/
structure UpkeepSt where
  flips : Tab (BitVec 72) := []
  wback : List Nat := []
  clearing : Option (Nat × Nat) := none
  burnGroup : Nat := 0
  deriving DecidableEq, Repr

/-! ## Fuses -/

/-- The one-time fuses: device secret of the seal key (R296), image KEK (R298), key hash (R60), debug public key and
device UID (R411), profile and PA gains (R103, R105), old-tree fuses (R417), sub-band words (R103). -/
structure FuseSt where
  secret : Nat := 0
  imageKek : Nat := 0
  keyHash : Nat := 0
  debugKey : Nat := 0
  uid : Nat := 0
  profile : Nat := 0
  paGainL : Nat := 0
  paGainH : Nat := 0
  oldTree : Word := 0#32
  subband : Tab Word := []
  deriving DecidableEq, Repr

/-! ## Radio paths and receivers (chapters 3 and 4) -/

/-- What a sync record holds (Table 4-6), words 0–4, and how many steps and SETs Cinch had applied at its stamp
(R198). -/
structure SyncRec where
  w0 : Word := 0#32
  w1 : Word := 0#32
  w2 : Word := 0#32
  w3 : Word := 0#32
  w4 : Word := 0#32
  era : Nat := 0
  deriving DecidableEq, Repr

/-- The transition of an RX path that runs (Table 3-2). -/
inductive PathMove where
  | rest | toStandby | toReceive
  deriving DecidableEq, Repr

/-- An RX path: its transition, the latest request kept, its LNA balls, whether the energy plan or a package
power state holds it in SLEEP, and the rate that it takes once path A is back in RECEIVE (R83, R85, R332, R334). -/
structure PathSt where
  move : PathMove := .rest
  want : Nat := 0
  lnaEn : Bool := false
  lnaByp : Bool := false
  off : Bool := false
  cycling : Option Nat := none
  deriving DecidableEq, Repr

/-- A channel receiver beyond its registers: branches that still fill after binding (R111) or still recover from blanking
(R118), the branch whose fill ends FILL (Table 4-7), the channelizer bin and the fine NCO word of each branch (R106, R107),
and of the frame in reception the record, the branch used, the flags of the end report and the tenant and home it had at
its sync (R119, R125). -/
structure RxSt where
  fillA : Bool := false
  fillB : Bool := false
  recovA : Bool := false
  recovB : Bool := false
  timerB : Bool := false
  binA : Int := 0
  binB : Int := 0
  ncoA : BitVec 24 := 0#24
  ncoB : BitVec 24 := 0#24
  sync : SyncRec := {}
  onB : Bool := false
  switched : Bool := false
  gain : Bool := false
  tenant : Nat := 0
  home : Nat := 0
  heard : Bool := false
  deriving DecidableEq, Repr

/-- What a receiver sends to the ingress of its home region, in order: a sync record, or the end of a frame with its
reason of Table 5-11. -/
inductive RxReport where
  | sync (n : Nat) (r : SyncRec) (tenant home mode : Nat)
  | ended (n reason : Nat) (switched gain : Bool)
  deriving DecidableEq, Repr

/-! ## Transmit chains (chapter 3, 6, 18) -/

/-- What the relay unit sends: a flood relay, an ACK or re-ACK, a backbone frame or an Ixtiern REIN_TX frame. -/
inductive RelayKind where
  | relay | ack | backbone | reinTx
  deriving DecidableEq, Repr

/-- A command of the relay unit: its kind, the seen entry it serves, its relay buffer, the frame's end at the aerial, the
steps and SETs applied at its stamp (R198), the latency that R438 allows, and whether R177 cancelled it. -/
structure RelayTx where
  kind : RelayKind
  seen : Nat := 0
  buf : Option Nat := none
  endF : Nat := 0
  endNs : Nat := 0
  era : Nat := 0
  limit : Nat := 0
  cut : Bool := false
  deriving DecidableEq, Repr

/-- Who submitted a transmit command (R96). -/
inductive TxWho where
  | engine (n : Nat)
  | sup
  | relay (r : RelayTx)
  | beacon
  deriving DecidableEq, Repr

/-- The node check of a command (R338). -/
inductive NodeCheck where
  | none | asked | charged (acct uj day mj : Nat) | denied
  deriving DecidableEq, Repr

/-- A transmit command (Table 3-6): as submitted, with the power clamped (R104), and what it was charged. `inl` is the
PSDU less its check of a hardware submitter; others are read from the buffer. -/
structure TxCmd where
  who : TxWho
  freq : Nat
  power : Nat
  mode : Nat
  sub : Nat
  prio : Nat
  urgent : Bool
  tenant : Nat
  access : Nat
  buffer : Nat := 0
  tag : Nat := 0
  code : Nat
  len : Nat
  startF : Nat
  startNs : Nat
  lateUs : Nat
  clamped : Bool := false
  age : Nat := 0
  inl : List Byte := []
  node : NodeCheck := .none
  units : Nat := 0
  bin : Nat := 0
  uj : Nat := 0
  ujFrame : Nat := 0
  deriving DecidableEq, Repr

/-- Where a start sequence stands: waiting for lock, in a CCA window, in a backoff, or cleared for the air. -/
inductive TxPhase where
  | hop | cca | backoff | go
  deriving DecidableEq, Repr

/-- A command in its start sequence (R90, R179, R180): `probe` is the receiver and whether its branch B is read,
`hit` says that the window is busy already. -/
structure TxStart where
  cmd : TxCmd
  phase : TxPhase
  join : Bool
  be : Nat := 3
  tries : Nat := 0
  probe : Nat × Bool := (0, false)
  hit : Bool := false
  bits : List Bool := []
  deriving DecidableEq, Repr

/-- A carrier on air: its command, the instant of its first symbol once reached, how far renumberings have since moved the
frame number (R195), the bits and symbols it sends and its output power in 0.25 dBm (R90, R101, R105). -/
structure Carrier where
  cmd : TxCmd
  first : Option (Nat × Nat) := none
  shift : Nat := 0
  bits : List Bool := []
  symbols : List Int := []
  power : Int := 0
  deriving DecidableEq, Repr

/-- A Form-1 reply reservation of TXL (R426): its start R_s, the end E of the node's frame, and the command it awaits. -/
structure Reserve where
  rx : Nat
  tenant : Nat
  freq : Nat
  rsF : Nat
  rsNs : Nat
  eF : Nat
  eNs : Nat
  stands : Bool := false
  deriving DecidableEq, Repr

/-- A TX chain beyond its registers: queue, start sequence, carriers, synthesiser with its calibration store (grid point
and temperature, least recently used first; R93), front-end times and balls (R102), SLEEP due, the plan's hold (R334)
and the hold of a JTAG instruction (R410). -/
structure ChainSt where
  queue : List TxCmd := []
  start : Option TxStart := none
  air : List Carrier := []
  lo : Nat := 0
  cal : List (Nat × Nat) := []
  calReq : Option Nat := none
  calRun : Option Nat := none
  waking : Bool := false
  auto : Bool := false
  sleepDue : Bool := false
  off : Bool := false
  planSleep : Bool := false
  jtagHold : Bool := false
  ramp : Nat := 8
  lead : Nat := 10
  feStep : Nat := 0
  paEn : Bool := false
  paMode : Bool := false
  trsw : Bool := false
  blank : List Nat := []
  reserves : List Reserve := []
  deriving DecidableEq, Repr

/-- The duty accounts (R181, R182, R197): airtime by account and bin (key 60 n + bin) and tenant, urgent airtime, and
the monotonic count at which each bin was opened. -/
structure DutySt where
  used : Tab (Tab Nat) := []
  urg : Tab Nat := []
  opened : Tab Nat := []
  deriving DecidableEq, Repr

/-- A new allowance on its way to the admission agent (R318): W, the urgent reserve, shares and ENGINE charges. -/
structure Allowance where
  w : Nat
  urgPm : Nat
  share : List (Nat × Nat)
  engine : List Nat
  deriving DecidableEq, Repr

/-- The admission agent (R318, R330): the allowance in force, the transmit charges of the current frame, the ENGINE
charges it opened with and the planner's message. -/
structure AgentSt where
  w : Nat := 0xFFFFFFFF
  urgPm : Nat := 0
  share : Tab (Nat × Nat) := []
  used : Tab Nat := []
  engine : Tab Nat := []
  msg : Option Allowance := none
  deriving DecidableEq, Repr

/-- The radio: paths, receivers with their reports in flight, chains, command blocks being fetched (engine, chain,
address), duty accounts, the admission agent, the tuner of the spectrum monitor's run and whether one has ended (R123). -/
structure RadioSt where
  paths : Tab PathSt := []
  rx : Tab RxSt := []
  reports : List RxReport := []
  tunerLive : Tab Bool := []
  chains : Tab ChainSt := []
  submits : List (Nat × Nat × Nat) := []
  specTuner : Nat := 0
  specDone : Bool := false
  duty : DutySt := {}
  agent : AgentSt := {}
  deriving DecidableEq, Repr

/-! ## Cipher (chapter 12) -/

/-- One key slot (Table 12-1, CIPHER_SLOT): the key bytes, owner, clear_ctx, record of a cache slot, last use. -/
structure KeySlot where
  valid : Bool := false
  key : List Byte := []
  owner : Nat := 0
  clearCtx : Bool := false
  node : Nat := 0
  used : Nat := 0
  deriving DecidableEq, Repr

/-- A job of a hardware master at an internal port, with what its end needs (R288): the sealing of a frame with header
`head` that a command then sends; a management request from a port and source; a reply or the answer of a slot, whose
payload starts with `head`; the generation of a private key; the digests and the signature of a VERIFY of the flash
controller (R376). -/
inductive UnitJob where
  | seal (chain : Nat) (head : List Byte) (cmd : TxCmd)
  | request (port mac : Nat) (frame : List Byte)
  | reply (port mac : Nat) (head : List Byte)
  | answer (slot : Nat) (head : List Byte)
  | keygen
  | image
  deriving DecidableEq, Repr

/-- Who submitted a job: a slot of a core, the relay unit for a verification, or another hardware master (R302). -/
inductive JobWho where
  | core (n slot : Nat)
  | relay
  | unit (u : UnitJob)
  deriving DecidableEq, Repr

/-- A cipher job (Table 12-4). `tenant` is none for the supervisor and the hardware masters; a job of one of these carries
its nonce, associated data and input itself (`inl`). Op 16 is the generation of a private key (R313), op 17 the ECC
engine's work for a VERIFY of an image (R376). -/
structure Job where
  who : JobWho
  tenant : Option Nat
  op : Nat
  ctx : Nat := 0
  ctxSeal : Bool := false
  noOut : Bool := false
  tlen : Nat := 0
  last : Bool := false
  byRec : Bool := false
  tag : Nat := 0
  key : Nat := 0
  src : Nat := 0
  dst : Nat := 0
  aadLen : Nat := 0
  dataLen : Nat := 0
  iv : Nat := 0
  aad : Nat := 0
  ctxa : Nat := 0
  desc : Nat := 0
  prio : Nat := 0
  inl : List Byte × List Byte × List Byte := ([], [], [])
  deriving DecidableEq, Repr

/-- A granted job: its unit (0–3 the AES engines, 4 the ECC engine), the slots whose keys it holds, its status, and what
it does when it completes: the writes it makes, its result for a hardware master, and the key of KW_UNWRAP or the record
of an NKEY operation. -/
structure Running where
  unit : Nat
  job : Job
  slots : List Nat
  status : Nat
  writes : List (Nat × List Byte)
  result : List Byte
  key : List Byte := []
  erased : Bool := false
  deriving DecidableEq, Repr

/-- An operation of ECC_KEY_CTRL that runs (R314). -/
inductive EccOp where
  | keygen (draw : Nat)
  | zeroize
  | save
  deriving DecidableEq, Repr

/-- The health tests of the TRNG's raw bits (R315): the last bit and how often it has come in a row; the first bit of the
window, how many bits of the window have come, and how often the first bit has recurred. -/
structure RawTests where
  last : Bool := false
  run : Nat := 0
  first : Bool := false
  seen : Nat := 0
  recur : Nat := 0
  deriving DecidableEq, Repr

/-- The cipher: key slots, queue, jobs of hardware masters that wait for a queue entry, running jobs, results for the
relay unit, seal state, masking generator (its seed and the blocks since its reseed, R306), TRNG, ECC private keys. -/
structure CipherSt where
  slots : Tab KeySlot := []
  queue : List Job := []
  waiting : List Job := []
  running : List Running := []
  relayDone : List (Nat × List Byte) := []
  bootTag : Nat := 0
  sealCtr : Nat := 0
  maskSeed : Nat := 0
  maskBlocks : Nat := 0
  raw : RawTests := {}
  fifo : List Word := []
  retestAt : Nat := 0
  failed : Bool := false
  priv : Tab Nat := []
  eccOps : List (Nat × EccOp) := []
  deriving DecidableEq, Repr

/-! ## Decoder pool (chapter 5) -/

/-- The states of a codeword context (Table 5-9). -/
inductive CtxSt where
  | free | fill | load | ready | iterate | store
  deriving DecidableEq, Repr

/-- A codeword context: the frame and codeword it holds, its class, priority and age, its iterations, the soft bits that
came for it, and the free value that decides where a sum of its last hard decisions is 0. -/
structure CwCtx where
  st : CtxSt := .free
  frame : Nat := 0
  cw : Nat := 0
  tenant : Nat := 0
  urgent : Bool := false
  prio : Nat := 0
  age : Nat := 0
  iters : Nat := 0
  soft : List (BitVec 4) := []
  tie : Nat := 0
  deriving DecidableEq, Repr

/-- A codeword in a receiver's hold, whose request waits (R148); `full`: all its soft bits have come, in `soft`. -/
structure HeldCw where
  frame : Nat
  cw : Nat
  region : Nat
  tenant : Nat
  urgent : Bool
  prio : Nat
  age : Nat
  full : Bool := false
  soft : List (BitVec 4) := []
  deriving DecidableEq, Repr

/-- A frame with a reserved entry (R145, R151): `start` is the ring count of its entry, `code` the header's code_id,
`ended` the reason of Table 5-11 of an early end. -/
structure DecFrame where
  rx : Nat := 0
  region : Nat := 0
  tenant : Nat := 0
  sync : SyncRec := {}
  mode : Nat := 0
  code : Nat := 0
  len : Nat := 0
  start : Nat := 0
  begun : Nat := 0
  stored : Nat := 0
  iterMax : Nat := 0
  cap : Bool := false
  demoted : Bool := false
  lastIn : Bool := false
  ended : Option Nat := none
  deriving DecidableEq, Repr

/-- The ingress state of one receiver (Table 5-8). -/
inductive IngSt where
  | idle | header | body
  deriving DecidableEq, Repr

/-- The ingress of one receiver: its state, the record kept and, in BODY, the number of its frame. -/
structure Ingress where
  st : IngSt := .idle
  sync : SyncRec := {}
  tenant : Nat := 0
  region : Nat := 0
  mode : Nat := 0
  frame : Nat := 0
  deriving DecidableEq, Repr

/-- The decoder pool: ingress of each receiver, frames by number, contexts (12 × core + place), held codewords and the
next frame number. -/
structure DecoderSt where
  ingress : Tab Ingress := []
  frames : List (Nat × DecFrame) := []
  ctxs : Tab CwCtx := []
  holds : List HeldCw := []
  next : Nat := 1
  deriving DecidableEq, Repr

/-! ## Relay unit, seen cache, node table unit (chapters 6, 8, 18) -/

/-- An entry handed to the relay unit (R151): ring place and what the descriptor says. -/
structure RelayEntry where
  region : Nat
  tenant : Nat
  start : Nat
  rx : Nat
  mode : Nat
  code : Nat
  len : Nat
  sync : SyncRec
  deriving DecidableEq, Repr

/-- Relay states of a seen entry (R169). -/
inductive SeenRelay where
  | none | pending | sent | suppressed
  deriving DecidableEq, Repr

/-- A seen-cache entry (R169); `id` tells it from a later entry in the same way. -/
structure SeenEntry where
  valid : Bool := false
  id : Nat := 0
  src : Nat := 0
  ctr : Nat := 0
  frame : Nat := 0
  tenant : Nat := 0
  verified : Bool := false
  dlv : Bool := false
  acked : Bool := false
  urgent : Bool := false
  relay : SeenRelay := .none
  count : Nat := 0
  pend : Nat := 0
  margin : Nat := 0
  deriving DecidableEq, Repr

/-- The entry whose verification runs in the cipher (R164, R424): its relay buffer, the node-table entry found (address,
node ID, last counter) with its key record and downlink-pending flag, whether the key is that entry's, the frame's tenant,
the delay drawn for its relay, and the PSDU as received. -/
structure RelayJob where
  entry : RelayEntry
  buf : Option Nat := none
  node : Option (Nat × Nat × Nat) := none
  record : Nat := 0
  pend : Bool := false
  byNode : Bool := false
  tenant : Nat := 0
  draw : Nat := 0
  psdu : List Byte := []
  deriving DecidableEq, Repr

/-- An alias entry (R423). -/
structure AliasEntry where
  valid : Bool := false
  addr : Nat := 0
  tenant : Nat := 0
  node : Nat := 0
  deriving DecidableEq, Repr

/-- A command that a port of the node-table unit runs (R212): requester core, block address and the block. -/
structure PortCmd where
  core : Nat
  addr : Nat
  blk : List Byte := []
  deriving DecidableEq, Repr

/-- The relay unit and the node-table unit: entries waiting, the verification that runs, seen cache (key 4 × set + way),
relay buffers in use, completions of its commands (command, status, first symbol), alias table (key 4 × set + way), set
the sweeper visits next, the commands the ports run, and the port served last. -/
structure RelaySt where
  queue : List RelayEntry := []
  job : Option RelayJob := none
  seen : Tab SeenEntry := []
  nextId : Nat := 1
  bufs : List Nat := []
  done : List (TxCmd × Nat × Option (Nat × Nat)) := []
  aliases : Tab AliasEntry := []
  sweepSet : Nat := 0
  ports : Tab (Option PortCmd) := []
  lastPort : Nat := 3
  deriving DecidableEq, Repr

/-! ## Cinch (chapter 7) -/

/-- A boundary source (R190–R193): its last observation and the last expected ones, newest first, as corrected so far;
qualified, expected observations missing, an expected observation since the last decision, one of any kind in this frame,
observations still wanted after BEYOND, frames since the last expected one and those between two, and the stratum it
gives. -/
structure SourceSt where
  last : Int := 0
  offs : List Int := []
  taken : Bool := false
  qualified : Bool := false
  missing : Nat := 0
  fresh : Bool := false
  barred : Nat := 0
  since : Nat := 0
  period : Nat := 1
  stratum : Nat := 15
  deriving DecidableEq, Repr

/-- The extender of an island (R38, R204), at the reference cycle `cyc` (with `part` of the next): its count, a frame and a
position in it in units of 1/(8·10^9) ns, the rate and len of the last time value, and the length of the frame before,
kept for stamps (R114). -/
structure ExtSt where
  frame : Nat := 0
  tu : Int := 0
  rate : Int := 0
  len : Nat := 1000000000
  prevLen : Nat := 1000000000
  cyc : Nat := 0
  part : Nat := 0
  deriving DecidableEq, Repr

/-- Cinch time and servo (R186–R200): started, current frame, position in the frame in units of 1/(8·10^9) ns, how much of
it lies after the last reference cycle, the
number of the frame before; adjustment of the current frame (0 until D), whether it is decided, the adjustments of the
frames before, newest first; rate applied and held in 1/8 ppb; sources by code 1–4, the last one selected, the last offsets of the
selected source, the frame of the last step (R194), a step or SET to apply, the frame number a renumbering loads, reacquire, frames
in HOLDOVER and whether its stratum ran out; the last slot started; how many steps and SETs were applied and whether
the last boundary applied one; when the last CINCH_IN edge was taken (monotonic count); CINCH_OUT has risen, and the
instant of a rise to come or not yet counted as one (R405); beacon
completions not yet counted; the extenders: 0 channel, 1 ETH0, 2 ETH1, 3 radio die service (R204). -/
structure CinchSt where
  started : Bool := false
  frame : Nat := 0
  tu : Nat := 0
  part : Nat := 0
  prev : Nat := 0
  adj : Int := 0
  lastAdj : Int := 0
  decided : Bool := false
  adjs : List Int := []
  rate : Int := 0
  held : Int := 0
  sources : Tab SourceSt := []
  lastSource : Nat := 0
  offs : List Int := []
  lastStep : Option Nat := none
  stepDue : Bool := false
  renumber : Option Nat := none
  reacquire : Bool := false
  holdFrames : Nat := 0
  holdOut : Bool := false
  slot : Nat := 0
  era : Nat := 0
  stepped : Bool := false
  ppsAt : Option Nat := none
  out : Bool := false
  outRise : Option (Nat × Nat) := none
  beaconDone : List Nat := []
  ext : Tab ExtSt := []
  deriving DecidableEq, Repr

/-! ## Girth (chapter 13) -/

/-- One close's work for the planner's mean (R328): TX and ENGINE charged, and the frame's length. -/
structure WorkItem where
  uj : Nat
  len : Nat
  deriving DecidableEq, Repr

/-- Girth beyond its registers: fractions of a µJ the meter keeps (in 0.1 pJ, by ledger counter; R319), ENGINE energy of
each tenant not yet booked (pJ, R326), the last 60 closes, OWN, PACK_IN and PACK_OUT at the start of the open frame,
each tenant's charges in the last closed frame, tx_deny and freq_clamp by tenant, how far each cluster is clamped below
its frequency, latches of ledger reads (key: master × 32 + counter), whether the debounce of MAINS_OK runs; the rates
of the paths and the enabled tuners at the time the plan left FULL; the CONFIG sets of R332 (receivers of LEAN and of
FRUGAL, the frugal pair, its frequency code, the Ethernet ports kept) and the frequency codes of CONFIG; whether
receivers of compute die 1 wait for die1_ready (R334); the low word of PACK_EST that its write left waiting (R323). -/
structure GirthSt where
  frac : Tab Nat := []
  engPj : Tab Nat := []
  work : List WorkItem := []
  open0 : Tab Nat := []
  lastUse : Tab Nat := []
  denied : Tab Nat := []
  clampCount : Tab Nat := []
  clamp : Tab Nat := []
  latch : Tab (Option Nat) := []
  debounce : Bool := false
  fullRate : Tab Nat := []
  fullTuners : List Nat := []
  leanSet : List Nat := []
  frugalSet : List Nat := []
  frugalPair : List Nat := []
  frugalFreq : Nat := 0
  ethFrugal : Nat := 0
  cfgFreq : Tab Nat := []
  die1Wait : Bool := false
  estLo : Option Nat := none
  deriving DecidableEq, Repr

/-! ## Real-time clock and timers (chapter 16) -/

/-- The RTC (R380–R387): seconds, 15-bit fraction, whether the last second came by a tick (R382), a load that waits,
ticks since the last 32 s point with the adjusted ticks left and their sign (R381), and the frozen shadow of each master
(R384; masters: cores by number, 129 the debug port). -/
structure RtcSt where
  sec : Nat := 0
  frac : Nat := 0
  byTick : Bool := false
  loading : Bool := false
  ticks : Nat := 0
  adjLeft : Nat := 0
  adjUp : Bool := false
  shadows : Tab (Option (Nat × Nat)) := []
  deriving DecidableEq, Repr

/-- A timer beyond its registers (R388–R392): count, direction, turn, reload and compare in force and to come, their
staged low words, a match in this half, and a stop that waits for the next step. -/
structure Timer where
  count : Nat := 0
  down : Bool := false
  turn : Nat := 0
  reload : Nat := 0xFFFFFFFFFFFF
  reloadNext : Option Nat := none
  reloadLo : Nat := 0xFFFFFFFF
  cmp : Nat := 0
  cmpNext : Option Nat := none
  cmpLo : Nat := 0
  matched : Bool := false
  stopDue : Bool := false
  deriving DecidableEq, Repr

/-- The 16 timers, and those that a pending at_slot start names. -/
structure TimersSt where
  tab : Tab Timer := []
  armed : List Nat := []
  deriving DecidableEq, Repr

/-! ## Attached flash (chapter 15) -/

/-- A flash command: op, flash offset, buffer, length, tag, and the monotonic count of its word-0 write. -/
structure FlashCmd where
  op : Nat
  addr : Nat
  buf : Nat
  len : Nat
  tag : Nat
  start : Nat := 0
  deriving DecidableEq, Repr

/-- What the flash itself does: a block being erased, a page being programmed. -/
inductive FlashAct where
  | erase (block : Nat)
  | program (page : Nat)
  deriving DecidableEq, Repr

/-- The flash controller: the command that runs and an erase command it is nested in, an outcome already known (status,
boot code, detail), the next page, what the flash does, the block whose erase is suspended, the tries so far of the page or
block and of the outer erase, whether the blank check of a PROGRAM has passed, buffered lines with their bytes (least
recently used first), missed lines in order of arrival, the line whose strobe failed last and how often, lines of the
running command that failed for good, the end of programming that a power state asks for, and the block whose erase
start-up found cut off and repeats after hand-over (R363–R373). -/
structure FlashSt where
  cmd : Option FlashCmd := none
  outer : Option FlashCmd := none
  known : Option (Nat × Nat × Nat) := none
  page : Nat := 0
  act : Option FlashAct := none
  susp : Option Nat := none
  tries : Nat := 0
  outerTries : Nat := 0
  checked : Bool := false
  lines : List (Nat × List Byte) := []
  miss : List Nat := []
  dqsLine : Nat := 0
  dqs : Nat := 0
  badLines : List Nat := []
  stop : Bool := false
  redo : Option Nat := none
  deriving DecidableEq, Repr

/-! ## Wired interfaces (chapter 17) -/

/-- A frame that waits at an Ethernet port: destination, EtherType, VLAN priority and payload. -/
structure EthOut where
  dst : Nat
  type : Nat
  prio : Nat
  payload : List Byte
  deriving DecidableEq, Repr

/-- A transmit stamp (R400). -/
structure TxStamp where
  tag : Nat
  sec : Nat
  ns : Nat
  deriving DecidableEq, Repr

/-- An Ethernet port: its IEEE 1588 time in units of 1/(1,024·10^9) ns at a monotonic count (R399), transmit stamps,
frames of the management unit and of the forwarder that wait, the last frame sent (with its FCS), and whether the
energy plan or SLEEP holds it down. -/
structure EthPort where
  ptp : Nat := 0
  ptpAt : Nat := 0
  stamps : List TxStamp := []
  mgmt : List EthOut := []
  fwd : List EthOut := []
  sent : List Byte := []
  held : Bool := false
  deriving DecidableEq, Repr

/-- The states of a management ID entry (R402). -/
inductive MgmtSt where
  | pending | done | expired
  deriving DecidableEq, Repr

/-- A management ID entry: request, state, monotonic count of its first accepted copy, slot, port and source (R402). -/
structure MgmtId where
  req : Nat
  st : MgmtSt
  since : Nat
  slot : Nat
  port : Nat
  mac : Nat
  deriving DecidableEq, Repr

/-- A UART: its FIFOs, received bytes with their frame errors (R413). -/
structure Uart where
  tx : List Byte := []
  rx : List (Byte × Bool) := []
  deriving DecidableEq, Repr

/-- The trace stream of the supervisor (R413): the words that wait in the FIFO of 256, the monotonic count when they were
last counted, and whether words have been lost since the last word queued. -/
structure TraceSt where
  fifo : List (BitVec 16) := []
  since : Nat := 0
  lost : Bool := false
  deriving DecidableEq, Repr

/-- Wired interfaces beyond their registers: SLOT_STROBE and PPS_OUT levels, ports, management IDs (oldest first), slots
that wait for the supervisor, the response counter (R403) and the count of bad requests (R402), UARTs, the I2C operation that runs (op, byte, last) and
the balls that are parked (R415), and the trace stream. -/
structure WiredSt where
  strobe : Bool := false
  ppsOut : Bool := false
  ports : Tab EthPort := []
  ids : List MgmtId := []
  queue : List Nat := []
  respCtr : Nat := 0
  badReqs : Nat := 0
  uarts : Tab Uart := []
  i2c : Option (Nat × Nat × Bool) := none
  parked : List Nat := []
  trace : TraceSt := {}
  deriving DecidableEq, Repr

/-! ## Package (chapters 1, 2, 13, 17) -/

/-- Power of compute die 1 (R29): up, down, or rising with its fill done or not. -/
inductive DieSt where
  | up | down
  | rising (filled : Bool)
  deriving DecidableEq, Repr

/-- The package power states with their entries (R340, R342): on the way to SLEEP, DEEP_SLEEP or OFF carriers on air
still complete; `armed` is RUN with off_armed. IDLE is RUN with every core idle and SURVIVAL an energy plan, so neither
has a value here. -/
inductive PowerSt where
  | run | toSleep | sleep | toDeep | deepSleep | toOff | armed | off
  deriving DecidableEq, Repr

/-- The package runs, and no power state is asked for. -/
def PowerSt.awake (p : PowerSt) : Bool := p == .run

/-- Where start-up stands (Table 2-2): held in reset, waiting for the reference, filling, discovering the flash, reading
a header, loading, verifying the signature, checking the settings, ready for step 12, running, or in UART recovery. -/
inductive Stage where
  | hold | reference | fill | flash | header | load | sign | settings | hand | run | recovery
  deriving DecidableEq, Repr

/-- UART recovery (R407–R409): a valid frame has come, the command of the last one (type, data) until it runs, the rate in
force and to come, and the last reply sent. -/
structure RecSt where
  heard : Bool := false
  cmd : Option (Nat × List Byte) := none
  baud : Nat := 115200
  next : Option Nat := none
  reply : List Byte := []
  deriving DecidableEq, Repr

/-- What the boot ROM keeps of the image that it has loaded: version, settings format, anti-rollback value, tenants
declared, those that cannot start as a mask, the sections SETTINGS_DEFAULT and KEYS_WRAPPED (R63–R71); and, each read once
(R65), the header, the bytes of the manifest, the digest of what is signed and the signature. -/
structure ImgSt where
  version : Nat := 0
  format : Nat := 0
  rollback : Nat := 0
  tenants : Nat := 0
  refused : Nat := 0
  defaults : List Byte := []
  keys : List Byte := []
  header : List Byte := []
  man : List Byte := []
  digest : List Byte := []
  sig : List Byte := []
  deriving DecidableEq, Repr

/-- A request of a core that waits to enter a Latigo link (R273): the link and direction, the core, the slot that issued it
with its pc, its priority and its age. -/
structure LinkReq where
  link : Nat
  toward : Bool
  core : Nat
  slot : Nat
  pc : Word
  prio : Nat
  age : Nat
  deriving DecidableEq, Repr

/-- The package: power of die 1, regions in retention as a mask (R333), power state, supervisor halter period,
outstanding Latigo transactions by link (number, toward the compute end; R40), the next number and the requests that wait
(R273); supplies in range,
RESET_N low, held by temperature, the boot-select balls, the start-up stage, the bank tried (0 A, 1 B), whether it is
the other one, the image loaded, the stage that follows the fill, the banks that the flash operation record refuses
(R372), the fill done, a power state that
waits (R342), wake sources fired since the last record (R348) with those enabled and the Stirrup's device number at entry, the state slept in
(3 DEEP_SLEEP, 4 OFF) with its RTC second, the pull of the wake alarm on WAKE_N, the MAINS_OK ball and its debounced
level; the reset causes not yet recorded, by code; a SURVIVAL window with what its closes chose (R335); the JTAG
instruction, its output and the unlock nonce (R410, R411); recovery; the GPIO levels that PWR_IOHOLD keeps while compute
die 0 is off (Table 13-9); and the VDD_IO banks in 3.3 V mode, A, B, X, F, J from bit 0 (R448). -/
structure PkgSt where
  die1 : DieSt := .up
  retained : Nat := 0
  power : PowerSt := .run
  supPeriodMs : Nat := 250
  links : Tab (List (Nat × Bool)) := []
  nextTxn : Nat := 0
  linkWait : List LinkReq := []
  supplies : Bool := false
  resetLow : Bool := true
  hot : Bool := false
  bootSel : Nat := 0
  stage : Stage := .hold
  bank : Nat := 0
  other : Bool := false
  img : ImgSt := {}
  afterFill : Stage := .flash
  opBank : Nat := 0
  filled : Bool := false
  reqWait : Nat := 0
  fired : Nat := 0
  slept : Nat := 0
  sleptAt : Nat := 0
  alarmPull : Bool := false
  mains : Bool := false
  mainsDeb : Bool := false
  wakeEn : Nat := 0
  callId : Nat := 0
  causes : Nat := 1
  window : Bool := false
  winCloses : Nat := 0
  winBetter : Bool := true
  jtag : Nat := 0
  jtagOut : List Byte := []
  nonce : Option (List Byte) := none
  recover : RecSt := {}
  ioHeld : Tab (Option Bool) := []
  ioHigh : Nat := 0
  deriving DecidableEq, Repr

/-! ## The whole state -/

/-- The whole state of the block. -/
structure State where
  pending : List Instr := []
  variant : Variant := .sln4512
  regs : Tab Word := []
  wol : Tab Bool := []
  mem : List Host.Cell := []
  upkeep : UpkeepSt := {}
  engines : Tab Engine := []
  faults : Tab FaultRec := []
  clusters : Tab Cluster := []
  flight : List Flight := []
  prioFlight : List PrioChange := []
  log : LogSt := {}
  fuses : FuseSt := {}
  cipher : CipherSt := {}
  radio : RadioSt := {}
  decoder : DecoderSt := {}
  relay : RelaySt := {}
  cinch : CinchSt := {}
  girth : GirthSt := {}
  rtc : RtcSt := {}
  timers : TimersSt := {}
  flash : FlashSt := {}
  wired : WiredSt := {}
  pkg : PkgSt := {}
  mono : Nat := 0
  age : Nat := 0
  freeCount : Nat := 0
  deriving DecidableEq, Repr

/-- The block right after power is applied for the first time. -/
def State.reset : State := {}

end Sys2Proof.Machine
end

