-- ==== Sys2Proof/Machine/Tab.lean ====
section
/-!
DEFINITION. Reading and writing sparse tables (`Tab`): keys rise and no entry equals the default of its key, so equal
contents are equal tables. Memory and the register file are such tables.
-/

namespace Sys2Proof.Machine

/-- The part with number k, or its default. -/
def tabGet {α : Type} (d : α) (t : Tab α) (k : Nat) : α :=
  match t with
  | [] => d
  | (j, v) :: rest => if k = j then v else tabGet d rest k

/-- The table with part k replaced by v, whatever v is; rising keys stay rising. -/
def tabPut {α : Type} (t : Tab α) (k : Nat) (v : α) : Tab α :=
  match t with
  | [] => [(k, v)]
  | (j, w) :: rest =>
    if k = j then (k, v) :: rest
    else if k < j then (k, v) :: (j, w) :: rest
    else (j, w) :: tabPut rest k v

/-- The table without an entry for k. -/
def tabDrop {α : Type} (t : Tab α) (k : Nat) : Tab α := t.filter (fun e => !(e.1 == k))

/-- The table with part k set to v; an entry that would equal the default d is removed. -/
def tabSet {α : Type} [DecidableEq α] (d : α) (t : Tab α) (k : Nat) (v : α) : Tab α :=
  if v = d then tabDrop t k else tabPut t k v

/-- The table without the keys in [lo, hi). -/
def tabClear {α : Type} (t : Tab α) (lo hi : Nat) : Tab α :=
  t.filter (fun e => e.1 < lo || hi ≤ e.1)

/-- The first element that satisfies p, and the list without it. -/
def takeFirst {α : Type} (p : α → Bool) : List α → Option (α × List α)
  | [] => none
  | x :: rest =>
    if p x then some (x, rest)
    else match takeFirst p rest with
      | some (y, r) => some (y, x :: r)
      | none => none

/-- The keys strictly rise. -/
def keysRise {α : Type} : Tab α → Bool
  | [] => true
  | [_] => true
  | (i, _) :: (j, w) :: rest => decide (i < j) && keysRise ((j, w) :: rest)

/-- The canonical form: rising keys and no entry equal to the default. -/
def tabWf {α : Type} [DecidableEq α] (d : α) (t : Tab α) : Bool :=
  keysRise t && t.all (fun e => decide (e.2 ≠ d))

end Sys2Proof.Machine
end

