-- ==== Sys2Proof/Machine/Ops.lean ====
section
/-!
DEFINITION. The operations every unit shares: registers and their fields, free values, memory and its check bits, the
operator log, notices, ownership and fences.
-/

namespace Sys2Proof.Machine

/-! ## Registers -/

/-- The row of the register map that covers an address. -/
def regDesc (a : Nat) : Option RegDesc := (regRows (a / 65536)).find? (fun d => descHit d a)

/-- The reset word of a register; addresses with no register have 0 (R13). -/
def regReset (a : Nat) : Word :=
  match regDesc a with
  | some d => descReset d
  | none => 0#32

/-- The word a register holds. -/
def State.reg (s : State) (a : Nat) : Word := tabGet (regReset a) s.regs a

/-- A register set to a word. -/
def State.setReg (s : State) (a : Nat) (w : Word) : State := { s with regs := tabSet (regReset a) s.regs a w }

/-- The value of a field. -/
def State.fget (s : State) (f : Fld) : Nat := fldOf f.lo f.width (s.reg f.addr)

/-- A field set to the low bits of v. -/
def State.fset (s : State) (f : Fld) (v : Nat) : State := s.setReg f.addr (fldPut f.lo f.width v (s.reg f.addr))

/-- A one-bit field as a truth value. -/
def State.fon (s : State) (f : Fld) : Bool := s.fget f == 1

/-- A counting field plus n, modulo its width ("wraps"). -/
def State.fadd (s : State) (f : Fld) (n : Nat) : State := s.fset f (s.fget f + n)

/-- A counting field plus one, modulo its width ("wraps"). -/
def State.finc (s : State) (f : Fld) : State := s.fadd f 1

/-- A counting field plus one, held at its greatest value ("saturates"). -/
def State.fsat (s : State) (f : Fld) : State := s.fset f (satInc (2 ^ f.width - 1) (s.fget f))

/-- s where b holds, else the other state. -/
def State.iff (s : State) (b : Bool) (f : State → State) : State := if b then f s else s

/-! ## Free values -/

/-- A value the spec leaves open: the next free value and the state that has taken it (log entry 11). -/
def State.free (s : State) (w : Nat) : BitVec w × State :=
  (Config.freeBits w s.freeCount, { s with freeCount := s.freeCount + 1 })

/-! ## Engines -/

/-- The number of a core: 0–127 the engines, 128 the supervisor. -/
def coreNum : CoreId → Nat
  | .eng n => n.toNat
  | .sup => 128

/-- The number of a core in the engine field of a notice or log entry: 0x7F for the supervisor (Table 2-9). -/
def coreTag (n : Nat) : Nat := if n = 128 then 0x7F else n

/-- The record of a core. -/
def State.eng (s : State) (n : Nat) : Engine := tabGet {} s.engines n

/-- The record of a core replaced. -/
def State.setEng (s : State) (n : Nat) (e : Engine) : State := { s with engines := tabSet {} s.engines n e }

/-- The record of a core changed. -/
def State.modEng (s : State) (n : Nat) (f : Engine → Engine) : State := s.setEng n (f (s.eng n))

/-- The cluster of an engine (Table 1-1). -/
def clusterOf (e : Nat) : Nat := e / 8

/-- The region of a cluster (Table 1-1: 4 clusters a region). -/
def regionOfCluster (c : Nat) : Nat := c / 4

/-- The region of an engine. -/
def regionOf (e : Nat) : Nat := e / 32

/-- The record of a cluster. -/
def State.clu (s : State) (c : Nat) : Cluster := tabGet {} s.clusters c

/-- The record of a cluster changed. -/
def State.modClu (s : State) (c : Nat) (f : Cluster → Cluster) : State :=
  { s with clusters := tabSet {} s.clusters c (f (s.clu c)) }

/-- The owning tenant of a cluster, if it is owned (R21). -/
def State.clusterTenant (s : State) (c : Nat) : Option Nat :=
  if s.fon (fENGCTL_CL_owned c) then some (s.fget (fENGCTL_CL_tenant c)) else none

/-- The tenant of an engine; an engine of an unowned cluster never runs (R21) and counts as tenant 0. -/
def State.engTenant (s : State) (e : Nat) : Nat := s.fget (fENGCTL_CL_tenant (clusterOf e))

/-- Tenant t is declared in the running image. -/
def State.declared (s : State) (t : Nat) : Bool := s.fon (fTENANT_CFG_declared t)

/-- Tenant t was started (R68): SYS_TENANT_RUN says so, and before step 12 writes it the image's own versions do. -/
def State.started (s : State) (t : Nat) : Bool :=
  bitN (if s.pkg.stage = .hand then 2 ^ s.pkg.img.tenants - 1 - s.pkg.img.refused else s.fget fSYS_TENANT_RUN_started) t

/-- Tenant t is suspended (R292). -/
def State.suspended (s : State) (t : Nat) : Bool := s.fon (fTENANT_CFG_suspend t)

/-! ## Presence of units (R2, R5, R29) -/

/-- Compute die 1 is present and powered. -/
def State.die1Up (s : State) : Bool := Config.hasDie1 s.variant && s.pkg.die1 == .up

/-- Region r exists on this variant. -/
def State.hasRegion (s : State) (r : Nat) : Bool := decide (r < Config.regions s.variant)

/-- Region r exists, its die is powered, and it is not in retention (R333). -/
def State.regionUp (s : State) (r : Nat) : Bool :=
  s.hasRegion r && (decide (r < 2) || s.die1Up) && !bitN s.pkg.retained r

/-! ## Memory -/

/-- Key of attached-flash byte `off`. -/
def flashKey (off : Nat) : Nat := 0x100000000 + off

/-- Key of a byte of the local data SRAM of engine e. -/
def dKey (e off : Nat) : Nat := 0x200000000 + e * 0x10000 + off

/-- Key of a byte of the I-SRAM of engine e. -/
def iKey (e off : Nat) : Nat := 0x300000000 + e * 0x10000 + off

/-- Key of a byte of the supervisor's local SRAM. -/
def supKey (off : Nat) : Nat := 0x400000000 + off

/-- Key of a byte of the decode-table store of cluster c (R248). -/
def dtabKey (c off : Nat) : Nat := 0x500000000 + c * 0x800 + off

/-- Key of a byte of the sequencer microcode store (R63). -/
def seqKey (off : Nat) : Nat := 0x600000000 + off

/-- Key of a byte of the initial data kept for restarts of engine e (R19, R63). -/
def initKey (e off : Nat) : Nat := 0x700000000 + e * 0x10000 + off

/-- What an unlisted byte reads as: flash erased, every memory else zero (R354; log entries 5 and 6). -/
def memDefault (k : Nat) : Byte := if 0x100000000 ≤ k && k < 0x200000000 then 0xFF#8 else 0#8

/-- The canonical form of memory: keys rise and no listed byte equals what an unlisted one reads as, so equal memories
are equal data. -/
def Memory.wf (m : List Host.Cell) : Bool := keysRise m && m.all (fun e => decide (e.2 ≠ memDefault e.1))

/-- The state is in canonical form: memory, and the registers that differ from their reset value, are listed with rising
keys and without what an unlisted one reads as. -/
def State.Canon (s : State) : Prop :=
  Memory.wf s.mem = true ∧ keysRise s.regs = true ∧ s.regs.all (fun e => decide (e.2 ≠ regReset e.1)) = true

/-- The byte stored at a key. -/
def State.byte (s : State) (k : Nat) : Byte := tabGet (memDefault k) s.mem k

/-- One byte stored; nothing else changes. -/
def State.setByte (s : State) (k : Nat) (b : Byte) : State := { s with mem := tabSet (memDefault k) s.mem k b }

/-- n bytes from key k on. -/
def State.bytes (s : State) (k n : Nat) : List Byte :=
  match n with
  | 0 => []
  | m + 1 => s.byte k :: s.bytes (k + 1) m

/-- Bytes stored from key k on. -/
def State.setBytes (s : State) (k : Nat) (bs : List Byte) : State :=
  match bs with
  | [] => s
  | b :: rest => (s.setByte k b).setBytes (k + 1) rest

/-- A little-endian number of n bytes at key k. -/
def State.num (s : State) (k n : Nat) : Nat := leNat (s.bytes k n)

/-- The word at key k. -/
def State.word (s : State) (k : Nat) : Word := BitVec.ofNat 32 (s.num k 4)

/-- A little-endian number stored in n bytes at key k. -/
def State.setNum (s : State) (k n v : Nat) : State := s.setBytes k (leBytes n v)

/-- The memory with keys [lo, hi) as unlisted, and their check bits right (R354). -/
def State.fill (s : State) (lo hi : Nat) : State :=
  { s with mem := tabClear s.mem lo hi, upkeep := { s.upkeep with flips := tabClear s.upkeep.flips lo hi } }

/-- The memory where keys [dst, dst + n) hold what [src, src + n) hold, bytes of equal default. -/
def State.copyRange (s : State) (dst src n : Nat) : State :=
  let moved := ((s.mem.filter (fun e => src ≤ e.1 && e.1 < src + n)).map (fun e => (e.1 - src + dst, e.2))).filter
    (fun e => decide (e.2 ≠ memDefault e.1))
  { s with
    mem := s.mem.filter (fun e => e.1 < dst) ++ moved ++ s.mem.filter (fun e => dst + n ≤ e.1)
    upkeep := { s.upkeep with flips := tabClear s.upkeep.flips dst (dst + n) } }

/-! ## Check bits (R349–R353) -/

/-- What the check bits of a word say: right, one bit wrong and corrected, or uncorrectable (R349). -/
inductive EccSt where
  | ok | corrected | bad
  deriving DecidableEq, Repr

/-- The error pattern of the word at an aligned key. -/
def State.flipAt (s : State) (k : Nat) : BitVec 72 := tabGet 0#72 s.upkeep.flips k

/-- The verdict on an error pattern: a single error is corrected, a double error detected (R349); what the code makes
of three or more is not stated, so it is free (log entry 11). -/
def eccVerdict (f : BitVec 72) : EccSt :=
  if popc f = 0 then .ok
  else if popc f = 1 then .corrected
  else if popc f = 2 then .bad
  else if Config.freeBits 1 f.toNat = 0#1 then .bad else .ok

/-- The 64-bit word at an aligned key and its verdict; undetected multiple errors return a free value. -/
def State.word64 (s : State) (k : Nat) : BitVec 64 × EccSt :=
  let f := s.flipAt k
  let v := eccVerdict f
  if v = .ok && decide (popc f ≠ 0) then (Config.freeBits 64 f.toNat, v) else (BitVec.ofNat 64 (s.num k 8), v)

/-- The error pattern of a word set, and any write-back that waits for it dropped (R350, R352). -/
def State.setFlip (s : State) (k : Nat) (f : BitVec 72) : State :=
  { s with upkeep := { s.upkeep with
      flips := tabSet 0#72 s.upkeep.flips k f
      wback := s.upkeep.wback.filter (fun j => !(j == k)) } }

/-- A whole aligned 8-byte word stored with its check bits (R352); `mask` inverts bits (R356). -/
def State.setWord64 (s : State) (k : Nat) (v : Nat) (mask : BitVec 72) : State := (s.setNum k 8 v).setFlip k mask

/-- Memory codes of MEM_CNT (chapter 14): the code of the memory that holds a key, and the local or D-space address of
the key that MEM_ECC_LAST shows. -/
def memCode (k : Nat) : Nat :=
  if 0x300000000 ≤ k && k < 0x400000000 then 0
  else if 0x200000000 ≤ k && k < 0x300000000 then 1
  else if 0x02000000 ≤ k && k < 0x04000000 then 2 + (k - 0x02000000) / 0x00800000
  else if 0x04000000 ≤ k && k < 0x04800000 then 6
  else if 0x400000000 ≤ k && k < 0x500000000 then 7
  else 8

/-- The address by which registers and the log name a key. -/
def memAddr (k : Nat) : Nat :=
  if 0x200000000 ≤ k && k < 0x400000000 then k % 0x10000
  else if 0x400000000 ≤ k && k < 0x500000000 then k - 0x400000000
  else k

/-- [k, k + n) meets the seen cache, the alias table or the management ID entries: the spec gives their place in system
SRAM and not their layout, so what a read there returns is free and a write there does nothing (log entry 36). -/
def State.unlaid (s : State) (k n : Nat) : Bool :=
  let meets (lo hi : Nat) : Bool := decide (k < hi) && decide (lo < k + n)
  let ids := (s.reg aETH_MGMT_BASE).toNat
  meets 0x04400000 0x04500000 || meets 0x04530000 0x04540000
    || (decide (0x04000000 ≤ ids) && decide (ids < 0x04800000) && meets ids (ids + 0x10000))

/-- [k, k + n) meets what one unit alone writes: the node table and the route table (R208), the node key records (R300)
and the node energy accounts (R336). -/
def nodeOwned (k n : Nat) : Bool :=
  (decide (k < 0x04400000) && decide (0x04000000 < k + n)) || (decide (k < 0x04530000) && decide (0x04520000 < k + n))
    || (decide (k < 0x05600000) && decide (0x05100000 < k + n))

/-- A write to [k, k + n) by another master than the unit that owns it does nothing (R208, R300, R336; log entry 36). -/
def State.noStore (s : State) (k n : Nat) : Bool := s.unlaid k n || nodeOwned k n

/-- A key inside a granule that is being cleared: accesses wait (R355). -/
def State.isClearing (s : State) (k : Nat) : Bool :=
  match s.upkeep.clearing with
  | none => false
  | some (lo, hi) => decide (lo ≤ k) && decide (k < hi)

/-- [k, k + n) meets a granule that is being cleared: a hardware master waits, too (R355). -/
def State.clearMeets (s : State) (k n : Nat) : Bool :=
  match s.upkeep.clearing with
  | none => false
  | some (lo, hi) => decide (0 < n) && decide (k < hi) && decide (lo < k + n)

/-! ## Operator log (R76–R78) -/

/-- Seconds of the RTC, low word. -/
def State.rtcLow (s : State) : Nat := s.rtc.sec % 2 ^ 32

/-- The Cinch frame a log entry carries: 0xFFFF_FFFF before Cinch time starts (Table 2-9). -/
def State.logFrame (s : State) : Nat := if s.cinch.started then s.cinch.frame else 0xFFFFFFFF

/-- An entry queued in the buffer of 16, or dropped and counted (R77). The tenant byte is 0x80 where none is named. -/
def State.logAdd (s : State) (code tenant engine d0 d1 d2 d3 : Nat) : State :=
  if s.log.buf.length < 16 then
    let item : LogItem :=
      { code := code, tenant := tenant, engine := engine, seq := s.fget fSYS_LOG_SEQ_seq,
        frame := s.logFrame, rtc := s.rtcLow, d0 := d0, d1 := d1, d2 := d2, d3 := d3 }
    ({ s with log := { s.log with buf := s.log.buf ++ [item] } } : State).finc fSYS_LOG_SEQ_seq
  else s.fsat fSYS_LOG_DROP_dropped

/-- A hardware entry that names no tenant and no engine. -/
def State.logHw (s : State) (code d0 d1 d2 : Nat) : State := s.logAdd code 0x80 0x7F d0 d1 d2 0

/-! ## Notices (R263–R268) -/

/-- Word 0 of a notice: the kind and the low 28 bits. -/
def noticeW0 (kind low : Nat) : Word := BitVec.ofNat 32 (kind * 2 ^ 28 + low % 2 ^ 28)

/-- A notice posted to a core's queue; it arrives later (R35, R36). -/
def State.post (s : State) (target kind low w1 w2 w3 : Nat) : State :=
  let n : Notice := { w0 := noticeW0 kind low, w1 := BitVec.ofNat 32 w1, w2 := BitVec.ofNat 32 w2, w3 := BitVec.ofNat 32 w3 }
  { s with flight := s.flight ++ [{ target := target, notice := n }] }

/-- A notice to the fault target of a tenant, if the tenant was started (R283). -/
def State.postTenant (s : State) (t kind low w1 w2 w3 : Nat) : State :=
  if s.started t then s.post (s.fget (fTENANT_CFG_fault_target t)) kind low w1 w2 w3 else s

/-- A REFUSED notice: cause 1 FENCE, 2 DIE_OFF, 3 ECC (Table 10-5). -/
def State.postRefused (s : State) (t cause : Nat) (write : Bool) (engine addr : Nat) : State :=
  s.postTenant t 9 (cause * 2 ^ 24 + b2n write * 2 ^ 8 + engine % 128) addr 0 0

/-- An ALARM to the supervisor (kind 11): source 1 cluster halter, 2 Cinch, 3 Latigo, 4 Girth. -/
def State.alarm (s : State) (source detail w1 : Nat) : State := s.post 128 11 (source * 2 ^ 24 + detail % 2 ^ 24) w1 0 0

/-! ## Fences (R278–R284) -/

/-- Granule g of region r lies in a valid window of tenant t that permits the direction, in some entry below n. -/
def State.rfenceHit (s : State) (r t g : Nat) (write : Bool) (n : Nat) : Bool :=
  match n with
  | 0 => false
  | e + 1 =>
    (s.fon (fTENANT_RFENCE_valid r e) && s.fget (fTENANT_RFENCE_tenant r e) == t
      && decide (s.fget (fTENANT_RFENCE_first r e) ≤ g) && decide (g ≤ s.fget (fTENANT_RFENCE_last r e))
      && (!write || s.fon (fTENANT_RFENCE_write r e)))
    || s.rfenceHit r t g write e

/-- Granule g of a system space (0 system SRAM, 1 persistent store, 2 flash window) lies in a valid window of tenant t
that permits the direction, in some entry below n. -/
def State.sfenceHit (s : State) (sp t g : Nat) (write : Bool) (n : Nat) : Bool :=
  match n with
  | 0 => false
  | e + 1 =>
    (s.fon (fTENANT_SFENCE_valid e) && s.fget (fTENANT_SFENCE_tenant e) == t && s.fget (fTENANT_SFENCE_space e) == sp
      && decide (s.fget (fTENANT_SFENCE_first e) ≤ g) && decide (g ≤ s.fget (fTENANT_SFENCE_last e))
      && (!write || s.fon (fTENANT_SFENCE_write e)))
    || s.sfenceHit sp t g write e

/-- Every granule from g on, n of them, satisfies p. -/
def allFrom (p : Nat → Bool) (g n : Nat) : Bool :=
  match n with
  | 0 => true
  | k + 1 => p g && allFrom p (g + 1) k

/-- The fenced space of a D-space address: region r, or a system space, and the offset in it. -/
inductive Space where
  | region (r off : Nat)
  | sys (sp off : Nat)
  | none
  deriving DecidableEq, Repr

/-- The fenced space of a supervisor D-space address (Table 1-7). -/
def spaceOf (a : Nat) : Space :=
  if 0x02000000 ≤ a && a < 0x04000000 then .region ((a - 0x02000000) / 0x800000) ((a - 0x02000000) % 0x800000)
  else if 0x04000000 ≤ a && a < 0x04800000 then .sys 0 (a - 0x04000000)
  else if 0x05000000 ≤ a && a < 0x05800000 then .sys 1 (a - 0x05000000)
  else if 0x08000000 ≤ a && a < 0x10000000 then .sys 2 (a - 0x08000000)
  else .none

/-- Every byte of [a, a + len) lies in windows of tenant t that permit the direction (R281). -/
def State.fenceOk (s : State) (t a len : Nat) (write : Bool) : Bool :=
  match spaceOf a with
  | .region r off =>
    decide (off + len ≤ 0x800000)
      && allFrom (fun g => s.rfenceHit r t g write 64) (off / 0x10000) ((off + len - 1) / 0x10000 - off / 0x10000 + 1)
  | .sys sp off =>
    decide (off + len ≤ (if sp = 2 then 0x8000000 else 0x800000))
      && allFrom (fun g => s.sfenceHit sp t g write 32) (off / 0x10000) ((off + len - 1) / 0x10000 - off / 0x10000 + 1)
  | .none => false

/-- The tenant whose valid window holds granule g of region r, in the entries below n. -/
def State.rOwner (s : State) (r g n : Nat) : Option Nat :=
  match n with
  | 0 => none
  | e + 1 =>
    if s.fon (fTENANT_RFENCE_valid r e) && decide (s.fget (fTENANT_RFENCE_first r e) ≤ g)
        && decide (g ≤ s.fget (fTENANT_RFENCE_last r e))
    then some (s.fget (fTENANT_RFENCE_tenant r e)) else s.rOwner r g e

/-- The tenant whose valid window holds granule g of a system space, in the entries below n. -/
def State.sOwner (s : State) (sp g n : Nat) : Option Nat :=
  match n with
  | 0 => none
  | e + 1 =>
    if s.fon (fTENANT_SFENCE_valid e) && s.fget (fTENANT_SFENCE_space e) == sp
        && decide (s.fget (fTENANT_SFENCE_first e) ≤ g) && decide (g ≤ s.fget (fTENANT_SFENCE_last e))
    then some (s.fget (fTENANT_SFENCE_tenant e)) else s.sOwner sp g e

/-- The tenant that owns the granule of an address, if any. -/
def State.ownerOf (s : State) (a : Nat) : Option Nat :=
  match spaceOf a with
  | .region r off => s.rOwner r (off / 0x10000) 64
  | .sys sp off => s.sOwner sp (off / 0x10000) 32
  | .none => none

/-- The fence-violation counter of a target: 0–3 region SRAM, 4 system fence, 5 registers and ports (TENANT_FVIOL). -/
def fviolField (t target : Nat) : Fld :=
  match target with
  | 0 => fTENANT_FVIOL_region0 t
  | 1 => fTENANT_FVIOL_region1 t
  | 2 => fTENANT_FVIOL_region2 t
  | 3 => fTENANT_FVIOL_region3 t
  | 4 => fTENANT_FVIOL_system t
  | _ => fTENANT_FVIOL_register t

/-- A FENCE refusal (R282): REFUSED notice, log entry under the limit of R284, counter. The access itself moves no
byte. `engine` is the issuing engine or 0x7F for a hardware master. -/
def State.refuseFence (s : State) (t engine addr : Nat) (write : Bool) (target : Nat) : State :=
  let s1 := s.postRefused t 1 write engine addr
  let s2 := if tabGet 0 s1.log.fenceCount t < 16 then
      ({ s1 with log := { s1.log with
          fenceCount := tabSet 0 s1.log.fenceCount t (tabGet 0 s1.log.fenceCount t + 1) } } : State).logAdd
        0x0030 t (engine % 128) addr (b2n write) target 0
    else s1
  s2.finc (fviolField t target)

/-- The fence target of an address: its region, or 4. -/
def fenceTarget (a : Nat) : Nat :=
  match spaceOf a with
  | .region r _ => r
  | .sys _ _ => 4
  | .none => 5

/-! ## Reports of check-bit errors -/

/-- A correction counted, its write-back due (R350). -/
def State.noteCorrected (s : State) (k : Nat) : State :=
  let s1 := s.finc (fMEM_CNT_corrected (memCode k))
  if s1.upkeep.wback.contains k then s1 else { s1 with upkeep := { s1.upkeep with wback := s1.upkeep.wback ++ [k] } }

/-- An uncorrectable word reported (R351): counter, MEM_ECC_LAST, log entry under the limit of 16 a frame and memory,
and for region SRAM, system SRAM and the persistent store a REFUSED notice to the owner of the granule (R25). `addr`
is the address of the access, `reader` the engine or 0x7F. -/
def State.noteBad (s : State) (k addr reader : Nat) (write : Bool) : State :=
  let m := memCode k
  let owner := s.ownerOf k
  let s1 := ((((((s.finc (fMEM_CNT_uncorrectable m)).fset fMEM_ECC_LAST_addr (memAddr k)).fset fMEM_ECC_LAST_mem m).fset
    fMEM_ECC_LAST_write (b2n write)).fset fMEM_ECC_LAST_reader reader)).fset fMEM_ECC_LAST_frame s.cinch.frame
  let s2 := if tabGet 0 s1.log.eccCount m < 16 then
      ({ s1 with log := { s1.log with
          eccCount := tabSet 0 s1.log.eccCount m (tabGet 0 s1.log.eccCount m + 1) } } : State).logAdd
        0x0032 (owner.getD 0x80) reader (memAddr k) m (b2n write) 0
    else s1
  match owner with
  | some t => if 2 ≤ m && m ≤ 8 && m ≠ 7 then s2.postRefused t 3 write reader addr else s2
  | none => s2

/-- A read of the aligned word at key k by a hardware master or an engine: the word, whether it may be used, and the
state with the correction or the report made. An unusable word reads 0 (R351). -/
def State.readWord (s : State) (k addr reader : Nat) : BitVec 64 × Bool × State :=
  match s.word64 k with
  | (v, .ok) => (v, true, s)
  | (v, .corrected) => (v, true, s.noteCorrected k)
  | (_, .bad) => (0#64, false, s.noteBad k addr reader false)

/-- The whole words [k, k + 8n) read by a hardware master: their bytes, whether every word was usable, and the state
with every correction and report made. -/
def State.readWords (s : State) (k n reader : Nat) : List Byte × Bool × State :=
  match n with
  | 0 => ([], true, s)
  | m + 1 =>
    let r := s.readWord k k reader
    let rest := r.2.2.readWords (k + 8) m reader
    (leBytes 8 r.1.toNat ++ rest.1, r.2.1 && rest.2.1, rest.2.2)

/-- n bytes at key k read through their check bits (R350, R351). -/
def State.readBytes (s : State) (k n reader : Nat) : List Byte × Bool × State :=
  let k0 := k / 8 * 8
  let r := s.readWords k0 ((k + n + 7) / 8 - k0 / 8) reader
  ((r.1.drop (k - k0)).take n, r.2.1, r.2.2)

/-- A write of part of a word: a read-modify-write (R353). An uncorrectable word aborts it and is reported. -/
def State.writePart (s : State) (k n v addr reader : Nat) (mask : BitVec 72) : State × Bool :=
  let k0 := k / 8 * 8
  match s.word64 k0 with
  | (_, .bad) => (s.noteBad k0 addr reader true, false)
  | (w, st) =>
    let s1 := if st = .corrected then s.noteCorrected k0 else s
    (((s1.setNum k0 8 w.toNat).setNum k n v).setFlip k0 mask, true)

/-- Bytes written by a hardware master word by word: whole words replace their check bits (R352), part words are
read-modify-writes (R353). `fuel` bounds the number of words touched. -/
def State.writeWordsB (s : State) (k : Nat) (bs : List Byte) (fuel : Nat) : State :=
  match fuel with
  | 0 => s
  | m + 1 =>
    let n := min (8 - k % 8) bs.length
    if n = 0 then s
    else
      let s1 := if n = 8 then s.setWord64 k (leNat (bs.take 8)) 0#72
        else (s.writePart k n (leNat (bs.take n)) k 0x7F 0#72).1
      s1.writeWordsB (k + n) (bs.drop n) m

/-- Bytes written by a hardware master. -/
def State.writeBytes (s : State) (k : Nat) (bs : List Byte) : State := s.writeWordsB k bs (bs.length / 8 + 2)

end Sys2Proof.Machine
end

