-- ==== Sys2Proof/Machine/Operands.lean ====
section
/-!
DEFINITION. The operands of Finhit instructions: general registers in their banks (R225, R257), special registers
(R226), addresses and ports (R228), and the waiting that an operand in flight causes (R234).
-/

namespace Sys2Proof.Machine

/-- A task slot of an engine. -/
def Engine.slot (e : Engine) (p : Nat) : Slot := tabGet {} e.slots p

/-- A task slot replaced. -/
def Engine.setSlot (e : Engine) (p : Nat) (sl : Slot) : Engine := { e with slots := tabSet {} e.slots p sl }

/-- A task slot changed. -/
def Engine.modSlot (e : Engine) (p : Nat) (f : Slot → Slot) : Engine := e.setSlot p (f (e.slot p))

/-- General register r of the running slot: x0 reads 0, x1–x15 are shared, x16–x31 are the slot's (R225, R257). -/
def Engine.x (e : Engine) (r : Nat) : Word :=
  if r = 0 then 0#32 else if r < 16 then tabGet 0#32 e.xs r else tabGet 0#32 (e.slot e.cur).xs r

/-- A write to register r of slot p: x0 discards it (R225). -/
def Engine.setXOf (e : Engine) (p r : Nat) (v : Word) : Engine :=
  if r = 0 then e
  else if r < 16 then { e with xs := tabSet 0#32 e.xs r v }
  else e.modSlot p (fun sl => { sl with xs := tabSet 0#32 sl.xs r v })

/-- An outstanding load that would deliver to register r of slot p (x1–x15 have no slot) delivers nothing more: a later
write of the register in program order stands (log entry 14). -/
def dropLoad (p r : Nat) (o : OutAcc) : OutAcc :=
  match o.kind with
  | .load q rd _ => if rd = r && (r < 16 || q = p) then { o with kind := .load q 0 0#32 } else o
  | .loadPair q rd lo hi =>
    if rd = r && (r < 16 || q = p) then { o with kind := .load q (rd + 1) hi }
    else if rd + 1 = r && (r < 16 || q = p) then { o with kind := .load q rd lo } else o
  | _ => o

/-- A write to register r of the running slot by an instruction. -/
def Engine.setX (e : Engine) (r : Nat) (v : Word) : Engine :=
  { (e.setXOf e.cur r v) with outs := if r = 0 then e.outs else e.outs.map (dropLoad e.cur r) }

/-- Predicate i of the running slot: p0 reads 1, p1–p3 are shared, p4–p7 are the slot's (R225, R257). -/
def Engine.p (e : Engine) (i : Nat) : Bool :=
  if i = 0 then true else if i < 4 then bitN e.p13.toNat (i - 1) else bitN (e.slot e.cur).p47.toNat (i - 4)

/-- Bit k of a bit vector set to b. -/
def putBit {n : Nat} (v : BitVec n) (k : Nat) (b : Bool) : BitVec n :=
  BitVec.ofNat n (v.toNat - b2n (bitN v.toNat k) * 2 ^ k + b2n b * 2 ^ k)

/-- A write to predicate i: p0 discards it (R225). -/
def Engine.setP (e : Engine) (i : Nat) (b : Bool) : Engine :=
  if i = 0 then e
  else if i < 4 then { e with p13 := putBit e.p13 (i - 1) b }
  else e.modSlot e.cur (fun sl => { sl with p47 := putBit sl.p47 (i - 4) b })

/-- The program counter of the running slot (R257). -/
def Engine.pc (e : Engine) : Word := (e.slot e.cur).pc

/-- The program counter set. -/
def Engine.setPc (e : Engine) (v : Word) : Engine := e.modSlot e.cur (fun sl => { sl with pc := v })

/-- What one update makes of MH:ML (R241). -/
def mulApply (op : MulOp) (m : BitVec 64) : BitVec 64 :=
  match op with
  | .mul a b => a.signExtend 64 * b.signExtend 64
  | .mulu a b => a.setWidth 64 * b.setWidth 64
  | .mac a b => m + a.signExtend 64 * b.signExtend 64
  | .setLo a => m.extractLsb' 32 32 ++ a
  | .setHi a => a ++ m.extractLsb' 0 32

/-- An update is issued to the multiplier, which applies it 3 cycles later (R242). -/
def Engine.mulIssue (e : Engine) (op : MulOp) : Engine := { e with mulq := e.mulq ++ [(op, 3)] }

/-- k cycles of the island pass at a core: the multiplier applies what was issued 3 cycles ago, in issue order (R242), and a
narrow store frees the local memory port (R235). -/
def Engine.tick (e : Engine) (k : Nat) : Engine :=
  { e with
    mac := (e.mulq.takeWhile (fun x => decide (x.2 ≤ k))).foldl (fun m x => mulApply x.1 m) e.mac
    mulq := (e.mulq.dropWhile (fun x => decide (x.2 ≤ k))).map (fun x => (x.1, x.2 - k))
    dport := e.dport - k }

/-- The program counter past this instruction (R236). -/
def Engine.adv (e : Engine) : Engine := e.setPc (e.pc + 4#32)

/-- The register r of the running slot waits for a load (R234). -/
def Engine.inFlight (e : Engine) (r : Nat) : Bool :=
  decide (r ≠ 0) && e.outs.any (fun o =>
    match o.kind with
    | .load q rd _ => rd == r && (decide (r < 16) || q == e.cur)
    | .io q rd _ => rd == r && (decide (r < 16) || q == e.cur)
    | .loadPair q rd _ _ => (rd == r || rd + 1 == r) && (decide (r < 16) || q == e.cur)
    | _ => false)

/-- The D-space address or port base of an access: rs1 + sext(imm12) (R228). -/
def effAddr (a : Word) (imm : BitVec 12) : Word := a + sext imm

/-- The frequency of a cluster's island in MHz: ENGCTL_CL freq (R22); the supervisor's 800 MHz (R255). -/
def State.mhz (s : State) (c : Nat) : Nat := if c = 16 then 800 else 100 * (s.fget (fENGCTL_CL_freq c) + 1)

/-- Island cycles of a cluster since its release (CYCLO, R226), from the monotonic 40 MHz count. -/
def State.cyclo (s : State) (c : Nat) : Nat :=
  let cl := s.clu c
  (if cl.released then cl.cyc2 + (s.mono - cl.cycAt) * (s.mhz c / 20) else cl.cyc2) / 2

/-- The cluster record of a core: 16 for the supervisor. -/
def coreCluster (n : Nat) : Nat := if n = 128 then 16 else clusterOf n

/-- ENGID (Table 9-1, R255). -/
def State.engId (s : State) (n : Nat) : Word :=
  if n = 128 then 0xFFFFFFFF#32 else BitVec.ofNat 32 (n + s.engTenant n * 256)

/-- PR: bits [7:1] are p7–p1, bit 0 reads 1 (Table 9-1). -/
def Engine.pr (e : Engine) : Word :=
  BitVec.ofNat 32 (1 + e.p13.toNat * 2 + (e.slot e.cur).p47.toNat * 16)

/-- A write to PR: bit 0 and bits [31:8] are ignored (Table 9-1). -/
def Engine.setPr (e : Engine) (v : Word) : Engine :=
  { e with p13 := v.extractLsb' 1 3 }.modSlot e.cur (fun sl => { sl with p47 := v.extractLsb' 4 4 })

end Sys2Proof.Machine
end

