-- ==== Sys2Proof/Machine/Links.lean ====
section
/-!
DEFINITION. The Latigo links as their clients see them: which exist, their state, the transactions outstanding and the
room for one more (R39, R40). Errors, retraining and timeouts are in Latigo.lean.
-/

namespace Sys2Proof.Machine

/-- Link n exists on this variant (R39). -/
def State.hasLink (s : State) (n : Nat) : Bool := decide (n < 5) && (decide (n < 2) || Config.hasDie1 s.variant)

/-- State of a link: 0 DOWN, 1 TRAIN, 2 UP, 3 RETRAIN. -/
def State.linkState (s : State) (n : Nat) : Nat := s.fget (fLATIGO_STATUS_state n)

/-- The outstanding transactions of a link: number, and whether it goes toward the end at compute die 0. -/
def State.linkTxns (s : State) (n : Nat) : List (Nat × Bool) := tabGet [] s.pkg.links n

/-- The transactions of a link replaced; LATIGO_STATUS counts them by direction. -/
def State.setTxns (s : State) (n : Nat) (xs : List (Nat × Bool)) : State :=
  let s1 : State := { s with pkg := { s.pkg with links := tabSet [] s.pkg.links n xs } }
  (s1.fset (fLATIGO_STATUS_out_rx n) (xs.filter (fun x => x.2)).length).fset (fLATIGO_STATUS_out_tx n)
    (xs.filter (fun x => !x.2)).length

/-- The link that an access of core n to D-space address a crosses, and its direction (Table 1-5, R49). Link 4 has no end
at compute die 0; what crosses it leaves compute die 1, and the model counts it in out_tx (DESIGN CHOICE, log entry 78). -/
def linkOf (n a : Nat) : Option (Nat × Bool) :=
  let far := 64 ≤ n && n ≠ 128
  if 0x10100000 ≤ a && a < 0x10200000 then some (if far then 4 else 1, false)
  else
    let die1 := 0x03000000 ≤ a && a < 0x04000000
    if die1 == far then none else some (2, far)

/-- A transaction on link n may start: the link is UP and has room (R40). -/
def State.linkFree (s : State) (n : Nat) (toward : Bool) : Bool :=
  s.linkState n == 2 && decide (((s.linkTxns n).filter (fun x => x.2 == toward)).length < 64)

/-- A transaction starts; its number. -/
def State.txnStart (s : State) (n : Nat) (toward : Bool) : Nat × State :=
  let k := s.pkg.nextTxn
  let s1 : State := { s with pkg := { s.pkg with nextTxn := k + 1 } }
  (k, s1.setTxns n (s1.linkTxns n ++ [(k, toward)]))

/-- The link between the two compute dies, for traffic from core n to core or unit `far` (true: on compute die 1). -/
def dieLink (n : Nat) (far : Bool) : Option (Nat × Bool) :=
  let mine := decide (64 ≤ n) && n != 128
  if mine == far then none else some (2, mine)

/-- The link by which engine n reaches the radio die, for result ports, submissions and cancels (Table 1-5). -/
def radioLink (n : Nat) : Nat × Bool := (if 64 ≤ n && n ≠ 128 then 4 else 1, false)

/-! ## The arbiter of a link entry (R273, Table 10-6) -/

/-- The priority a slot's request carries: capped at the tenant's max_prio (R273). -/
def State.reqPrio (s : State) (n : Nat) (e : Engine) : Nat :=
  if n = 128 then (e.slot e.cur).prio else min (e.slot e.cur).prio (s.fget (fENGCTL_TPRIO_max_prio (s.engTenant n)))

/-- A waiting request stands while its core still has that instruction of that slot before it. -/
def State.reqLive (s : State) (r : LinkReq) : Bool :=
  let e := s.eng r.core
  e.run == .running && e.cur == r.slot && e.pc == r.pc

/-- Request a enters before b: higher priority, then older, then the supervisor and the engines by number. -/
def reqBefore (a b : LinkReq) : Bool :=
  let order (n : Nat) : Nat := if n = 128 then 0 else n + 1
  if a.prio ≠ b.prio then decide (b.prio < a.prio)
  else if a.age ≠ b.age then decide (a.age < b.age)
  else decide (order a.core < order b.core)

/-- The request of core n for a link: the one that waits, or a new one. -/
def State.linkReq (s : State) (n k : Nat) (toward : Bool) : LinkReq :=
  let e := s.eng n
  match s.pkg.linkWait.find? (fun r => r.core == n && r.link == k && r.toward == toward && s.reqLive r) with
  | some r => r
  | none => { link := k, toward := toward, core := n, slot := e.cur, pc := e.pc, prio := s.reqPrio n e, age := s.age }

/-- The request of core n enters the link it needs, if any, now: the link has room (R40) and no other request that waits for
it goes before (R273). -/
def State.linkGrants (s : State) (n : Nat) (l : Option (Nat × Bool)) : Bool :=
  match l with
  | none => true
  | some (k, toward) => s.linkFree k toward &&
      s.pkg.linkWait.all (fun r =>
        r.link != k || r.toward != toward || r.core == n || !s.reqLive r || !reqBefore r (s.linkReq n k toward))

/-- The waiting requests of core n gone, with those that no longer stand. -/
def State.linkLeave (s : State) (n : Nat) : State :=
  { s with pkg := { s.pkg with linkWait := s.pkg.linkWait.filter (fun r => r.core != n && s.reqLive r) } }

/-- The request of core n waits for the link that it needs and does not enter (R40, R273). -/
def State.linkHold (s : State) (n : Nat) (l : Option (Nat × Bool)) : State :=
  match l with
  | none => s
  | some (k, toward) =>
    if s.linkGrants n l then s
    else
      let s1 := s.linkLeave n
      { s1 with age := s1.age + 1, pkg := { s1.pkg with linkWait := s1.pkg.linkWait ++ [s.linkReq n k toward] } }

/-! ## Requests without a core -/

/-- A link that a request needs, if any, can take it now (R40). -/
def State.linkOpen (s : State) (l : Option (Nat × Bool)) : Bool :=
  match l with
  | some (k, toward) => s.linkFree k toward
  | none => true

/-- The transaction a request takes on the link it crosses, if it crosses one, and the state that holds it (R40). -/
def State.linkTake (s : State) (l : Option (Nat × Bool)) : Option (Nat × Nat) × State :=
  match l with
  | some (k, toward) => (some (k, (s.txnStart k toward).1), (s.txnStart k toward).2)
  | none => (none, s)

/-- The transaction that the request of core n takes on its link (R40), with nothing of that core waiting any more. -/
def State.linkEnter (s : State) (n : Nat) (l : Option (Nat × Bool)) : Option (Nat × Nat) × State :=
  match l with
  | some _ => (s.linkLeave n).linkTake l
  | none => (none, s)

/-- A transaction, if there is one, completes. -/
def State.linkDone (s : State) (t : Option (Nat × Nat)) : State :=
  match t with
  | some (k, j) => s.setTxns k ((s.linkTxns k).filter (fun x => x.1 != j))
  | none => s

/-- The link that soft bits and sync records cross to their home region (Table 1-5). -/
def softLink (region : Nat) : Nat := if region < 2 then 0 else 3

/-- Soft bits and sync records reach home region r: its link is UP (R39, R42). -/
def State.softOpen (s : State) (region : Nat) : Bool := s.linkState (softLink region) == 2

end Sys2Proof.Machine
end

