-- ==== Sys2Proof/Machine/RegRules.lean ====
section
/-!
DEFINITION. Rules that every write of a register obeys, by firmware or by CONFIG: registers of absent units (R5, R39) and
values that a field does not take.
-/

namespace Sys2Proof.Machine

/-! ## Places of a register row -/

/-- The address lies in n places of this stride from base on. -/
def within (a base n stride : Nat) : Bool := decide (base ≤ a) && decide (a < base + n * stride)

/-- The register belongs to a unit that this variant lacks: it reads 0 and discards writes (R5, R39). -/
def State.regAbsent (s : State) (a : Nat) : Bool :=
  if within a 0x10140000 512 0x100 then decide (Config.receivers s.variant ≤ (a - 0x10140000) / 0x100)
  else if within a 0x10204000 512 4 then decide (Config.receivers s.variant ≤ (a - 0x10204000) / 4)
  else if within a 0x10100020 1 0x20 || within a 0x10100180 8 0x10 || within a 0x10100480 1 0x80 then
    !Config.hasB s.variant
  else if within a 0x100C0000 5 0x40 then !s.hasLink ((a - 0x100C0000) / 0x40)
  else if within a 0x10300000 16 0x100 then decide (Config.clusters s.variant ≤ (a - 0x10300000) / 0x100)
  else if within a 0x10081000 4 0x100 then !s.hasRegion ((a - 0x10081000) / 0x100)
  else if within a 0x10200010 8 4 then !s.hasRegion ((a - 0x10200010) / 8)
  else if within a 0x10200100 4 0x40 then !s.hasRegion ((a - 0x10200100) / 0x40)
  else if within a 0x10201000 4 0x400 then !s.hasRegion ((a - 0x10201000) / 0x400)
  else if within a 0x10208000 16 0x100 then
    let off := a % 0x100
    !s.hasRegion (if off < 0x10 then off / 4 else (off - 0x10) / 0x10)
  else false

/-! ## Values a field does not take -/

/-- Fields whose values have a range: register row, lowest bit, least and greatest value. A write outside it leaves the
field. -/
def fieldRanges : List (Nat × Nat × Nat × Nat) :=
  [(aLATIGO_TIMEOUT 0, 0, 8, 1000), (aSYS_THERMAL_CFG, 0, 60, 115), (aGIRTH_PACK_CFG, 16, 1, 65535),
   (aGIRTH_DAY, 0, 0, 86399), (aSTIRRUP_CFG, 0, 380000, 960000), (aSURV_CFG, 16, 60, 65535), (aSURV_CFG, 0, 500, 65535),
   (aCINCH_SERVO, 8, 1, 65535), (aCINCH_SERVO, 0, 1, 20), (aCINCH_PPS_CFG, 28, 0, 14), (aCINCH_PTP_CFG 0, 28, 0, 14),
   (aMEM_BURN_CFG, 0, 1, 168), (aXSPI_CTRL, 16, 50, 5000), (aTABLE_CFG, 0, 1, 65535), (aRELAY_CTRL, 16, 1, 255),
   (aRELAY_CTRL, 8, 1, 15), (aRELAY_CTRL, 0, 1, 255), (aRELAY_TCFG 0, 24, 0, 6), (aETH_MGMT_CFG, 0, 2, 15),
   (aPINMUX_CINCH_OUT, 16, 1, 500), (aPINMUX_PPS, 16, 1, 500), (aSPI_CFG, 0, 1, 65535), (aI2C_CFG, 0, 1, 65535),
   (aRADIO_TX_FE 0, 8, 2, 64), (aRADIO_TX_FE 0, 0, 1, 63), (aRADIO_RX_DET_CFG 0, 18, 10, 10000),
   (aRADIO_RX_DET_CFG 0, 9, 1, 511), (aRADIO_RX_DET_CFG 0, 0, 1, 511), (aDECODER_CAP, 8, 1, 16), (aDECODER_CAP, 0, 1, 50),
   (aENGCTL_CL 0, 0, 10, 1000000), (aTENANT_CIPHER 0, 24, 1, 4)]

/-- An EtherType that ETH_TYPE takes. -/
def etherTypeOk (v : Nat) : Bool := decide (0x0600 ≤ v) && v != 0x8100 && v != 0x8808 && v != 0x88F7

/-- A field of the row at `base` takes the value. -/
def fieldTakes (base : Nat) (f : FieldDesc) (v : Nat) : Bool :=
  if base = aETH_TYPE 0 then etherTypeOk v
  else
    match fieldRanges.find? (fun r => r.1 == base && r.2.1 == f.lo) with
    | some r => decide (r.2.2.1 ≤ v) && decide (v ≤ r.2.2.2)
    | none => true

/-- The word a write leaves in a register of row d: each field by its code, where it takes its value (Table 0-2). -/
def descTake (d : RegDesc) (v hw w : Word) (locked : Bool) : Word :=
  d.fields.foldl (fun acc f =>
    if fieldTakes d.base f (fldOf f.lo (f.hi - f.lo + 1) v) || f.acc == .w1c then fieldWrite f v hw acc locked
    else acc) w

end Sys2Proof.Machine
end

