-- ==== Sys2Proof/Machine/Access.lean ====
section
/-!
DEFINITION. Who may reach a register (R48, R280, Table 11-4, R5), and instants of Cinch time (R187, R188).
-/

namespace Sys2Proof.Machine

/-! ## Masters -/

/-- The tenant tag of a master's access: none for the supervisor and the debug port (R277). -/
def State.tagOf (s : State) (m : Master) : Option Nat :=
  match m with
  | .core (.eng n) => some (s.engTenant n.toNat)
  | _ => none

/-- The engine that a refusal names: 0x7F for the supervisor and the debug port. -/
def masterEng (m : Master) : Nat :=
  match m with
  | .core (.eng n) => n.toNat
  | _ => 0x7F

/-- The core a master's notices go to; the debug port has none and counts as the supervisor. -/
def masterCore (m : Master) : Nat :=
  match m with
  | .core c => coreNum c
  | .dbg => 128

/-- A register granule that tenant t reaches in the direction (Table 11-4). -/
def State.tenantReg (s : State) (t a : Nat) (write : Bool) : Bool :=
  let g := a / 256 * 256
  if g = 0x10021000 then !write && s.started t
  else if g = 0x10030100 then !write && s.started t
  else if 0x10031000 ≤ g && g < 0x10032000 then
    let n := (g - 0x10031000) / 0x100
    s.started t && !s.fon (fTMR_CFG_sup n) && s.fget (fTMR_CFG_owner n) == t
  else if g = 0x10018000 + t * 0x100 then !write && s.started t
  else if 0x10070000 ≤ g && g < 0x10070400 then bitN (s.fget (fTABLE_PORT_OWN_tenants ((g - 0x10070000) / 0x100))) t
  else if g = 0x10088000 + t * 0x100 then !write
  else if 0x10140000 ≤ g && g < 0x10160000 then s.fget (fRADIO_RX_CFG_tenant ((g - 0x10140000) / 0x100)) == t
  else if g = 0x10208000 + t * 0x100 then !write
  else if 0x10300000 ≤ g && g < 0x10301000 then !write && s.clusterTenant ((g - 0x10300000) / 0x100) == some t
  else false

/-- The access of a master to a register is allowed (R48, R280). -/
def State.regAllowed (s : State) (m : Master) (a : Nat) (write : Bool) : Bool :=
  match s.tagOf m with
  | none => true
  | some t => s.tenantReg t a write

/-- The debug port acts as the supervisor: scope FULL (R412). -/
def State.dbgFull (s : State) : Bool := s.fget fSYS_DBG_scope == 2

/-- A master can reach a register now: firmware runs from step 12 on (Table 2-2, R53, R65), the debug port needs scope FULL
and a package out of reset (R411, R412), and the Latigo link that the access crosses has room (R40, R49). While the core
has no power neither holds, so writes to always-on registers are blocked (Table 13-9). -/
def State.regReach (s : State) (m : Master) (a : Nat) : Bool :=
  (match m with
    | .dbg => s.dbgFull && s.pkg.stage != .hold
    | .core _ => s.pkg.stage == .run)
  && s.linkOpen (linkOf (masterCore m) a)

/-- An access of a master to a register takes place: it reaches it and is allowed. -/
def State.regOpen (s : State) (m : Master) (a : Nat) (write : Bool) : Bool := s.regReach m a && s.regAllowed m a write

/-- An access of a master to a register: its effect where it takes place, a refusal where it is not allowed (R282); one
that does not reach the register has no effect, and a sender repeats what a full link held. -/
def State.regGate (s : State) (m : Master) (a : Nat) (k : State → State) : State :=
  if s.regOpen m a true then k s
  else if s.regReach m a then s.refuseFence ((s.tagOf m).getD 0) (masterEng m) a true 5
  else s

/-- A read of a register by a master, by its effect, under the conditions of a write. -/
def State.regGateRead (s : State) (m : Master) (a : Nat) (k : State → State) : State :=
  if s.regOpen m a false then k s
  else if s.regReach m a then s.refuseFence ((s.tagOf m).getD 0) (masterEng m) a false 5
  else s

/-! ## Instants -/

/-- Nanoseconds of the current frame (R187). -/
def State.nowNs (s : State) : Nat := s.cinch.tu / 8000000000

/-- Length in ns of the current frame: nominal until it is decided at D (R186, R194). -/
def State.frameLen (s : State) : Nat := (1000000000 + s.cinch.adj).toNat

/-- Length in ns of the last n frames together, each as it was; frames before those kept count as nominal. -/
def State.lastLens (s : State) (n : Nat) : Int := (s.cinch.adjs.take n).foldl (· + ·) 0 + (n : Int) * 1000000000

/-- Nanoseconds from now to the instant (f, x), negative when it has passed: x counts from the start of frame f whatever
the lengths of the frames it passes (R188). A frame that has not begun counts as nominal. -/
def State.untilNs (s : State) (f x : Nat) : Int :=
  let d := signedN 32 (f + 2 ^ 32 - s.cinch.frame % 2 ^ 32)
  let here : Int := (x : Int) - s.nowNs
  if 0 < d then here + s.frameLen + (d - 1) * 1000000000 else here - s.lastLens (-d).toNat

/-- The instant of now. -/
def State.nowInstant (s : State) : Nat × Nat := (s.cinch.frame, s.nowNs)

/-- An instant d ns after (f, x), kept as (f, x + d) without reducing it (R188). -/
def instantAdd (f x d : Nat) : Nat × Nat := (f, x + d)

/-- An instant d ns before (f, x); below the start of frame f the frame number goes down by one, and the length of the
frame before is added as it was when that is the last frame (R114). -/
def State.instantSub (s : State) (f x d : Nat) : Nat × Nat :=
  if d ≤ x then (f, x - d)
  else
    let len : Int := if f = s.cinch.frame then 1000000000 + s.cinch.lastAdj else 1000000000
    ((f + 2 ^ 32 - 1) % 2 ^ 32, (len + x - d).toNat)

end Sys2Proof.Machine
end

