-- ==== Sys2Proof/Machine/NodeTab.lean ====
section
/-!
DEFINITION. Node-table entries (R206–R210), node energy accounts (R336–R338) and the sweeper (R216).
-/

namespace Sys2Proof.Machine

/-! ## Node-table entries (Table 8-1) -/

/-- A node-table entry. -/
structure Node where
  id : Nat := 0
  valid : Bool := false
  pinned : Bool := false
  hit : Bool := false
  clear1 : Bool := false
  pend : Bool := false
  here : Bool := false
  tenant : Nat := 0
  record : Nat := 0
  home : Nat := 0
  receiver : Nat := 0
  branch : Nat := 0
  mode : Nat := 0
  ctr : Nat := 0
  heard : Nat := 0
  rssi : Nat := 0
  vcount : Nat := 0
  user : Nat := 0
  deriving DecidableEq, Repr

/-- Word i of some bytes, little-endian. -/
def wordAt (bs : List Byte) (i : Nat) : Nat := leNat ((bs.drop (4 * i)).take 4)

/-- The entry that 32 bytes hold. -/
def nodeOf (bs : List Byte) : Node :=
  let w1 := wordAt bs 1
  let w2 := wordAt bs 2
  { id := wordAt bs 0, valid := bitN w1 31, pinned := bitN w1 30, hit := bitN w1 29, clear1 := bitN w1 28,
    pend := bitN w1 27, here := bitN w1 26, tenant := bitsN w1 25 22, record := bitsN w1 16 0,
    home := bitsN w2 31 20, receiver := bitsN w2 19 11, branch := bitsN w2 10 10, mode := bitsN w2 9 6,
    ctr := wordAt bs 3, heard := wordAt bs 4, rssi := bitsN (wordAt bs 5) 31 16, vcount := bitsN (wordAt bs 5) 15 0,
    user := wordAt bs 6 }

/-- The 32 bytes of an entry; reserved fields are 0. -/
def nodeBytes (n : Node) : List Byte :=
  leBytes 4 n.id
    ++ leBytes 4 (b2n n.valid * 2 ^ 31 + b2n n.pinned * 2 ^ 30 + b2n n.hit * 2 ^ 29 + b2n n.clear1 * 2 ^ 28
        + b2n n.pend * 2 ^ 27 + b2n n.here * 2 ^ 26 + n.tenant * 2 ^ 22 + n.record)
    ++ leBytes 4 (n.home * 2 ^ 20 + n.receiver * 2 ^ 11 + n.branch * 2 ^ 10 + n.mode * 2 ^ 6)
    ++ leBytes 4 n.ctr ++ leBytes 4 n.heard ++ leBytes 4 (n.rssi * 2 ^ 16 + n.vcount) ++ leBytes 4 n.user
    ++ leBytes 4 0

/-- The set of a node ID (R206). -/
def State.nodeSet (s : State) (id : Nat) : Nat :=
  Nat.xor (Nat.xor (bitsN id 13 0) (bitsN id 27 14)) (Nat.xor (bitsN id 31 28) (s.fget fTABLE_CFG_hash_salt)) % 16384

/-- Address of a way of a set. -/
def nodeAddr (set way : Nat) : Nat := 0x04000000 + set * 0x100 + way * 0x20

/-- An entry read by the node-table unit: an uncorrectable word makes the way invalid (Table 14-2). -/
def State.nodeRead (s : State) (a : Nat) : Node × State :=
  let r := s.readWords a 4 0x7F
  (if r.2.1 then nodeOf r.1 else {}, r.2.2)

/-- An entry written. -/
def State.nodeWrite (s : State) (a : Nat) (n : Node) : State := s.writeBytes a (nodeBytes n)

/-- The ways of a set, from way w on, k of them, with the state that has read them. -/
def State.nodeWays (s : State) (set w k : Nat) : List (Nat × Node) × State :=
  match k with
  | 0 => ([], s)
  | j + 1 =>
    let r := s.nodeRead (nodeAddr set w)
    let rest := r.2.nodeWays set (w + 1) j
    ((w, r.1) :: rest.1, rest.2)

/-- The way of a node ID in its set, if it has an entry. -/
def State.nodeLookup (s : State) (id : Nat) : Option (Nat × Node) × State :=
  let set := s.nodeSet id
  let r := s.nodeWays set 0 8
  ((r.1.find? (fun e => e.2.valid && e.2.id == id)).map (fun e => (nodeAddr set e.1, e.2)), r.2)

/-- Valid entries whose word 1 satisfies p: counted over the stored bytes of the table. -/
def State.nodeCount (s : State) (p : Nat → Bool) : Nat :=
  (s.mem.filter (fun e => 0x04000000 ≤ e.1 && e.1 < 0x04400000 && e.1 % 32 == 7 && bitN e.2.toNat 7
    && p (s.num (e.1 - 3) 4))).length

/-- Entries of tenant t. -/
def State.nodeEntries (s : State) (t : Nat) : Nat := s.nodeCount (fun w => bitsN w 25 22 == t)

/-- Pinned entries of tenant t. -/
def State.nodePinned (s : State) (t : Nat) : Nat := s.nodeCount (fun w => bitsN w 25 22 == t && bitN w 30)

/-- The device number (RELAY_DEVADDR). -/
def State.device (s : State) : Nat := s.fget fRELAY_DEVADDR_device

/-- An ID in the node range of R157. -/
def isNodeId (id : Nat) : Bool := decide (1 ≤ id) && decide (id ≤ 0xFFFDFFFF)

/-! ## The sweeper (R216) -/

/-- One entry swept: kept, marked clear, or removed. -/
def Node.sweep (n : Node) : Node :=
  if n.hit then { n with hit := false, clear1 := false }
  else if !n.clear1 then { n with clear1 := true }
  else { n with valid := false }

/-- One way of a set swept. -/
def State.sweepWay (s : State) (a : Nat) : State :=
  let r := s.nodeRead a
  if r.1.valid && !r.1.pinned then
    let m := r.1.sweep
    let s1 := r.2.nodeWrite a m
    if m.valid then s1 else s1.finc fTABLE_COUNT_swept
  else r.2

/-- SWEEP_STEP: the sweeper visits its next set; not while off or in SLEEP and below. -/
def execSweepStep (s : State) : Host.Outcome State Fault Refusal :=
  .next (s.iff (s.fon fTABLE_CFG_sweep_en && s.pkg.power.awake) (fun t =>
    let set := t.relay.sweepSet
    let t1 := (List.range 8).foldl (fun u w => u.sweepWay (nodeAddr set w)) t
    { t1 with relay := { t1.relay with sweepSet := (set + 1) % 16384 } }))

/-! ## Node energy accounts (R336, R337) -/

/-- A node energy account (Table 13-4). -/
structure Account where
  allowance : Nat := 0
  spent : Nat := 0
  day : Nat := 0
  cls : Nat := 0
  enforce : Bool := false
  denied : Bool := false
  life : Nat := 0
  deriving DecidableEq, Repr

/-- Address of the account of a record. -/
def acctAddr (n : Nat) : Nat := 0x05400000 + n * 0x10

/-- The account that 16 bytes hold. -/
def acctOf (bs : List Byte) : Account :=
  let w2 := wordAt bs 2
  { allowance := wordAt bs 0, spent := wordAt bs 1, day := bitsN w2 15 0, cls := bitsN w2 19 16, enforce := bitN w2 20,
    denied := bitN w2 21, life := wordAt bs 3 }

/-- The 16 bytes of an account. -/
def acctBytes (a : Account) : List Byte :=
  leBytes 4 a.allowance ++ leBytes 4 a.spent
    ++ leBytes 4 (a.day + a.cls * 2 ^ 16 + b2n a.enforce * 2 ^ 20 + b2n a.denied * 2 ^ 21) ++ leBytes 4 a.life

/-- The node day (R337). -/
def State.nodeDay (s : State) : Nat := (s.rtc.sec + s.fget fGIRTH_DAY_day_offset_s) / 86400

/-- An account read, as zeros with log ACCT_RESET when a word is uncorrectable (Table 14-2), and rolled over to the
current day (R337). -/
def State.acctTouch (s : State) (n : Nat) : Account × State :=
  let r := s.readWords (acctAddr n) 2 0x7F
  let s1 := if r.2.1 then r.2.2 else r.2.2.logHw 0x0050 n 0 0
  let a : Account := if r.2.1 then acctOf r.1 else {}
  let d := s1.nodeDay % 65536
  (if a.day = d then a else { a with spent := 0, day := d, denied := false }, s1)

/-- An account written. -/
def State.acctPut (s : State) (n : Nat) (a : Account) : State := s.writeBytes (acctAddr n) (acctBytes a)

/-- A charge added to an account. The spec states neither the result of a sum beyond 32 bits nor how µJ round to mJ, so
both take a free value (log entry 31). The mJ added are returned. -/
def State.acctCharge (s : State) (n : Nat) (a : Account) (uj : Nat) : Nat × State :=
  let f := s.free 32
  let r := f.2.free 10
  let mj := (uj + r.1.toNat % 1000) / 1000
  let spent := if a.spent + uj < 2 ^ 32 then a.spent + uj else f.1.toNat
  (mj, r.2.acctPut n { a with spent := spent, life := min 0xFFFFFFFF (a.life + mj) })

/-- A charge credited back: to the day it was made in, and to life_mj (R338). -/
def State.acctCredit (s : State) (n uj day mj : Nat) : State :=
  let r := s.acctTouch n
  r.2.acctPut n { r.1 with spent := if r.1.day = day then r.1.spent - uj else r.1.spent, life := r.1.life - mj }

/-- A node class rate over an airtime in thirds of a ns, in µJ rounded up (R337). -/
def ujOfTime (rate thirds : Nat) : Nat := (rate * thirds + 2999999) / 3000000

end Sys2Proof.Machine
end

