-- ==== Sys2Proof/Machine/Phy.lean ====
section
/-!
DEFINITION. The Rein and Form-1 physical layer (chapters 5 and 18): channel widths, airtimes, headers, the LDPC codes,
whitening and the bits of a frame on the air; and the fused sub-bands (R103, R104).
-/

namespace Sys2Proof.Machine

/-! ## Modes -/

/-- Width in Hz of the channel of a mode (Table 4-2; WAKE: R81). Codes: 0 N1, 1 N2, 2 N3, 3 W1, 4 W2, 5 WAKE, 6 F1. -/
def modeWidth (mode : Nat) : Nat :=
  match mode with
  | 0 | 6 => 12500
  | 1 => 100000
  | 2 | 5 => 200000
  | _ => 2000000

/-- Width code of Table 4-2 for a mode; WAKE has none. -/
def modeWidthCode (mode : Nat) : Option Nat :=
  match mode with
  | 0 | 6 => some 0
  | 1 => some 1
  | 2 => some 2
  | 3 | 4 => some 3
  | _ => none

/-- Time of one bit in thirds of a nanosecond (Table 5-1; F1 4.8 kb/s, R419). -/
def bitThirds (mode : Nat) : Nat :=
  match mode with
  | 0 => 480000
  | 1 => 120000
  | 2 => 30000
  | 3 => 12000
  | 4 => 3000
  | 5 => 1500000
  | _ => 625000

/-- Bits before the PSDU (Table 5-2, R419). -/
def headBits (mode : Nat) : Nat :=
  match mode with
  | 0 | 1 => 88
  | 2 | 4 => 120
  | 3 => 48
  | 5 => 0
  | _ => 64

/-- Bits of preamble and sync word (Table 5-2, R202). -/
def syncBits (mode : Nat) : Nat :=
  match mode with
  | 0 | 1 => 64
  | 2 | 4 => 96
  | 3 => 40
  | _ => 64

/-- The mode carries a Golay header, whitening and perhaps a code: N1, N2, N3, W2. -/
def modeCoded (mode : Nat) : Bool := mode < 3 || mode == 4

/-- Information bits k of a code (Table 5-4): 1 L1, 2 L2, 3 L3. -/
def codeK (code : Nat) : Nat := if code % 4 = 1 then 256 else 1024

/-- Codewords of a PSDU of len bytes (R139); an uncoded frame has none. -/
def codewords (code len : Nat) : Nat :=
  if code % 4 = 0 then 0 else (8 * len + codeK code - 1) / codeK code

/-- Bytes in codeword j of m (R139). -/
def cwBytes (len m j : Nat) : Nat := len / m + (if j < len % m then 1 else 0)

/-- First byte of codeword j of m. -/
def cwFirst (len m j : Nat) : Nat := j * (len / m) + min j (len % m)

/-- Bits of the coded PSDU (R140). -/
def psduBits (mode code len : Nat) : Nat :=
  if modeCoded mode then
    match code % 4 with
    | 0 => 8 * len
    | 3 => 12 * len
    | _ => 16 * len
  else 8 * len

/-- Airtime T of a frame without ramps, in thirds of a nanosecond (R140). -/
def airThirds (mode code len : Nat) : Nat := (headBits mode + psduBits mode code len) * bitThirds mode

/-- Nanoseconds, rounded up, of a time in thirds. -/
def thirdsNs (t : Nat) : Nat := (t + 2) / 3

/-- Duty units of a carrier: ⌈(T + 2 ramp) / 10 µs⌉, twice for F1 (R182, R429). -/
def dutyUnits (mode code len rampUs : Nat) : Nat :=
  (airThirds mode code len + 2 * rampUs * 3000 + 29999) / 30000 * (if mode = 6 then 2 else 1)

/-! ## LDPC (R137–R139) -/

/-- Information blocks of each row of Table 5-5: (block column, shift). -/
def baseL12 : List (List (Nat × Nat)) :=
  [[(0, 57), (2, 3), (4, 91), (6, 110)], [(1, 24), (3, 75), (5, 48), (7, 12)],
   [(0, 102), (2, 66), (5, 9), (7, 83)], [(1, 37), (3, 120), (4, 30), (6, 71)],
   [(0, 19), (3, 44), (5, 88), (6, 27)], [(1, 99), (2, 15), (4, 63), (7, 40)],
   [(0, 78), (3, 6), (5, 116), (7, 59)], [(1, 33), (2, 94), (4, 21), (6, 85)]]

/-- Shifts of block column 8 in each row of Table 5-5. -/
def colL12 : List (Option Nat) := [some 1, none, none, some 0, none, none, none, some 1]

/-- Information blocks of each row of Table 5-6. -/
def baseL3 : List (List (Nat × Nat)) :=
  [[(0, 13), (2, 101), (3, 58), (4, 7), (5, 86), (7, 122)], [(1, 45), (2, 29), (3, 96), (5, 3), (6, 71), (7, 54)],
   [(0, 112), (1, 8), (2, 67), (4, 39), (5, 125), (6, 17)], [(0, 50), (1, 90), (3, 22), (4, 104), (6, 36), (7, 81)]]

/-- Shifts of block column 8 in each row of Table 5-6. -/
def colL3 : List (Option Nat) := [some 1, none, some 0, some 1]

/-- Bitwise sum of two blocks. -/
def blkAdd (a b : List Bool) : List Bool := List.zipWith xor a b

/-- The product of a block of shift s and a vector: entry q is entry (q + s) mod Z (R138). -/
def blkShift {α : Type} (s : Nat) (v : List α) : List α := v.drop (s % v.length) ++ v.take (s % v.length)

/-- The contribution of the information blocks to one row. -/
def rowSum (z : Nat) (info : List Bool) (row : List (Nat × Nat)) : List Bool :=
  row.foldl (fun acc e => blkAdd acc (blkShift e.2 ((info.drop (e.1 * z)).take z))) (List.replicate z false)

/-- The parity blocks after block 8, down the dual diagonal: row r gives its block from the one before. -/
def dualDiag (p8 prev : List Bool) : List (List Bool × Option Nat) → List (List Bool)
  | [] => []
  | (s, c) :: rest =>
    let p := blkAdd (blkAdd s prev) (match c with
      | some sh => blkShift sh p8
      | none => List.replicate p8.length false)
    p :: dualDiag p8 p rest

/-- The parity bits of a code for k information bits: the solution of H · c = 0 (R138). The sum of all rows leaves
block 8 alone, because its three shifts are 1, 0 and 1. -/
def ldpcParity (code : Nat) (info : List Bool) : List Bool :=
  let z := if code % 4 = 1 then 32 else 128
  let base := if code % 4 = 3 then baseL3 else baseL12
  let col := if code % 4 = 3 then colL3 else colL12
  let sums := base.map (rowSum z info)
  let zero := List.replicate z false
  let p8 := sums.foldl blkAdd zero
  let rest := dualDiag p8 zero (sums.zip col)
  p8 ++ ((rest.take (base.length - 1)).foldl (· ++ ·) [])

/-! ## Soft bits and the decode (R143, R150) -/

/-- The first n soft bits; those that did not come say nothing. -/
def padSoft (n : Nat) (soft : List (BitVec 4)) : List (BitVec 4) :=
  (soft ++ List.replicate (n - soft.length) 0#4).take n

/-- What a soft bit says: positive for a 0; −8 reads as −7 (R143). -/
def softVal (b : BitVec 4) : Int := max (-7) b.toInt

/-- Soft bits as a receiver of a mode delivers them: W1 despreads each symbol and gives its bits as ±7, the others give
what they measured; N3 gives two per symbol, the first bit first (R143). -/
def delivered (mode : Nat) (soft : List (BitVec 4)) : List (BitVec 4) :=
  if mode = 3 then soft.map (fun b => if b.msb then 9#4 else 7#4) else soft

/-- Hard decisions: negative is 1, positive is 0, and a 0, which says nothing, is a free value (log entry 74). -/
def hardBits (base : Nat) : List Int → List Bool
  | [] => []
  | v :: rest => (if v = 0 then Config.freeBits 1 base == 1#1 else decide (v < 0)) :: hardBits (base + 1) rest

/-- A list in blocks of z. -/
def chunksOf {α : Type} (z n : Nat) (v : List α) : List (List α) := (List.range n).map (fun b => (v.drop (b * z)).take z)

/-- Block size Z of a code (Table 5-4). -/
def codeZ (code : Nat) : Nat := if code % 4 = 1 then 32 else 128

/-- Block rows of a code. -/
def codeRows (code : Nat) : Nat := if code % 4 = 3 then 4 else 8

/-- The non-zero blocks of block row r: information, column 8 and the dual diagonal (Tables 5-5 and 5-6). -/
def rowBlocks (code r : Nat) : List (Nat × Nat) :=
  (if code % 4 = 3 then baseL3 else baseL12).getD r []
    ++ (match (if code % 4 = 3 then colL3 else colL12).getD r none with
        | some s => [(8, s)]
        | none => [])
    ++ (if r = 0 then [] else [(8 + r, 0)]) ++ (if r + 1 = codeRows code then [] else [(9 + r, 0)])

/-- The soft bits of a codeword that carries b bytes, as the core decodes it: information, filler as the strongest 0, the
parity sent, and unsent parity as 0, unknown (R139, R143). -/
def codewordSoft (code b : Nat) (soft : List (BitVec 4)) : List Int :=
  let sent := if code % 4 = 3 then 4 * b else 8 * b
  let v := (padSoft (8 * b + sent) soft).map softVal
  v.take (8 * b) ++ List.replicate (codeK code - 8 * b) 7 ++ v.drop (8 * b)
    ++ List.replicate (codeZ code * codeRows code - sent) 0

/-- The syndrome of hard decisions is zero: every check of every block row sums to 0 (R138, R150). -/
def syndromeZero (code : Nat) (bits : List Bool) : Bool :=
  let z := codeZ code
  (List.range (codeRows code)).all (fun r => (rowSum z bits (rowBlocks code r)).all (fun b => !b))

/-- The messages of a min-sum decode: the sum at each bit, by blocks, and what each block row sent to each of its blocks.
All are exact, in a unit that shrinks to a quarter with each layer. -/
structure MinSum where
  sums : List (List Int)
  sent : List (List (List Int))
  deriving DecidableEq, Repr

/-- What the checks of a row say to its i-th block: the least magnitude of the others, with the product of their signs. -/
def checkMsg (qs : List (List Int)) (i : Nat) : List Int :=
  match (qs.eraseIdx i).map (fun v => v.map (fun q => (q.natAbs : Int))),
      (qs.eraseIdx i).map (fun v => v.map (fun q => if q < 0 then (-1 : Int) else 1)) with
  | m :: ms, g :: gs => List.zipWith (· * ·) (ms.foldl (List.zipWith min) m) (gs.foldl (List.zipWith (· * ·)) g)
  | _, _ => []

/-- One layer, block row r: the row's earlier messages leave the sums, the new ones, scaled by 0.75, enter them. -/
def MinSum.layer (code : Nat) (m : MinSum) (r : Nat) : MinSum :=
  let z := codeZ code
  let row := rowBlocks code r
  let qs := List.zipWith (List.zipWith (· - ·)) (row.map (fun e => blkShift e.2 (m.sums.getD e.1 []))) (m.sent.getD r [])
  let new := (List.range row.length).map (fun i => (checkMsg qs i).map (3 * ·))
  let vs := List.zipWith (List.zipWith (fun q x => 4 * q + x)) qs new
  { sums := (row.zip vs).foldl (fun a e => a.set e.1.1 (blkShift (z - e.1.2 % z) e.2)) (m.sums.map (·.map (4 * ·)))
    sent := (m.sent.map (·.map (·.map (4 * ·)))).set r new }

/-- The messages after n iterations, each over all block rows in order (R150, log entry 74). -/
def minSum (code : Nat) (soft : List Int) : Nat → MinSum
  | 0 => { sums := chunksOf (codeZ code) (8 + codeRows code) soft
           sent := (List.range (codeRows code)).map (fun r =>
             List.replicate (rowBlocks code r).length (List.replicate (codeZ code) 0)) }
  | n + 1 => (List.range (codeRows code)).foldl (MinSum.layer code) (minSum code soft n)

/-- The hard decisions of a codeword of b bytes after n iterations. -/
def decided (code b n base : Nat) (soft : List (BitVec 4)) : List Bool :=
  hardBits base ((minSum code (codewordSoft code b soft) n).sums.foldl (· ++ ·) [])

/-- The low n bits of v, least significant first. -/
def bitsUp (n v : Nat) : List Bool := (List.range n).map (fun i => bitN v i)

/-- The low n bits of v, most significant first. -/
def bitsDown (n v : Nat) : List Bool := (bitsUp n v).reverse

/-- Bytes as bits, each least significant bit first (R131). -/
def bytesUp (bs : List Byte) : List Bool := bs.foldl (fun a b => a ++ bitsUp 8 b.toNat) []

/-- Bytes as bits, each most significant bit first (R419). -/
def bytesDown (bs : List Byte) : List Bool := bs.foldl (fun a b => a ++ bitsDown 8 b.toNat) []

/-- Bits as n bytes, each least significant bit first. -/
def packUp (n : Nat) (bits : List Bool) : List Byte :=
  (chunksOf 8 n bits).map (fun v => BitVec.ofNat 8 (numUp v))

/-- Bits as n bytes, each most significant bit first (R419). -/
def packDown (n : Nat) (bits : List Bool) : List Byte :=
  (chunksOf 8 n bits).map (fun v => BitVec.ofNat 8 (numUp v.reverse))

/-- Codeword j of m on the air: its information bits and as many parity bits as R139 sends. -/
def codewordBits (code : Nat) (white : List Byte) (m j : Nat) : List Bool :=
  let n := cwBytes white.length m j
  let info := bytesUp ((white.drop (cwFirst white.length m j)).take n)
  let full := info ++ List.replicate (codeK code - info.length) false
  info ++ (ldpcParity code full).take (if code % 4 = 3 then 4 * n else 8 * n)

/-- The bits of a frame on the air (R128–R131, R136, R139, R419): `psdu` has its check bytes; the header's code_id is
code + 4 × urgent (R141). Ramps are not bits. -/
def onAir (mode code : Nat) (urgent : Bool) (psdu : List Byte) : List Bool :=
  match mode with
  | 3 => bytesUp ([0#8, 0#8, 0#8, 0#8, 0xA7#8, BitVec.ofNat 8 psdu.length] ++ psdu)
  | 5 => (bytesUp psdu).foldl (fun a b => a ++ [b, !b]) []
  | 6 => bitsDown 48 0xAAAAAAAAAAAA ++ bitsDown 16 0xC6E1 ++ bytesDown psdu
  | _ =>
    let pre := if mode = 2 then bitsDown 64 0x7777777777777777
      else if mode = 4 then bitsDown 64 0x5555555555555555 else bitsDown 32 0x55555555
    let head := golayEnc ((code % 4 + 4 * b2n urgent) * 512 + psdu.length)
    let white := pn9Whiten 0x1FF psdu
    let body := if code % 4 = 0 then bytesUp white
      else (List.range (codewords code psdu.length)).foldl
        (fun a j => a ++ codewordBits code white (codewords code psdu.length) j) []
    pre ++ bitsDown 32 0x6B2DE48C ++ bitsDown 24 head ++ body

/-- The symbol of N3 for a pair of bits, in units of 12.5 kHz (R131). -/
def n3Symbol (a b : Bool) : Int :=
  match a, b with
  | false, true => 3
  | false, false => 1
  | true, false => -1
  | true, true => -3

/-- The symbols of N3 for bits. -/
def n3Symbols : List Bool → List Int
  | a :: b :: rest => n3Symbol a b :: n3Symbols rest
  | _ => []

/-- The chips of W1 symbol 0, c0 first, and of a symbol k: IEEE 802.15.4, 2,450 MHz O-QPSK (R128; log entry 75). Symbols
1 to 7 turn it right by four chips each; 8 to 15 are 0 to 7 with every odd chip inverted. -/
def w1Chips (k : Nat) : List Bool :=
  let c0 := bitsDown 32 0xD9C3522E
  let turn := blkShift (32 - 4 * (k % 8)) c0
  if k < 8 then turn
  else List.zipWith (fun i b => if i % 2 = 1 then !b else b) (List.range 32) turn

/-- What a chain sends for the bits of a mode: the symbols of N3, the chips of W1 as 1 and −1, and 1 or −1 for each bit of
the others (R131). -/
def airSymbols (mode : Nat) (bits : List Bool) : List Int :=
  let sign (b : Bool) : Int := if b then 1 else -1
  match mode with
  | 2 => n3Symbols bits
  | 3 => ((chunksOf 4 (bits.length / 4) bits).foldl (fun a v => a ++ w1Chips (numUp v)) []).map sign
  | _ => bits.map sign

/-! ## Fused sub-bands (R103) -/

/-- Word w of RADIO_SUBBAND n. -/
def State.subWord (s : State) (n w : Nat) : Nat := (tabGet 0#32 s.fuses.subband (n * 4 + w)).toNat

/-- Sub-band n is defined. -/
def State.subValid (s : State) (n : Nat) : Bool := bitN (s.subWord n 0) 31

/-- Highest power code of sub-band n. -/
def State.subPower (s : State) (n : Nat) : Nat := bitsN (s.subWord n 2) 31 24

/-- Duty limit of sub-band n, per mille. -/
def State.subDuty (s : State) (n : Nat) : Nat := bitsN (s.subWord n 2) 23 14

/-- Sub-band n requires LBT. -/
def State.subLbt (s : State) (n : Nat) : Bool := bitN (s.subWord n 2) 13

/-- CCA threshold of sub-band n: −cca_thr dBm. -/
def State.subThr (s : State) (n : Nat) : Nat := bitsN (s.subWord n 3) 31 24

/-- CCA duration of sub-band n, µs. -/
def State.subCca (s : State) (n : Nat) : Nat := bitsN (s.subWord n 3) 23 12

/-- Airtime cap of sub-band n in 100 µs units. -/
def State.subCap (s : State) (n : Nat) : Nat := bitsN (s.subWord n 3) 11 0

/-- The channel of width w Hz around f Hz lies wholly between two edges in kHz. -/
def chanIn (f w lowKhz highKhz : Nat) : Bool :=
  decide (2 * lowKhz * 1000 + w ≤ 2 * f) && decide (2 * f + w ≤ 2 * highKhz * 1000)

/-- The channel lies wholly in sub-band n, which is valid (R104). -/
def State.inSub (s : State) (n f w : Nat) : Bool :=
  s.subValid n && chanIn f w (bitsN (s.subWord n 0) 21 0) (bitsN (s.subWord n 1) 21 0)

/-- The lowest-numbered valid sub-band that wholly holds a channel (R175). -/
def State.subOf (s : State) (f w : Nat) : Option Nat := (List.range 16).find? (fun n => s.inSub n f w)

/-- The channel lies in the range of a chain (R88): 0 TXL, 1 TXH. -/
def inChain (c f w : Nat) : Bool := if c = 0 then chanIn f w 380000 960000 else chanIn f w 2400000 2483500

/-- The band a channel lies in (Table 3-8): 0 L, 1 M, 2 H. -/
def bandOf (f w : Nat) : Option Nat :=
  if chanIn f w 380000 520000 then some 0
  else if chanIn f w 863000 960000 then some 1
  else if chanIn f w 2400000 2483500 then some 2 else none

/-- A mode that a chain carries (Table 3-3). -/
def modeOnChain (c mode : Nat) : Bool :=
  if c = 0 then mode ≤ 2 || mode == 5 || mode == 6 else mode ≤ 4

/-! ## Power sums (R89) -/

/-- 10^(r/40) × 10^20, rounded down, for r = 0–39. -/
def tenths : List Nat :=
  [100000000000000000000, 105925372517728887880, 112201845430196343559, 118850222743701843773,
   125892541179416721042, 133352143216332402567, 141253754462275430215, 149623565609443341188,
   158489319246111348520, 167880401812256031397, 177827941003892280122, 188364908948980053500,
   199526231496887960135, 211348903983664679556, 223872113856833961195, 237137370566165526165,
   251188643150958011108, 266072505979880963499, 281838293126445381910, 298538261891795961791,
   316227766016837933199, 334965439157827659548, 354813389233575458433, 375837404288444167377,
   398107170553497250770, 421696503428582248569, 446683592150963118556, 473151258961480478903,
   501187233627272285001, 530884444230988352200, 562341325190349080394, 595662143529010460509,
   630957344480193249434, 668343917568614608362, 707945784384137910802, 749894209332455827302,
   794328234724281502065, 841395141645195091152, 891250938133745529953, 944060876285923380364]

/-- Linear power of a code p in a fixed unit: 10^(p/40), the common factor left out. -/
def linPower (p : Nat) : Nat := 10 ^ (p / 40) * tenths.getD (p % 40) 0

/-- The carriers' summed power stays within +6 dBm (R89). A sum meets the bound exactly only as the one code 144, and
the unit is finer than any other distance to it. -/
def powerFits (ps : List Nat) : Bool := decide ((ps.map linPower).foldl (· + ·) 0 ≤ linPower 144)

end Sys2Proof.Machine
end

