-- ==== Sys2Proof/Machine/Agent.lean ====
section
/-!
DEFINITION. Admission of transmit work: the duty accounts (R181–R183), the Girth admission agent (R318, R326, R327,
R330) and credits of both.
-/

namespace Sys2Proof.Machine

/-! ## Duty accounts -/

/-- Key of account n in bin b. -/
def dutyKey (n b : Nat) : Nat := 60 * n + b

/-- The current bin (R181). -/
def State.dutyBin (s : State) : Nat := s.cinch.frame / 60 % 60

/-- Airtime of tenant t in account n over the window. -/
def State.dutyTenant (s : State) (n t : Nat) : Nat :=
  (List.range 60).foldl (fun a b => a + tabGet 0 (tabGet [] s.radio.duty.used (dutyKey n b)) t) 0

/-- Airtime of account n over the window. -/
def State.dutyUsed (s : State) (n : Nat) : Nat :=
  (List.range 60).foldl (fun a b => a + ((tabGet [] s.radio.duty.used (dutyKey n b)).map (·.2)).foldl (· + ·) 0) 0

/-- Urgent airtime of account n over the window. -/
def State.dutyUrg (s : State) (n : Nat) : Nat :=
  (List.range 60).foldl (fun a b => a + tabGet 0 s.radio.duty.urg (dutyKey n b)) 0

/-- Budget B of account n in 10 µs units. -/
def State.dutyBudget (s : State) (n : Nat) : Nat := s.subDuty n * 360000

/-- Guarantee of tenant t in account n. -/
def State.dutyGuar (s : State) (n t : Nat) : Nat := s.fget (fDUTY_SHARE_guar_pm n t) * s.dutyBudget n / 1000

/-- Ceiling of tenant t in account n. -/
def State.dutyCeil (s : State) (n t : Nat) : Nat := s.fget (fDUTY_SHARE_ceil_pm n t) * s.dutyBudget n / 1000

/-- Units added to a bin of account n for tenant t, urgent ones to urg_used too. -/
def State.dutyAdd (s : State) (n b t x : Nat) (urgent : Bool) : State :=
  let d := s.radio.duty
  let k := dutyKey n b
  let row := tabGet [] d.used k
  let d1 : DutySt := { d with
    used := tabSet [] d.used k (tabSet 0 row t (tabGet 0 row t + x))
    urg := if urgent then tabSet 0 d.urg k (tabGet 0 d.urg k + x) else d.urg }
  { s with radio := { s.radio with duty := d1 } }

/-- Units credited back to the bin they were charged to (R182). A bin that was cleared since holds none of them. -/
def State.dutyCredit (s : State) (n b t x : Nat) (urgent : Bool) : State :=
  let d := s.radio.duty
  let k := dutyKey n b
  let row := tabGet [] d.used k
  let d1 : DutySt := { d with
    used := tabSet [] d.used k (tabSet 0 row t (tabGet 0 row t - x))
    urg := if urgent then tabSet 0 d.urg k (tabGet 0 d.urg k - x) else d.urg }
  { s with radio := { s.radio with duty := d1 } }

/-- The guarantees that tenants other than t have not used, of the tenants below k. -/
def unusedOf (guar used : Nat → Nat) (t k : Nat) : Nat :=
  match k with
  | 0 => 0
  | u + 1 => unusedOf guar used t u + (if u = t then 0 else guar u - used u)

/-- The admission rule that R183 and R330 share: budget B, reserve R, total use U, a tenant's use, guarantee and ceiling.
The reserve keeps normal work off it; urgent work may use the whole budget up to the tenant's ceiling. -/
def admits (b r u x : Nat) (used guar ceil : Nat → Nat) (t : Nat) (urgent : Bool) : Bool :=
  if urgent then decide (u + x ≤ b) && decide (used t + x ≤ ceil t)
  else
    decide (u + x + r ≤ b) && (decide (used t + x ≤ guar t)
      || (decide (used t + x ≤ ceil t) && decide (r + u + x + unusedOf guar used t 16 ≤ b)))

/-- Duty admission of x units (R183): charged to the current bin, or refused and counted. -/
def State.dutyAdmit (s : State) (n t x : Nat) (urgent : Bool) : Bool × State :=
  let b := s.dutyBudget n
  let r := s.fget (fDUTY_CFG_urg_res_pm n) * b / 1000
  if s.subDuty n = 1000 || admits b r (s.dutyUsed n) x (s.dutyTenant n) (s.dutyGuar n) (s.dutyCeil n) t urgent then
    (true, s.dutyAdd n s.dutyBin t x urgent)
  else if urgent then (false, s.fsat (fDUTY_REFUSED_urg_exhaust n))
  else (false, s.fsat (fDUTY_REFUSED_no_duty n))

/-! ## Station energy (R326, R327, R330) -/

/-- Draw of a chain in TRANSMIT with its external PA, mW. -/
def State.chainMw (s : State) (c : Nat) : Nat :=
  250 + (if c = 0 then s.fget fGIRTH_PA_pa_mw_txl else s.fget fGIRTH_PA_pa_mw_txh)

/-- The TX charge of a carrier: draw × (T + 2 ramp), rounded up to 1 µJ (R326). -/
def State.txUj (s : State) (c thirds rampUs : Nat) : Nat := ujOfTime (s.chainMw c) (thirds + 2 * rampUs * 3000)

/-- Use of tenant t in the current frame: transmit charges so far and the ENGINE charge it opened with. -/
def AgentSt.use (a : AgentSt) (t : Nat) : Nat := tabGet 0 a.used t + tabGet 0 a.engine t

/-- Use of all tenants. -/
def AgentSt.total (a : AgentSt) : Nat := (List.range 16).foldl (fun x t => x + a.use t) 0

/-- The agent changed. -/
def State.modAgent (s : State) (f : AgentSt → AgentSt) : State :=
  { s with radio := { s.radio with agent := f s.radio.agent } }

/-- A transmit charge of tenant t in this frame. -/
def State.agentAdd (s : State) (t e : Nat) : State :=
  s.modAgent (fun a => { a with used := tabSet 0 a.used t (tabGet 0 a.used t + e) })

/-- Station admission of a charge (R330). A command that is `exempt` (ACKs and re-ACKs) is charged and never refused. -/
def State.girthAdmit (s : State) (t e : Nat) (urgent exempt : Bool) : Bool × State :=
  let a := s.radio.agent
  let g (u : Nat) : Nat := (tabGet (0, 0) a.share u).1 * a.w / 1000
  let c (u : Nat) : Nat := (tabGet (0, 0) a.share u).2 * a.w / 1000
  if a.w = 0xFFFFFFFF || exempt || admits a.w (a.urgPm * a.w / 1000) a.total e a.use g c t urgent then
    (true, s.agentAdd t e)
  else if urgent then (false, s.finc fGIRTH_COUNT_urg_deny)
  else
    let tp := s.finc fGIRTH_COUNT_tx_deny
    (false, { tp with girth := { tp.girth with denied := tabSet 0 tp.girth.denied t (tabGet 0 tp.girth.denied t + 1) } })

/-- A 64-bit ledger counter by its low-word field and high-word field. -/
def State.get64 (s : State) (lo hi : Fld) : Nat := s.fget lo + s.fget hi * 2 ^ 32

/-- A 64-bit counter set. -/
def State.set64 (s : State) (lo hi : Fld) (v : Nat) : State := (s.fset lo v).fset hi (v / 2 ^ 32)

/-- Ledger counter k of Table 13-1. -/
def State.ledger (s : State) (k : Nat) : Nat := s.get64 (fGIRTH_LEDGER_uj k 0) (fGIRTH_LEDGER_uj k 1)

/-- Ledger counter k set. -/
def State.setLedger (s : State) (k v : Nat) : State := s.set64 (fGIRTH_LEDGER_uj k 0) (fGIRTH_LEDGER_uj k 1) v

/-- Tenant t's ledger counter. -/
def State.tledger (s : State) (t : Nat) : Nat := s.get64 (fGIRTH_TLEDGER_uj t 0) (fGIRTH_TLEDGER_uj t 1)

/-- Tenant t's ledger counter set. -/
def State.setTledger (s : State) (t v : Nat) : State := s.set64 (fGIRTH_TLEDGER_uj t 0) (fGIRTH_TLEDGER_uj t 1) v

/-- A station charge credited back (R327): in the frame of its charge it lowers that frame's use; later it reaches only
the ledger counters. -/
def State.girthCredit (s : State) (t e frame : Nat) : State :=
  if frame = s.cinch.frame then s.modAgent (fun a => { a with used := tabSet 0 a.used t (tabGet 0 a.used t - e) })
  else (s.setLedger 9 (s.ledger 9 - e)).setTledger t (s.tledger t - e)

/-- AGENT_MESSAGE: the planner's message installs W, shares, the urgent reserve and the ENGINE charges (R318, R330). -/
def execAgentMessage (s : State) : Host.Outcome State Fault Refusal :=
  .next (match s.radio.agent.msg with
    | none => s
    | some m => s.modAgent (fun a =>
      { a with
        w := m.w, urgPm := m.urgPm, msg := none
        share := (List.range 16).foldl (fun t u => tabSet (0, 0) t u (m.share.getD u (0, 0))) []
        engine := (List.range 16).foldl (fun t u => tabSet 0 t u (m.engine.getD u 0)) [] }))

end Sys2Proof.Machine
end

