-- ==== Sys2Proof/Machine/Flags.lean ====
section
/-!
DEFINITION. The predicates that compares compute (R232, Table 9-5).
-/

namespace Sys2Proof.Machine

/-- The condition of a compare; condition 7 is ILLEGAL and never gets here (Table 9-5). -/
def condHolds (cond : BitVec 3) (a b : Word) : Bool :=
  match cond.toNat with
  | 0 => a == b
  | 1 => a != b
  | 2 => a.slt b
  | 3 => !(a.slt b)
  | 4 => a.ult b
  | 5 => !(a.ult b)
  | _ => (a &&& b) != 0#32

/-- What pd becomes (Table 9-5). -/
def combine (comb : BitVec 2) (pd c : Bool) : Bool :=
  match comb.toNat with
  | 0 => c
  | 1 => pd && c
  | 2 => pd || c
  | _ => pd && !c

/-- The logic of PLOG; operation 3 is ILLEGAL and never gets here (R232). -/
def plogOp (op : BitVec 2) (a b : Bool) : Bool :=
  match op.toNat with
  | 0 => a && b
  | 1 => a || b
  | _ => Bool.xor a b

/-- An instruction executes when p[psel] XOR pinv is 1 (R230). -/
def Engine.guard (e : Engine) (p : Pred) : Bool := Bool.xor (e.p p.sel.toNat) p.inv

end Sys2Proof.Machine
end

