-- ==== Sys2Proof/Machine/Slots.lean ====
section
/-!
DEFINITION. Task slots and what stops and starts an engine: readiness, dispatch, yield (R257–R262, Table 10-1), faults
(R18, R251, R256) and the restart of R19.
-/

namespace Sys2Proof.Machine

/-- The reason word of Table 10-2. -/
def reasonWord (r : Reasons) : Word :=
  BitVec.ofNat 32 (b2n r.cinch + 2 * b2n r.notice + 4 * b2n r.signal + 8 * b2n r.yielded + 16 * b2n r.start)

/-- Slot p goes before slot q at dispatch: higher priority, then older, then lower number (R260). -/
def slotBefore (p q : Nat × Slot) : Bool :=
  if p.2.prio ≠ q.2.prio then decide (q.2.prio < p.2.prio)
  else if p.2.age ≠ q.2.age then decide (p.2.age < q.2.age)
  else decide (p.1 < q.1)

/-- The READY slot that is dispatched next, if any. -/
def Engine.nextReady (e : Engine) : Option (Nat × Slot) :=
  (e.slots.filter (fun x => x.2.st == .ready)).foldl
    (fun b x => match b with
      | none => some x
      | some y => if slotBefore x y then some x else some y) none

/-- The engine without a running slot dispatches, or idles when no slot is READY (R260). -/
def Engine.dispatch (e : Engine) : Engine :=
  match e.nextReady with
  | none => { e with run := .idle }
  | some (p, sl) =>
    let sl2 : Slot := { sl with st := .running, pend := false, why := { yielded := sl.why.yielded } }
    { (e.setSlot p sl2) with run := .running, cur := p, xs := tabSet 0#32 e.xs 1 (reasonWord sl.why) }

/-- The three kinds of readiness event (R259). -/
inductive Ready where
  | cinch | notice | signal
  deriving DecidableEq, Repr

/-- The reasons with one event more. -/
def Reasons.add (r : Reasons) (k : Ready) : Reasons :=
  match k with
  | .cinch => { r with cinch := true }
  | .notice => { r with notice := true }
  | .signal => { r with signal := true }

/-- The reasons with every event taken away; start and yielded stay (Table 10-2). -/
def Reasons.dropEvents (r : Reasons) : Reasons := { r with cinch := false, notice := false, signal := false }

/-- A readiness event at a slot; `cancel`: a cancel of the slot falls in the same cycle and wins (Table 10-1, R261). -/
def Slot.event (sl : Slot) (k : Ready) (age : Nat) (cancel : Bool) : Slot :=
  match sl.st with
  | .idle => sl
  | .waiting =>
    if cancel then { sl with readyLost := true }
    else { sl with st := .ready, age := age, why := sl.why.add k }
  | .ready =>
    if cancel then { sl with st := .waiting, readyLost := true, why := sl.why.dropEvents }
    else { sl with why := sl.why.add k }
  | .running =>
    if cancel then { sl with pend := false, readyLost := true, cancelDue := true, why := sl.why.dropEvents }
    else { sl with pend := true, why := sl.why.add k }

/-- A cancel of a slot without a readiness event in its cycle (Table 10-1). -/
def Slot.cancel (sl : Slot) : Slot :=
  match sl.st with
  | .ready => { sl with st := .waiting, why := sl.why.dropEvents }
  | .running => { sl with pend := false, cancelDue := true, why := sl.why.dropEvents }
  | _ => sl

/-- An idle engine whose slot has become READY dispatches (R260). -/
def Engine.wake (e : Engine) : Engine := if e.run = .idle && !e.hold && !e.dbgStop then e.dispatch else e

/-- A readiness event reaches slot p of core n. -/
def State.ready (s : State) (n p : Nat) (k : Ready) (cancel : Bool) : State :=
  { (s.modEng n (fun e => (e.modSlot p (fun sl => sl.event k s.age cancel)).wake)) with age := s.age + 1 }

/-- Readiness events of one kind reach several slots of core n in one cycle: they have one age, and the core dispatches after
all of them (R260); `cancel` holds the slots cancelled in it (R261). -/
def State.readyAll (s : State) (n : Nat) (ps : List Nat) (k : Ready) (cancel : Nat) : State :=
  { (s.modEng n (fun e =>
      (ps.foldl (fun f p => f.modSlot p (fun sl => sl.event k s.age (bitN cancel p))) e).wake)) with age := s.age + 1 }

/-- The running slot after YIELD (Table 10-1). -/
def Slot.yield (sl : Slot) (done : Bool) (age : Nat) : Slot :=
  let why := { sl.why with yielded := !done }
  if sl.offDue then { sl with st := .idle, pend := false, cancelDue := false, offDue := false, armed := none, why := {} }
  else if !done && !sl.cancelDue then { sl with st := .ready, age := age, why := why }
  else if sl.pend then { sl with st := .ready, age := age, cancelDue := false, why := why }
  else { sl with st := .waiting, cancelDue := false, why := why }

/-- An engine stops with a fault (R18, R251): nothing of the instruction happens, the record of R252 is written and the
FAULT notices go to the first engine of the cluster and the supervisor; a supervisor fault posts none (R256). -/
def State.engFault (s : State) (n cause : Nat) (addr : Word) : State :=
  let e := s.eng n
  let old : FaultRec := tabGet {} s.faults n
  let rec' : FaultRec := { count := satInc 0xFFFF old.count, cause := cause, pc := e.pc.toNat, addr := addr }
  let s1 : State := { (s.setEng n { e with run := .faulted }) with faults := tabSet {} s.faults n rec' }
  let low := cause * 2 ^ 20 + n % 128
  if n = 128 then s1
  else
    let s2 := if n % 8 = 0 then s1 else s1.post (n / 8 * 8) 7 low rec'.pc addr.toNat rec'.count
    s2.post 128 7 low rec'.pc addr.toNat rec'.count

/-- The record of an engine right after a restart: slot 0 RUNNING at the entry address with priority 0 (R19, R258). -/
def Engine.restarted (e : Engine) : Engine :=
  { run := .running, win := e.win, flip := e.flip, hold := e.hold, dbgStop := e.dbgStop,
    slots := [(0, { st := .running, en := true, why := { start := true } })] }

/-- An engine restart (R19): D-SRAM reloaded with the initial data, registers, predicates, slots and queue cleared. -/
def State.restartEng (s : State) (n : Nat) : State :=
  (s.copyRange (dKey n 0) (initKey n 0) 0x10000).modEng n Engine.restarted

/-- A list of engines restarted. -/
def State.restartEngs (s : State) (ns : List Nat) : State := ns.foldl (fun t n => t.restartEng n) s

/-- The engines of a cluster. -/
def enginesOf (c : Nat) : List Nat := (List.range 8).map (fun i => c * 8 + i)

/-- An engine stopped by the supervisor at its instruction boundary (ENGCTL_ENG stop). -/
def State.stopEng (s : State) (n : Nat) : State :=
  s.modEng n (fun e => if e.run = .running || e.run = .idle then { e with run := .stopped } else e)

end Sys2Proof.Machine
end

