-- ==== Sys2Proof/Machine/Runtime.lean ====
section
/-!
DEFINITION. Task slots, notice queues, halters and ENGCTL (chapter 10), and the writes of fence entries (R286).
A port write of a core is one shared operation here; the command of the row calls it, and so do OUT and the register
bus.
-/

namespace Sys2Proof.Machine

/-- A core whose ports firmware can write now: it runs, and waits for nothing. -/
def State.coreRuns (s : State) (n : Nat) : Bool :=
  (s.eng n).run == .running && !(s.eng n).hold && !(s.eng n).dbgStop && (s.eng n).wait.isNone

/-! ## Task slots -/

/-- TASK_CFG of a slot written with v (Table 10-1, R262). -/
def Slot.cfgWrite (sl : Slot) (v : Nat) : Slot :=
  let prio := bitsN v 18 16
  if bitN v 31 then
    if sl.en then { sl with prio := prio }
    else
      match sl.st with
      | .running => { sl with en := true, offDue := false, prio := prio, entry := bitsN v 15 0 }
      | _ => { sl with en := true, st := .waiting, prio := prio, entry := bitsN v 15 0,
                       pc := BitVec.ofNat 32 (bitsN v 15 0), pend := false, why := { start := true } }
  else
    match sl.st with
    | .running => { sl with en := false, offDue := true, prio := prio }
    | _ => { sl with en := false, st := .idle, prio := prio, pend := false, armed := none, why := {} }

/-- A write of TASK_CFG of slot p of core n; the new priority goes to the arbiters (R274). -/
def State.taskCfgWrite (s : State) (n p v : Nat) : State :=
  { (s.modEng n (fun e => e.modSlot p (fun sl => sl.cfgWrite v))) with
    prioFlight := s.prioFlight ++ [.slot n p (bitsN v 18 16)] }

/-- A write of TASK_CTRL for slots below k: signal bits in v [15:0], cancel bits in v [31:16]; both set: the cancel
wins (R261). All events of one write have one age. -/
def Engine.taskCtrl (e : Engine) (v age k : Nat) : Engine :=
  match k with
  | 0 => e
  | p + 1 =>
    let e1 := e.taskCtrl v age p
    if bitN v p then e1.modSlot p (fun sl => sl.event .signal age (bitN v (16 + p)))
    else if bitN v (16 + p) then e1.modSlot p Slot.cancel
    else e1

/-- A write of TASK_CTRL of core n. -/
def State.taskCtrlWrite (s : State) (n v : Nat) : State :=
  { (s.modEng n (fun e => (e.taskCtrl v s.age 16).wake)) with age := s.age + 1 }

/-- TASK_CFG_WRITE (R260, Table 10-1). -/
def execTaskCfgWrite (c : CoreId) (p : BitVec 4) (v : Word) (s : State) : Host.Outcome State Fault Refusal :=
  .next (s.iff (s.coreRuns (coreNum c)) (fun t => t.taskCfgWrite (coreNum c) p.toNat v.toNat))

/-- TASK_SIGNAL: signal bits, with the cancel bits of the same write (R259, R261). -/
def execTaskSignal (c : CoreId) (signal cancel : BitVec 16) (s : State) : Host.Outcome State Fault Refusal :=
  .next (s.iff (s.coreRuns (coreNum c))
    (fun t => t.taskCtrlWrite (coreNum c) (signal.toNat + cancel.toNat * 65536)))

/-- TASK_CANCEL: cancel bits alone (R261). -/
def execTaskCancel (c : CoreId) (cancel : BitVec 16) (s : State) : Host.Outcome State Fault Refusal :=
  .next (s.iff (s.coreRuns (coreNum c)) (fun t => t.taskCtrlWrite (coreNum c) (cancel.toNat * 65536)))

/-! ## Notices -/

/-- Entries of a notice queue: 16, on the supervisor 64 (R263, R268). -/
def nqSize (n : Nat) : Nat := if n = 128 then 64 else 16

/-- A notice enters a queue; a full queue discards its oldest, counts it and shows its kind (R264). -/
def Inbound.push (q : Inbound) (size : Nat) (x : Notice) : Inbound :=
  if q.queue.length < size then { q with queue := q.queue ++ [x] }
  else
    { q with queue := q.queue.drop 1 ++ [x], lost := satInc 0xFFFF q.lost
             lastLost := match q.queue with
               | [] => 0
               | y :: _ => bitsN y.w0.toNat 31 28 }

/-- The slot that a kind of notice is routed to (R266). -/
def Inbound.slotOf (q : Inbound) (kind : Nat) : Nat :=
  if kind < 8 then bitsN q.route0.toNat (4 * kind + 3) (4 * kind)
  else bitsN q.route1.toNat (4 * (kind - 8) + 3) (4 * (kind - 8))

/-- A MSG in flight may be delivered: every access its poster issued before it has completed (R36, R267). -/
def State.msgFree (s : State) (f : Flight) : Bool :=
  match f.msg with
  | none => true
  | some (id, src) =>
    match (s.eng src).outs with
    | o :: _ => o.kind == .msg id
    | [] => true

/-- Kind of a notice, and its bits [27:24]. -/
def Notice.kind (x : Notice) : Nat × Nat := (bitsN x.w0.toNat 31 28, bitsN x.w0.toNat 27 24)

/-- The kind of island that a notice comes from, in the order of R264: 0 timekeeping (SLOT, TIMER, Cinch alarms), 1 a die
service, 2 a region fabric (a CRC_FAIL frame of the decoder, a refusal at a region), 3 another cluster (MSG, FAULT). -/
def Flight.source (f : Flight) : Nat :=
  match f.notice.kind with
  | (5, _) | (10, _) | (11, 2) => 0
  | (7, _) | (8, _) => 3
  | (1, 0) => 2
  | (9, _) => match spaceOf f.notice.w1.toNat with
    | .region _ _ => 2
    | _ => 1
  | _ => 1

/-- A notice was posted on compute die 1: by an engine or for a region there. -/
def Flight.fromDie1 (f : Flight) : Bool :=
  match f.notice.kind with
  | (7, _) => decide (64 ≤ bitsN f.notice.w0.toNat 6 0)
  | (8, _) => match f.msg with
    | some (_, src) => decide (64 ≤ src) && src != 128
    | none => false
  | (1, 0) => decide (2 ≤ bitsN f.notice.w0.toNat 23 22)
  | (9, _) => match spaceOf f.notice.w1.toNat with
    | .region r _ => decide (2 ≤ r)
    | _ => false
  | _ => false

/-- A notice in flight may be delivered now: what its poster issued before it has completed (R36), and link 2 is UP when it
crosses the compute dies (Table 1-5). -/
def State.canArrive (s : State) (f : Flight) : Bool :=
  s.msgFree f && (f.fromDie1 == (decide (64 ≤ f.target) && f.target != 128) || s.linkState 2 == 2)

/-- The notice of a source that arrives next at a core, the oldest that may, and the rest: within one source, posting order
holds for each poster (R264). -/
def State.takeFlight (s : State) (n src : Nat) : List Flight → Option (Flight × List Flight)
  | [] => none
  | f :: rest =>
    if f.target = n && f.source = src && s.canArrive f then some (f, rest)
    else if f.target = n && f.source = src && src ≠ 3 then none
    else match s.takeFlight n src rest with
      | some (g, r) => some (g, f :: r)
      | none => none

/-- The poster of a MSG no longer holds it outstanding, and its transaction completes (R40, R267). -/
def State.msgDone (s : State) (m : Option (Nat × Nat)) : State :=
  match m with
  | none => s
  | some (id, src) =>
    let mine (o : OutAcc) : Bool := o.kind == .msg id
    let s1 := s.linkDone (((s.eng src).outs.find? mine).bind OutAcc.txn)
    s1.modEng src (fun e => { e with outs := e.outs.filter (fun o => !mine o) })

/-- The next notice of a source enters the queue of core n; the slots to which notices of this cycle are routed. A notice to
a core of a die without power is lost with the queue it would join (R29). -/
def State.noticeIn (s : State) (n : Nat) (slots : List Nat) (src : Nat) : State × List Nat :=
  match s.takeFlight n src s.flight with
  | none => (s, slots)
  | some (f, rest) =>
    let s1 := ({ s with flight := rest } : State).msgDone f.msg
    if 64 ≤ n && n < 128 && !s.die1Up then (s1, slots)
    else (s1.modEng n (fun e => { e with nq := e.nq.push (nqSize n) f.notice }),
      slots ++ [(s.eng n).nq.slotOf f.notice.kind.1])

/-- NOTICE_ARRIVAL: in one cycle the next notice of each source named, in their order, enters the queue of the core, and
fires its routed slot (R264, R266); `cancel` holds the cancel bits whose X cycle is this cycle (R261). -/
def execNoticeArrival (c : CoreId) (srcs : BitVec 4) (cancel : BitVec 16) (s : State) : Host.Outcome State Fault Refusal :=
  let n := coreNum c
  let r := ((List.range 4).filter (fun k => srcs.getLsbD k)).foldl (fun a k => a.1.noticeIn n a.2 k) (s, ([] : List Nat))
  .next (if r.2.isEmpty then r.1 else r.1.readyAll n r.2 .notice cancel.toNat)

/-- A read of NQ_POP: the head leaves the queue, its words 1–3 go to the views; an empty queue gives the idle notice
(R263). -/
def Inbound.pop (q : Inbound) : Word × Inbound :=
  match q.queue with
  | [] => (0#32, { q with view := {} })
  | x :: rest => (x.w0, { q with queue := rest, view := x })

/-- NQ_POP (R263). -/
def execNqPop (c : CoreId) (s : State) : Host.Outcome State Fault Refusal :=
  .next (s.iff (s.coreRuns (coreNum c)) (fun t => t.modEng (coreNum c) (fun e => { e with nq := e.nq.pop.2 })))

/-- The core number that a MSG target names: 0x7F is the supervisor (R267). -/
def msgTarget (v : Nat) : Nat := if bitsN v 22 16 = 0x7F then 128 else bitsN v 22 16

/-- A write of NQ_SEND0: a MSG to an engine of the same tenant, or to the supervisor, else a fence violation (R267).
It counts toward the 8 outstanding accesses; a ninth waits, and nothing happens yet (R234), nor while link 2 does not take
one to the other compute die (R40). -/
def State.msgPost (s : State) (n v : Nat) : State :=
  let e := s.eng n
  let dst := msgTarget v
  let allowed := n = 128 || dst = 128 ||
    (s.clusterTenant (clusterOf dst) == s.clusterTenant (clusterOf n) && s.fon (fENGCTL_CL_owned (clusterOf n)))
  let link := dieLink n (decide (64 ≤ dst) && dst != 128)
  if !allowed then s.refuseFence (s.engTenant n) n 0x040 true 5
  else if 8 ≤ e.outs.length || !s.linkOpen link then s
  else
    let q := s.linkTake link
    let x : Notice :=
      { w0 := noticeW0 8 ((coreTag n) * 65536 + bitsN v 15 0), w1 := e.nq.send1, w2 := e.nq.send2, w3 := e.nq.send3 }
    let f : Flight := { target := dst, notice := x, msg := some (s.age, n) }
    let o : OutAcc := { target := 100 + dst, txn := q.1, kind := .msg s.age }
    { (q.2.setEng n { e with outs := e.outs ++ [o] }) with flight := s.flight ++ [f], age := s.age + 1 }

/-- MSG_POST (R267). -/
def execMsgPost (c : CoreId) (v : Word) (s : State) : Host.Outcome State Fault Refusal :=
  .next (s.iff (s.coreRuns (coreNum c)) (fun t => t.msgPost (coreNum c) v.toNat))

/-! ## Halters -/

/-- Microseconds left of a halter: it counts down in 1 µs steps, 40 reference cycles each (R269). -/
def State.haltLeft (s : State) (c : Nat) : Nat :=
  let cl := s.clu c
  if cl.halterOn then cl.halter - (s.mono - cl.haltAt) / 40 else cl.halter

/-- A halter reloaded with a period in microseconds. -/
def State.haltLoad (s : State) (c us : Nat) : State :=
  s.modClu c (fun cl => { cl with halter := us, haltAt := s.mono })

/-- A halter paused where it stands (R269, R292), or running on. -/
def State.haltRun (s : State) (c : Nat) (on : Bool) : State :=
  s.modClu c (fun cl => { cl with halter := s.haltLeft c, haltAt := s.mono, halterOn := on })

/-- The cores of a cluster; those of 16 are the supervisor. -/
def coresOf (c : Nat) : List Nat := if c = 16 then [128] else enginesOf c

/-- The halter of a cluster may run: the cluster is released, neither the debugger nor the energy plan nor SLEEP holds a
core of it, and its tenant is not suspended (R269, R292, R333, R343, R412). -/
def State.haltMay (s : State) (c : Nat) : Bool :=
  (s.clu c).released && (coresOf c).all (fun i => !(s.eng i).dbgStop && !(s.eng i).hold)
    && (c == 16 || (match s.clusterTenant c with
      | some t => !s.suspended t
      | none => false))

/-- The halter of a cluster runs or pauses as it may. -/
def State.haltSync (s : State) (c : Nat) : State := s.haltRun c (s.haltMay c)

/-- The debugger holds a core stopped, or lets it run (R412). -/
def State.dbgHold (s : State) (n : Nat) (on : Bool) : State :=
  let s1 := s.modEng n (fun e => { e with dbgStop := on, stepOne := false })
  (if on then s1 else s1.modEng n Engine.wake).haltSync (coreCluster n)

/-- A write to HALT_SVC of a cluster: the key reloads the halter, unless its count has reached 0, when the service is too
late; anything else counts in bad_svc (R269). -/
def State.haltSvc (s : State) (c v : Nat) : State :=
  if v = 0x0000C1A5 then (if s.haltLeft c = 0 then s else s.haltLoad c (s.fget (fENGCTL_CL_halt_us c)))
  else s.fsat (fENGCTL_CL_COUNT_bad_svc c)

/-- HALT_SVC (R269); the supervisor's cluster ports ignore writes (R268). -/
def execHaltSvc (c : CoreId) (v : Word) (s : State) : Host.Outcome State Fault Refusal :=
  let n := coreNum c
  .next (s.iff (s.coreRuns n && decide (n < 128)) (fun t => t.haltSvc (clusterOf n) v.toNat))

/-- CLUSTER_HALTER_EXPIRY: the engines restart, the halter reloads, expiries counts, an ALARM and a HALTER entry are
written, in this order (R269). It happens only to a running halter with nothing left. -/
def execClusterHalterExpiry (cl : BitVec 4) (s : State) : Host.Outcome State Fault Refusal :=
  let c := cl.toNat
  .next (s.iff ((s.clu c).halterOn && s.haltLeft c == 0) (fun t =>
    ((((t.restartEngs (enginesOf c)).haltLoad c (t.fget (fENGCTL_CL_halt_us c))).fsat
      (fENGCTL_CL_COUNT_expiries c)).alarm 1 c 0).logAdd 0x0031 (t.fget (fENGCTL_CL_tenant c)) 0x7F c 0 0 0))

/-- A write of the supervisor halter's service port: the key reloads it with the configured period, unless its count has
reached 0 (R269, R270). -/
def State.supHaltSvc (s : State) (v : Nat) : State :=
  if v = 0x0000C1A5 && decide (0 < s.haltLeft 16) then s.haltLoad 16 (s.pkg.supPeriodMs * 1000) else s

/-- SUP_HALT_SVC (R270). -/
def execSupHaltSvc (v : Word) (s : State) : Host.Outcome State Fault Refusal :=
  .next (s.iff (s.coreRuns 128) (fun t => t.supHaltSvc v.toNat))

/-- Engine n exists on this variant and its die has power (R5, R29). -/
def State.engHere (s : State) (n : Nat) : Bool :=
  decide (clusterOf n < Config.clusters s.variant) && (decide (n < 64) || s.die1Up)

/-- The engine is stopped, by a fault or by the supervisor. -/
def State.engStopped (s : State) (n : Nat) : Bool := (s.eng n).run == .faulted || (s.eng n).run == .stopped

/-- A write of ENG_RESTART by engine n: only the first engine of a cluster restarts stopped engines of it (R271). -/
def State.engRestartWrite (s : State) (n v : Nat) : State :=
  if n % 8 = 0 && decide (n < 128) then
    s.restartEngs ((enginesOf (clusterOf n)).filter (fun i => bitN v (i % 8) && s.engStopped i))
  else s

/-- ENG_RESTART (R271). -/
def execEngRestart (c : CoreId) (v : BitVec 8) (s : State) : Host.Outcome State Fault Refusal :=
  .next (s.iff (s.coreRuns (coreNum c)) (fun t => t.engRestartWrite (coreNum c) v.toNat))

/-- ENGCTL_STOP (ENGCTL_ENG stop): the engine stops at its instruction boundary. -/
def execEngctlStop (e : BitVec 7) (s : State) : Host.Outcome State Fault Refusal := .next (s.stopEng e.toNat)

/-- ENGCTL_RESTART (ENGCTL_ENG restart): allowed only while stopped (R19), and not on a die without power (R29). -/
def execEngctlRestart (e : BitVec 7) (s : State) : Host.Outcome State Fault Refusal :=
  .next (s.iff (s.engHere e.toNat && s.engStopped e.toNat) (fun t => t.restartEng e.toNat))

/-! ## I-SRAM windows (R272) -/

/-- The I-SRAM of the engine may be written: ENGCTL_ENG run reads 2 or 3. -/
def State.isramOpen (s : State) (n : Nat) : Bool := s.engStopped n || (s.eng n).run == .gated

/-- A window register changed. -/
def State.modWin (s : State) (n : Nat) (f : IWin → IWin) : State := s.modEng n (fun e => { e with win := f e.win })

/-- The window's address 8 further, within 64 KiB. -/
def IWin.next (w : IWin) : IWin := { w with addr := (w.addr + 8) % 0x10000 }

/-- A write of ENGCTL_IDATA_LO; it does nothing for an engine that is absent or has no power (R5, R29). -/
def State.idataLoWrite (s : State) (n : Nat) (v : Word) : State :=
  if !s.engHere n then s
  else if s.isramOpen n then s.modWin n (fun w => { w with staged := v })
  else s.modWin n (fun w => { w with staged := 0#32, err := true })

/-- A write of ENGCTL_IDATA_HI: the whole word is stored with its check bits; nothing for an engine that is absent or has
no power (R5, R29). -/
def State.idataHiWrite (s : State) (n : Nat) (v : Word) : State :=
  if !s.engHere n then s
  else if s.isramOpen n then
    let w := (s.eng n).win
    (s.setWord64 (iKey n w.addr) (w.staged.toNat + v.toNat * 2 ^ 32) 0#72).modWin n IWin.next
  else s.modWin n (fun w => { w with staged := 0#32, err := true })

/-- A read of ENGCTL_IDATA_LO: bytes 0–3, and bytes 4–7 latched; 0 for an engine that is absent or has no power. -/
def State.idataLoRead (s : State) (n : Nat) : Word × State :=
  let k := iKey n (s.eng n).win.addr
  let r := s.readWord k (memAddr k) 0x7F
  if !s.engHere n then (0#32, s)
  else (r.1.extractLsb' 0 32, r.2.2.modWin n (fun w => { w with latched := r.1.extractLsb' 32 32 }))

/-- A read of ENGCTL_IDATA_HI: the latched bytes, and the address advanced. -/
def State.idataHiRead (s : State) (n : Nat) : Word × State :=
  if s.engHere n then ((s.eng n).win.latched, s.modWin n IWin.next) else (0#32, s)

/-- IDATA_LO_WRITE (R272). -/
def execIdataLoWrite (e : BitVec 7) (v : Word) (s : State) : Host.Outcome State Fault Refusal :=
  .next (s.idataLoWrite e.toNat v)

/-- IDATA_HI_WRITE (R272). -/
def execIdataHiWrite (e : BitVec 7) (v : Word) (s : State) : Host.Outcome State Fault Refusal :=
  .next (s.idataHiWrite e.toNat v)

/-- IDATA_LO_READ (R272). -/
def execIdataLoRead (e : BitVec 7) (s : State) : Host.Outcome State Fault Refusal := .next (s.idataLoRead e.toNat).2

/-- IDATA_HI_READ (R272). -/
def execIdataHiRead (e : BitVec 7) (s : State) : Host.Outcome State Fault Refusal := .next (s.idataHiRead e.toNat).2

/-! ## Priorities and flip masks -/

/-- A run-time write of ENGCTL_TPRIO: 7 is ignored; the change goes to the arbiters (R274, R290). -/
def State.tprioWrite (s : State) (t v : Nat) : State :=
  if v % 8 = 7 then s
  else
    let s1 := s.fset (fENGCTL_TPRIO_max_prio t) v
    { s1 with prioFlight := s1.prioFlight ++ [.cap t (v % 8)] }

/-- TPRIO_WRITE (R274, R290). -/
def execTprioWrite (t : BitVec 4) (v : Word) (s : State) : Host.Outcome State Fault Refusal :=
  .next (s.tprioWrite t.toNat v.toNat)

/-- A write of port 0x0E2 of engine n: the check mask, and armed with bit 31 (R356). -/
def State.engFlipArm (s : State) (n : Nat) (v : Word) : State :=
  s.modEng n (fun e => { e with flip := { e.flip with
    check := v.extractLsb' 0 8, armed := e.flip.armed || bitN v.toNat 31 } })

/-- ENG_FLIP_ARM (R356). -/
def execEngFlipArm (c : CoreId) (v : Word) (s : State) : Host.Outcome State Fault Refusal :=
  .next (s.iff (s.coreRuns (coreNum c)) (fun t => t.engFlipArm (coreNum c) v))

/-! ## Fence entries (R286) -/

/-- Two granule ranges meet. -/
def rangesMeet (f1 l1 f2 l2 : Nat) : Bool := decide (f1 ≤ l2) && decide (f2 ≤ l1)

/-- The granules of tenant t's receive ring in region r, if it is valid: first and last (R152). -/
def State.ringGranules (s : State) (r t : Nat) : Option (Nat × Nat) :=
  if s.fon (fDECODER_RING_CFG_valid r t) then
    match spaceOf (s.fget (fDECODER_RING_BASE_base r t)) with
    | .region _ off => some (off / 0x10000, (off + 1024 * 2 ^ s.fget (fDECODER_RING_CFG_s r t) - 1) / 0x10000)
    | _ => none
  else none

/-- The granules of tenant t's inbox in system SRAM, if it is valid (R223). -/
def State.inboxGranules (s : State) (t : Nat) : Option (Nat × Nat) :=
  if s.fon (fTABLE_TINBOX_valid t) then
    match spaceOf (s.fget (fTABLE_TINBOX_base t)) with
    | .sys _ off => some (off / 0x10000, (off + 1024 * 2 ^ s.fget (fTABLE_TINBOX_s t) - 1) / 0x10000)
    | _ => none
  else none

/-- No granule of tenant t's ring in region r that stands in a read-write window of it leaves those in state `t1` (R286). -/
def State.ringKept (s t1 : State) (r t : Nat) : Bool :=
  match s.ringGranules r t with
  | some (f, l) => allFrom (fun g => !s.rfenceHit r t g true 64 || t1.rfenceHit r t g true 64) f (l - f + 1)
  | none => true

/-- No granule of tenant t's inbox that stands in a read-write window of it leaves those in state `t1` (R286). -/
def State.inboxKept (s t1 : State) (t : Nat) : Bool :=
  match s.inboxGranules t with
  | some (f, l) => allFrom (fun g => !s.sfenceHit 0 t g true 32 || t1.sfenceHit 0 t g true 32) f (l - f + 1)
  | none => true

/-- The tenant is declared and was not started (R69). -/
def State.notStarted (s : State) (t : Nat) : Bool := s.declared t && !s.started t

/-- A new region-fence entry e overlaps another valid one, among the entries below n. -/
def State.rOverlap (s : State) (r e f l n : Nat) : Bool :=
  (List.range n).any (fun i => i != e && s.fon (fTENANT_RFENCE_valid r i)
    && rangesMeet f l (s.fget (fTENANT_RFENCE_first r i)) (s.fget (fTENANT_RFENCE_last r i)))

/-- A new system-fence entry e overlaps another valid one of its space. -/
def State.sOverlap (s : State) (e sp f l n : Nat) : Bool :=
  (List.range n).any (fun i => i != e && s.fon (fTENANT_SFENCE_valid i) && s.fget (fTENANT_SFENCE_space i) == sp
    && rangesMeet f l (s.fget (fTENANT_SFENCE_first i)) (s.fget (fTENANT_SFENCE_last i)))

/-- The fence write is ignored and fence_err of tenant 0 is set (R286). -/
def State.fenceErr (s : State) : State := s.fset (fTENANT_CFG_fence_err 0) 1

/-- A run-time write of region-fence entry e of region r (R286). -/
def State.rfenceWrite (s : State) (r e : Nat) (v : Word) : State :=
  let n := v.toNat
  let t := bitsN n 29 26
  let l := bitsN n 14 8
  let f := bitsN n 6 0
  let s1 := s.setReg (aTENANT_RFENCE r e) (v &&& 0xFC007F7F#32)
  if !s.hasRegion r then s
  else if l < f then s
  else if !s.declared t || (bitN n 31 && (s.rOverlap r e f l 64 || s.notStarted t))
      || (s.fon (fTENANT_RFENCE_valid r e) && s.notStarted (s.fget (fTENANT_RFENCE_tenant r e)))
      || (List.range 16).any (fun u => !s.ringKept s1 r u) then s.fenceErr
  else s1

/-- The system fence may grant granules [f, l] of a space with this direction (Table 11-2a). -/
def grantable (sp f l : Nat) (write : Bool) : Bool :=
  match sp with
  | 0 => decide (96 ≤ f) && decide (l ≤ 127)
  | 1 => decide (96 ≤ f) && decide (l ≤ 127)
  | 2 => decide (256 ≤ f) && decide (l ≤ 2047) && !write
  | _ => false

/-- A run-time write of system-fence entry e (R286). -/
def State.sfenceWrite (s : State) (e : Nat) (v : Word) : State :=
  let n := v.toNat
  let t := bitsN n 29 26
  let sp := bitsN n 25 24
  let l := bitsN n 22 12
  let f := bitsN n 10 0
  let s1 := s.setReg (aTENANT_SFENCE e) (v &&& 0xFF7FF7FF#32)
  if l < f then s
  else if !s.declared t || (bitN n 31 && (s.sOverlap e sp f l 32 || s.notStarted t || !grantable sp f l (bitN n 30)))
      || (s.fon (fTENANT_SFENCE_valid e) && s.notStarted (s.fget (fTENANT_SFENCE_tenant e)))
      || (List.range 16).any (fun u => !s.inboxKept s1 u) then s.fenceErr
  else s1

/-- FENCE_WRITE: a supervisor write of a region-fence entry (`sys` false) or a system-fence entry (R286). -/
def execFenceWrite (sys : Bool) (r : BitVec 2) (e : BitVec 6) (v : Word) (s : State) :
    Host.Outcome State Fault Refusal :=
  .next (if sys then s.sfenceWrite (e.toNat % 32) v else s.rfenceWrite r.toNat e.toNat v)

end Sys2Proof.Machine
end

