-- ==== Sys2Proof/Machine/Trace.lean ====
section
/-!
DEFINITION. The trace stream of the supervisor's taken branches (R413).
-/

namespace Sys2Proof.Machine

/-- The stream runs: GPIO0 carries TRACE_CLK (Table 17-4; log entry 79). -/
def State.tracing (s : State) : Bool := s.fget (fPINMUX_SEL_func 0) == 7 && !s.wired.parked.contains 0

/-- The words that still wait: TRACE_CLK of 50 MHz takes five words in four reference cycles. -/
def State.traceLeft (s : State) : List (BitVec 16) :=
  s.wired.trace.fifo.drop (5 * s.mono / 4 - 5 * s.wired.trace.since / 4)

/-- The word for a taken branch to a target: its bits [17:2]. -/
def traceWord (target : Word) : BitVec 16 := target.extractLsb' 2 16

/-- A taken branch of the supervisor queues its word, after 0xFFFE when words have been lost; without room it is lost. -/
def State.traceBranch (s : State) (target : Word) : State :=
  if s.tracing then
    let q := s.traceLeft
    let ws := if s.wired.trace.lost then [0xFFFE#16, traceWord target] else [traceWord target]
    let fits := decide (q.length + ws.length ≤ 256)
    { s with wired := { s.wired with trace := { fifo := if fits then q ++ ws else q, since := s.mono, lost := !fits } } }
  else s

/-- The word on the trace balls: 0xFFFF when none waits. -/
def State.traceBalls (s : State) : BitVec 16 := s.traceLeft.headD 0xFFFF#16

end Sys2Proof.Machine
end

