-- ==== Sys2Proof/Machine/Alu.lean ====
section
/-!
DEFINITION. The Finhit instructions that touch no memory and no port: arithmetic, predicates, the multiplier, special
registers, branches and the decode table (chapter 9). Every instruction goes through `issue`, which says once when a
core executes, stalls, skips or faults.
-/

namespace Sys2Proof.Machine

/-- Bytes of I-space of a core (R46, R255). -/
def iLimit (n : Nat) : Nat := if n = 128 then 0x40000 else 0x10000

/-- Key of the 8-byte word that holds the instruction at pc. -/
def fetchKey (n : Nat) (pc : Word) : Nat := (if n = 128 then supKey pc.toNat else iKey n pc.toNat) / 8 * 8

/-- An IN or OUT has not completed, which keeps the next instruction from issuing (R234). -/
def Engine.ioWaits (e : Engine) : Bool :=
  e.outs.any (fun o => match o.kind with
    | .io .. => true
    | _ => false)

/-- The core is in a state to issue: running, not held by the plan or SLEEP, waiting for no coprocessor answer and for no IN
or OUT, not stopped by the debugger unless it steps (R412). -/
def Engine.canIssue (e : Engine) : Bool :=
  e.run == .running && !e.hold && e.wait.isNone && !e.ioWaits && (!e.dbgStop || e.stepOne)

/-- The core with the step of the debugger taken. -/
def Engine.stepped (e : Engine) : Engine := { e with stepOne := false }

/-- The instruction word at pc in the 8-byte word that holds it. -/
def fetched (w : BitVec 64) (pc : Word) : Nat := w.toNat / 2 ^ (32 * (pc.toNat / 4 % 2)) % 2 ^ 32

/-- One instruction of core c: `illegal` says that it is ILLEGAL on this core, as the word at pc may say of itself
(`finhitIllegal`); `uses` names the registers it reads, `k` is its effect, the program counter included, or none while it must
wait, when `held` is all that happens; `extra` are its cycles beyond the first. A core that does not run does nothing. Faults
rank as R253; ILLEGAL comes before the predicate (R231); a register in flight stalls whether or not the predicate holds (R234,
R240); a false predicate only passes the instruction (R230). Its cycles pass before it acts (R238, R242). A step of the
debugger ends with the instruction. -/
def issue (c : CoreId) (p : Pred) (illegal : Bool) (uses : List (BitVec 5)) (k : Engine → State → Option State) (s : State)
    (extra : Nat := 0) (held : State → State := id) : State :=
  let n := coreNum c
  let e := s.eng n
  if !e.canIssue then s
  else if iLimit n ≤ e.pc.toNat then s.engFault n 2 e.pc
  else
    let fk := fetchKey n e.pc
    match s.word64 fk with
    | (_, .bad) => (s.noteBad fk (memAddr fk) (coreTag n) false).engFault n 7 (BitVec.ofNat 32 (memAddr fk))
    | (w, st) =>
      let s1 := if st = .corrected then s.noteCorrected fk else s
      if illegal || finhitIllegal (fetched w e.pc) then s1.engFault n 1 0#32
      else if uses.any (fun r => e.inFlight r.toNat) then s
      else
        let e1 := e.tick (1 + b2n (st == .corrected) + extra)
        if e.guard p then
          match k e1 (s1.setEng n e1) with
          | some t => if e.stepOne then t.modEng n Engine.stepped else t
          | none => held s
        else s1.setEng n e1.adv.stepped

/-- An instruction that only changes its core. -/
def issueE (c : CoreId) (p : Pred) (illegal : Bool) (uses : List (BitVec 5)) (k : Engine → Engine) (s : State)
    (extra : Nat := 0) : State :=
  issue c p illegal uses (fun e t => some (t.setEng (coreNum c) (k e))) s extra

/-- rd from one source. -/
def aluOne (c : CoreId) (p : Pred) (rd rs1 : BitVec 5) (f : Word → Word) (s : State) : State :=
  issueE c p false [rs1] (fun e => (e.setX rd.toNat (f (e.x rs1.toNat))).adv) s

/-- rd from two sources. -/
def aluTwo (c : CoreId) (p : Pred) (rd rs1 rs2 : BitVec 5) (f : Word → Word → Word) (s : State) : State :=
  issueE c p false [rs1, rs2] (fun e => (e.setX rd.toNat (f (e.x rs1.toNat) (e.x rs2.toNat))).adv) s

/-- A predicate written from a compare (R232); condition 7 is ILLEGAL. -/
def compare (c : CoreId) (p : Pred) (pd : BitVec 3) (comb : BitVec 2) (cond : BitVec 3) (uses : List (BitVec 5))
    (a b : Engine → Word) (s : State) : State :=
  issueE c p (cond == 7#3) uses
    (fun e => (e.setP pd.toNat (combine comb (e.p pd.toNat) (condHolds cond (a e) (b e)))).adv) s

/-- An update queued for the multiplier (R241, R242). -/
def mulIssue (c : CoreId) (p : Pred) (uses : List (BitVec 5)) (op : Engine → MulOp) (s : State) : State :=
  issueE c p false uses (fun e => (e.mulIssue (op e)).adv) s

/-- ADDI (Table 9-3). -/
def execAddi (c : CoreId) (p : Pred) (rd rs1 : BitVec 5) (imm : BitVec 12) (s : State) :
    Host.Outcome State Fault Refusal :=
  .next (aluOne c p rd rs1 (fun a => a + sext imm) s)

/-- ANDI (Table 9-3). -/
def execAndi (c : CoreId) (p : Pred) (rd rs1 : BitVec 5) (imm : BitVec 12) (s : State) :
    Host.Outcome State Fault Refusal :=
  .next (aluOne c p rd rs1 (fun a => a &&& zext imm) s)

/-- ORI (Table 9-3). -/
def execOri (c : CoreId) (p : Pred) (rd rs1 : BitVec 5) (imm : BitVec 12) (s : State) :
    Host.Outcome State Fault Refusal :=
  .next (aluOne c p rd rs1 (fun a => a ||| zext imm) s)

/-- XORI (Table 9-3). -/
def execXori (c : CoreId) (p : Pred) (rd rs1 : BitVec 5) (imm : BitVec 12) (s : State) :
    Host.Outcome State Fault Refusal :=
  .next (aluOne c p rd rs1 (fun a => a ^^^ zext imm) s)

/-- SLTI (Table 9-3). -/
def execSlti (c : CoreId) (p : Pred) (rd rs1 : BitVec 5) (imm : BitVec 12) (s : State) :
    Host.Outcome State Fault Refusal :=
  .next (aluOne c p rd rs1 (fun a => b2w (a.slt (sext imm))) s)

/-- SLTIU (Table 9-3). -/
def execSltiu (c : CoreId) (p : Pred) (rd rs1 : BitVec 5) (imm : BitVec 12) (s : State) :
    Host.Outcome State Fault Refusal :=
  .next (aluOne c p rd rs1 (fun a => b2w (a.ult (sext imm))) s)

/-- SLLI: SHI with the shift in imm12 [4:0] (Table 9-3). -/
def execSlli (c : CoreId) (p : Pred) (rd rs1 : BitVec 5) (sh : BitVec 5) (s : State) :
    Host.Outcome State Fault Refusal :=
  .next (aluOne c p rd rs1 (fun a => a <<< sh.toNat) s)

/-- SRLI: SHI with the shift in imm12 [4:0] (Table 9-3). -/
def execSrli (c : CoreId) (p : Pred) (rd rs1 : BitVec 5) (sh : BitVec 5) (s : State) :
    Host.Outcome State Fault Refusal :=
  .next (aluOne c p rd rs1 (fun a => a >>> sh.toNat) s)

/-- SRAI: SHI with the shift in imm12 [4:0] (Table 9-3). -/
def execSrai (c : CoreId) (p : Pred) (rd rs1 : BitVec 5) (sh : BitVec 5) (s : State) :
    Host.Outcome State Fault Refusal :=
  .next (aluOne c p rd rs1 (fun a => a.sshiftRight sh.toNat) s)

/-- RORI: SHI with the shift in imm12 [4:0] (Table 9-3). -/
def execRori (c : CoreId) (p : Pred) (rd rs1 : BitVec 5) (sh : BitVec 5) (s : State) :
    Host.Outcome State Fault Refusal :=
  .next (aluOne c p rd rs1 (fun a => a.rotateRight sh.toNat) s)

/-- ADD (Table 9-4). -/
def execAdd (c : CoreId) (p : Pred) (rd rs1 rs2 : BitVec 5) (s : State) :
    Host.Outcome State Fault Refusal :=
  .next (aluTwo c p rd rs1 rs2 (fun a b => a + b) s)

/-- SUB (Table 9-4). -/
def execSub (c : CoreId) (p : Pred) (rd rs1 rs2 : BitVec 5) (s : State) :
    Host.Outcome State Fault Refusal :=
  .next (aluTwo c p rd rs1 rs2 (fun a b => a - b) s)

/-- AND (Table 9-4). -/
def execAnd (c : CoreId) (p : Pred) (rd rs1 rs2 : BitVec 5) (s : State) :
    Host.Outcome State Fault Refusal :=
  .next (aluTwo c p rd rs1 rs2 (fun a b => a &&& b) s)

/-- OR (Table 9-4). -/
def execOr (c : CoreId) (p : Pred) (rd rs1 rs2 : BitVec 5) (s : State) :
    Host.Outcome State Fault Refusal :=
  .next (aluTwo c p rd rs1 rs2 (fun a b => a ||| b) s)

/-- XOR (Table 9-4). -/
def execXor (c : CoreId) (p : Pred) (rd rs1 rs2 : BitVec 5) (s : State) :
    Host.Outcome State Fault Refusal :=
  .next (aluTwo c p rd rs1 rs2 (fun a b => a ^^^ b) s)

/-- SLL (Table 9-4). -/
def execSll (c : CoreId) (p : Pred) (rd rs1 rs2 : BitVec 5) (s : State) :
    Host.Outcome State Fault Refusal :=
  .next (aluTwo c p rd rs1 rs2 (fun a b => a <<< (b.toNat % 32)) s)

/-- SRL (Table 9-4). -/
def execSrl (c : CoreId) (p : Pred) (rd rs1 rs2 : BitVec 5) (s : State) :
    Host.Outcome State Fault Refusal :=
  .next (aluTwo c p rd rs1 rs2 (fun a b => a >>> (b.toNat % 32)) s)

/-- SRA (Table 9-4). -/
def execSra (c : CoreId) (p : Pred) (rd rs1 rs2 : BitVec 5) (s : State) :
    Host.Outcome State Fault Refusal :=
  .next (aluTwo c p rd rs1 rs2 (fun a b => a.sshiftRight (b.toNat % 32)) s)

/-- ROR (Table 9-4). -/
def execRor (c : CoreId) (p : Pred) (rd rs1 rs2 : BitVec 5) (s : State) :
    Host.Outcome State Fault Refusal :=
  .next (aluTwo c p rd rs1 rs2 (fun a b => a.rotateRight (b.toNat % 32)) s)

/-- SLT (Table 9-4). -/
def execSlt (c : CoreId) (p : Pred) (rd rs1 rs2 : BitVec 5) (s : State) :
    Host.Outcome State Fault Refusal :=
  .next (aluTwo c p rd rs1 rs2 (fun a b => b2w (a.slt b)) s)

/-- SLTU (Table 9-4). -/
def execSltu (c : CoreId) (p : Pred) (rd rs1 rs2 : BitVec 5) (s : State) :
    Host.Outcome State Fault Refusal :=
  .next (aluTwo c p rd rs1 rs2 (fun a b => b2w (a.ult b)) s)

/-- MIN (Table 9-4). -/
def execMin (c : CoreId) (p : Pred) (rd rs1 rs2 : BitVec 5) (s : State) :
    Host.Outcome State Fault Refusal :=
  .next (aluTwo c p rd rs1 rs2 (fun a b => if a.slt b then a else b) s)

/-- MAX (Table 9-4). -/
def execMax (c : CoreId) (p : Pred) (rd rs1 rs2 : BitVec 5) (s : State) :
    Host.Outcome State Fault Refusal :=
  .next (aluTwo c p rd rs1 rs2 (fun a b => if a.slt b then b else a) s)

/-- MINU (Table 9-4). -/
def execMinu (c : CoreId) (p : Pred) (rd rs1 rs2 : BitVec 5) (s : State) :
    Host.Outcome State Fault Refusal :=
  .next (aluTwo c p rd rs1 rs2 (fun a b => if a.ult b then a else b) s)

/-- MAXU (Table 9-4). -/
def execMaxu (c : CoreId) (p : Pred) (rd rs1 rs2 : BitVec 5) (s : State) :
    Host.Outcome State Fault Refusal :=
  .next (aluTwo c p rd rs1 rs2 (fun a b => if a.ult b then b else a) s)

/-- ANDN (Table 9-4). -/
def execAndn (c : CoreId) (p : Pred) (rd rs1 rs2 : BitVec 5) (s : State) :
    Host.Outcome State Fault Refusal :=
  .next (aluTwo c p rd rs1 rs2 (fun a b => a &&& ~~~b) s)

/-- CLZ (Table 9-4). -/
def execClz (c : CoreId) (p : Pred) (rd rs1 : BitVec 5) (s : State) :
    Host.Outcome State Fault Refusal :=
  .next (aluOne c p rd rs1 (fun a => clz a) s)

/-- POPC (Table 9-4). -/
def execPopc (c : CoreId) (p : Pred) (rd rs1 : BitVec 5) (s : State) :
    Host.Outcome State Fault Refusal :=
  .next (aluOne c p rd rs1 (fun a => BitVec.ofNat 32 (popc a)) s)

/-- REV8 (Table 9-4). -/
def execRev8 (c : CoreId) (p : Pred) (rd rs1 : BitVec 5) (s : State) :
    Host.Outcome State Fault Refusal :=
  .next (aluOne c p rd rs1 (fun a => rev8 a) s)

/-- SEXTB (Table 9-4). -/
def execSextb (c : CoreId) (p : Pred) (rd rs1 : BitVec 5) (s : State) :
    Host.Outcome State Fault Refusal :=
  .next (aluOne c p rd rs1 (fun a => sext (a.extractLsb' 0 8)) s)

/-- SEXTH (Table 9-4). -/
def execSexth (c : CoreId) (p : Pred) (rd rs1 : BitVec 5) (s : State) :
    Host.Outcome State Fault Refusal :=
  .next (aluOne c p rd rs1 (fun a => sext (a.extractLsb' 0 16)) s)

/-- ZEXTH (Table 9-4). -/
def execZexth (c : CoreId) (p : Pred) (rd rs1 : BitVec 5) (s : State) :
    Host.Outcome State Fault Refusal :=
  .next (aluOne c p rd rs1 (fun a => zext (a.extractLsb' 0 16)) s)

/-- MOVL (Table 9-3). -/
def execMovl (c : CoreId) (p : Pred) (rd : BitVec 5) (imm : BitVec 16) (s : State) : Host.Outcome State Fault Refusal :=
  .next (issueE c p false [] (fun e => (e.setX rd.toNat (zext imm)).adv) s)

/-- MOVH keeps rd[15:0], so it reads rd (Table 9-3). -/
def execMovh (c : CoreId) (p : Pred) (rd : BitVec 5) (imm : BitVec 16) (s : State) : Host.Outcome State Fault Refusal :=
  .next (aluOne c p rd rd (fun a => imm ++ a.extractLsb' 0 16) s)

/-- CMP (R232). -/
def execCmp (c : CoreId) (p : Pred) (pd : BitVec 3) (comb : BitVec 2) (rs1 rs2 : BitVec 5) (cond : BitVec 3)
    (s : State) : Host.Outcome State Fault Refusal :=
  .next (compare c p pd comb cond [rs1, rs2] (fun e => e.x rs1.toNat) (fun e => e.x rs2.toNat) s)

/-- CMPI (R232). -/
def execCmpi (c : CoreId) (p : Pred) (pd : BitVec 3) (comb : BitVec 2) (rs1 : BitVec 5) (cond : BitVec 3)
    (imm : BitVec 9) (s : State) : Host.Outcome State Fault Refusal :=
  .next (compare c p pd comb cond [rs1] (fun e => e.x rs1.toNat) (fun _ => sext imm) s)

/-- PLOG; op 3 is ILLEGAL (R232). -/
def execPlog (c : CoreId) (p : Pred) (pd pa : BitVec 3) (ainv : Bool) (pb : BitVec 3) (binv : Bool) (op : BitVec 2)
    (s : State) : Host.Outcome State Fault Refusal :=
  .next (issueE c p (op == 3#2) []
    (fun e => (e.setP pd.toNat (plogOp op (Bool.xor (e.p pa.toNat) ainv) (Bool.xor (e.p pb.toNat) binv))).adv) s)

/-- MUL (R241). -/
def execMul (c : CoreId) (p : Pred) (rs1 rs2 : BitVec 5) (s : State) : Host.Outcome State Fault Refusal :=
  .next (mulIssue c p [rs1, rs2] (fun e => .mul (e.x rs1.toNat) (e.x rs2.toNat)) s)

/-- MULU (R241). -/
def execMulu (c : CoreId) (p : Pred) (rs1 rs2 : BitVec 5) (s : State) : Host.Outcome State Fault Refusal :=
  .next (mulIssue c p [rs1, rs2] (fun e => .mulu (e.x rs1.toNat) (e.x rs2.toNat)) s)

/-- MAC (R241). -/
def execMac (c : CoreId) (p : Pred) (rs1 rs2 : BitVec 5) (s : State) : Host.Outcome State Fault Refusal :=
  .next (mulIssue c p [rs1, rs2] (fun e => .mac (e.x rs1.toNat) (e.x rs2.toNat)) s)

/-- Cycles may pass at a core without an instruction of it: it does not issue, or an access outside its memory is open, for
which an instruction may wait (R234). -/
def Engine.mayStall (e : Engine) : Bool := !e.canIssue || !e.outs.isEmpty

/-- MULTIPLIER_UPDATE: the oldest update issued and not applied is applied, 3 cycles after its issue: no sooner than in the
cycle of the third instruction after it, where nothing stalls the core between (R242). -/
def execMultiplierUpdate (c : CoreId) (s : State) : Host.Outcome State Fault Refusal :=
  .next (s.modEng (coreNum c) (fun e =>
    match e.mulq with
    | [] => e
    | (op, left) :: rest => if left ≤ 1 || e.mayStall then { e with mac := mulApply op e.mac, mulq := rest } else e))

/-- MFS: a special register into rd; numbers 7–31 are ILLEGAL; CYCLO latches CYCHI (R226, Table 9-1). -/
def execMfs (c : CoreId) (p : Pred) (rd : BitVec 5) (sr : BitVec 5) (s : State) : Host.Outcome State Fault Refusal :=
  let n := coreNum c
  .next (issue c p (decide (7 ≤ sr.toNat)) []
    (fun e t =>
      let cyc := t.cyclo (coreCluster n)
      let v : Word :=
        match sr.toNat with
        | 0 => e.mac.extractLsb' 0 32
        | 1 => e.mac.extractLsb' 32 32
        | 2 => e.pr
        | 3 => BitVec.ofNat 32 cyc
        | 4 => e.cychi
        | 5 => t.engId n
        | _ => BitVec.ofNat 32 e.cur
      let e1 : Engine := if sr.toNat = 3 then { e with cychi := BitVec.ofNat 32 (cyc / 2 ^ 32) } else e
      some (t.setEng n ((e1.setX rd.toNat v).adv))) s)

/-- MTS: rs1 into a special register; ML and MH through the multiplier's queue (R242), PR at once, the others are read
only; numbers 7–31 are ILLEGAL (R226, Table 9-1). -/
def execMts (c : CoreId) (p : Pred) (sr : BitVec 5) (rs1 : BitVec 5) (s : State) : Host.Outcome State Fault Refusal :=
  .next (issueE c p (decide (7 ≤ sr.toNat)) [rs1]
    (fun e =>
      let v := e.x rs1.toNat
      (match sr.toNat with
        | 0 => e.mulIssue (.setLo v)
        | 1 => e.mulIssue (.setHi v)
        | 2 => e.setPr v
        | _ => e).adv) s)

/-- A branch of core n to a target, with its bubble (Table 9-7): outside I-space it faults FETCH at the branch and nothing
else happens (R236, R253). One of the supervisor is traced (R413). -/
def branchTo (n : Nat) (target : Word) (e : Engine) (s : State) : Option State :=
  some (if iLimit n ≤ target.toNat then s.engFault n 2 target
    else (s.iff (n == 128) (fun t => t.traceBranch target)).setEng n ((e.setPc target).tick 1))

/-- B (R236). -/
def execB (c : CoreId) (p : Pred) (off : BitVec 22) (s : State) : Host.Outcome State Fault Refusal :=
  .next (issue c p false [] (fun e t => branchTo (coreNum c) (e.pc + (sext off) <<< 2) e t) s)

/-- CALL: x31 = pc + 4 (R236). -/
def execCall (c : CoreId) (p : Pred) (off : BitVec 22) (s : State) : Host.Outcome State Fault Refusal :=
  .next (issue c p false []
    (fun e t => branchTo (coreNum c) (e.pc + (sext off) <<< 2) (e.setX 31 (e.pc + 4#32)) t) s)

/-- JALR: rd = pc + 4, the target from rs1 read first, its two low bits cleared (R236). -/
def execJalr (c : CoreId) (p : Pred) (rd rs1 : BitVec 5) (imm : BitVec 12) (s : State) :
    Host.Outcome State Fault Refusal :=
  .next (issue c p false [rs1]
    (fun e t => branchTo (coreNum c) (effAddr (e.x rs1.toNat) imm &&& 0xFFFFFFFC#32) (e.setX rd.toNat (e.pc + 4#32)) t) s)

/-- FENCE stalls until every earlier access and coprocessor request has completed (R234). -/
def execFence (c : CoreId) (p : Pred) (s : State) : Host.Outcome State Fault Refusal :=
  .next (issue c p false [] (fun e t => if e.outs.isEmpty then some (t.setEng (coreNum c) e.adv) else none) s)

/-- YIELD gives up the core and dispatches (R260, Table 10-1). -/
def execYield (c : CoreId) (p : Pred) (done : Bool) (s : State) : Host.Outcome State Fault Refusal :=
  .next (issue c p false []
    (fun e t =>
      let t1 := t.setEng (coreNum c) (e.adv.modSlot e.cur (fun sl => sl.yield done t.age)).dispatch
      some { t1 with age := t1.age + 1 }) s 1)

/-- BRK stops for the debugger when the debug port is unlocked and attached, else faults BREAK (R254). -/
def execBrk (c : CoreId) (p : Pred) (code : BitVec 16) (s : State) : Host.Outcome State Fault Refusal :=
  .next (issue c p false []
    (fun e t =>
      some (if t.fon fSYS_DBG_attached && decide (t.fget fSYS_DBG_scope ≠ 0) then
        (t.setEng (coreNum c) e.adv).dbgHold (coreNum c) true
      else t.engFault (coreNum c) 6 (zext code))) s)

/-! ## The decode table (R248–R250) -/

/-- The temporaries and staging value of a decode-table entry while it runs. -/
structure DtabSt where
  t0 : Word := 0#32
  t1 : Word := 0#32
  t2 : Word := 0#32
  t3 : Word := 0#32
  rd : Option Word := none
  deriving DecidableEq, Repr

/-- A source of a micro-op (Table 9-12). -/
def dtabSrc (d : DtabSt) (s1 s2 k imm : Word) (sel : Nat) : Word :=
  match sel with
  | 0 => d.t0
  | 1 => d.t1
  | 2 => d.t2
  | 3 => d.t3
  | 4 => s1
  | 5 => s2
  | 6 => k
  | _ => imm

/-- The operation of a micro-op; `t3` is the select of SEL (Table 9-12). -/
def dtabOp (u : Nat) (a b t3 : Word) : Word :=
  match u with
  | 0 => a + b
  | 1 => a - b
  | 2 => a &&& b
  | 3 => a ||| b
  | 4 => a ^^^ b
  | 5 => a &&& ~~~b
  | 6 => a <<< (b.toNat % 32)
  | 7 => a >>> (b.toNat % 32)
  | 8 => a.sshiftRight (b.toNat % 32)
  | 9 => a.rotateRight (b.toNat % 32)
  | 10 => if a.slt b then a else b
  | 11 => if a.slt b then b else a
  | 12 => if a.ult b then a else b
  | 13 => if a.ult b then b else a
  | 14 => clz a
  | 15 => BitVec.ofNat 32 (popc a)
  | 16 => rev8 a
  | 17 => brev a
  | 18 => b2w (a == b)
  | 19 => b2w (a.slt b)
  | 20 => b2w (a.ult b)
  | 21 => if t3 ≠ 0#32 then a else b
  | _ => a

/-- A micro-op has no reserved value (R249, Table 9-12): a single-operand one has b 0. -/
def uopOk (w : Nat) : Bool :=
  let u := bitsN w 30 26
  !bitN w 31 && decide (u ≤ 22) && decide (bitsN w 25 23 ≤ 4)
    && (!((decide (14 ≤ u) && decide (u ≤ 17)) || u == 22) || bitsN w 19 17 == 0)

/-- One micro-op (R250). -/
def dtabStep (s1 s2 k : Word) (d : DtabSt) (w : Nat) : DtabSt :=
  let imm : Word := if bitN w 16 then sext (BitVec.ofNat 16 w) else zext (BitVec.ofNat 16 w)
  let v := dtabOp (bitsN w 30 26) (dtabSrc d s1 s2 k imm (bitsN w 22 20)) (dtabSrc d s1 s2 k imm (bitsN w 19 17)) d.t3
  match bitsN w 25 23 with
  | 0 => { d with t0 := v }
  | 1 => { d with t1 := v }
  | 2 => { d with t2 := v }
  | 3 => { d with t3 := v }
  | _ => { d with rd := some v }

/-- The micro-ops of entry idx of a cluster's store, or none where DTAB is ILLEGAL (R249). -/
def State.dtabEntry (s : State) (c idx : Nat) : Option (List Nat) :=
  let h := s.num (dtabKey c (4 * idx)) 4
  let len := bitsN h 13 9 + 1
  let start := bitsN h 8 0
  let ops := (List.range len).map (fun i => s.num (dtabKey c (4 * (start + i))) 4)
  if bitN h 31 && decide (16 ≤ start) && decide (start + len ≤ 512) && ops.all uopOk then some ops else none

/-- DTAB: the micro-ops of the entry in order; rd takes the last staging value or keeps its own (R250). ILLEGAL on the
other variants (R3), on the supervisor (R255) and for an entry that R249 refuses. -/
def execDtab (c : CoreId) (p : Pred) (rd rs1 rs2 : BitVec 5) (idx : BitVec 4) (k : BitVec 3) (s : State) :
    Host.Outcome State Fault Refusal :=
  let n := coreNum c
  let entry := if Config.hasDtab s.variant && decide (n < 128) then s.dtabEntry (clusterOf n) idx.toNat else none
  .next (issueE c p entry.isNone [rs1, rs2]
    (fun e =>
      let d := (entry.getD []).foldl (dtabStep (e.x rs1.toNat) (e.x rs2.toNat) (zext k)) {}
      (match d.rd with
        | some v => e.setX rd.toNat v
        | none => e).adv) s ((entry.getD []).length - 1))

end Sys2Proof.Machine
end

