-- ==== Sys2Proof/Machine/Crypto.lean ====
section
/-!
DEFINITION. The published algorithms that chapter 12 names: AES-128 (FIPS 197), CTR, CCM (SP 800-38C), GCM (SP 800-38D),
RFC 3394 key wrap, SHA-256 (FIPS 180-4) and ECDSA over P-256 (FIPS 186). PRESUMED: the algorithms are those standards'
(log entry 21).
-/

namespace Sys2Proof.Machine

/-! ## AES-128 -/

/-- Product with x in the AES field. -/
def gfDouble (a : Nat) : Nat := if 128 ≤ a then Nat.xor (a * 2 % 256) 0x1B else a * 2

/-- Product in the AES field, n bits of b. -/
def gfMul (n a b : Nat) : Nat :=
  match n with
  | 0 => 0
  | k + 1 => Nat.xor (if b % 2 = 1 then a else 0) (gfMul k (gfDouble a) (b / 2))

/-- Element k of a list of numbers, 0 past the end. -/
def nth (l : List Nat) (k : Nat) : Nat := l.getD k 0

/-- The rows of the AES S-box (FIPS 197), the byte for the low digit 0 first. -/
def aesSboxRows : List Nat :=
  [0x637c777bf26b6fc53001672bfed7ab76, 0xca82c97dfa5947f0add4a2af9ca472c0, 0xb7fd9326363ff7cc34a5e5f171d83115,
   0x04c723c31896059a071280e2eb27b275, 0x09832c1a1b6e5aa0523bd6b329e32f84, 0x53d100ed20fcb15b6acbbe394a4c58cf,
   0xd0efaafb434d338545f9027f503c9fa8, 0x51a3408f929d38f5bcb6da2110fff3d2, 0xcd0c13ec5f974417c4a77e3d645d1973,
   0x60814fdc222a908846eeb814de5e0bdb, 0xe0323a0a4906245cc2d3ac629195e479, 0xe7c8376d8dd54ea96c56f4ea657aae08,
   0xba78252e1ca6b4c6e8dd741f4bbd8b8a, 0x703eb5664803f60e613557b986c11d9e, 0xe1f8981169d98e949b1e87e9ce5528df,
   0x8ca1890dbfe6426841992d0fb054bb16]

/-- The rows of the inverse S-box (FIPS 197). -/
def aesInvRows : List Nat :=
  [0x52096ad53036a538bf40a39e81f3d7fb, 0x7ce339829b2fff87348e4344c4dee9cb, 0x547b9432a6c2233dee4c950b42fac34e,
   0x082ea16628d924b2765ba2496d8bd125, 0x72f8f66486689816d4a45ccc5d65b692, 0x6c704850fdedb9da5e154657a78d9d84,
   0x90d8ab008cbcd30af7e45805b8b34506, 0xd02c1e8fca3f0f02c1afbd0301138a6b, 0x3a9111414f67dcea97f2cfcef0b4e673,
   0x96ac7422e7ad3585e2f937e81c75df6e, 0x47f11a711d29c5896fb7620eaa18be1b, 0xfc563e4bc6d279209adbc0fe78cd5af4,
   0x1fdda8338807c731b11210592780ec5f, 0x60517fa919b54a0d2de57a9f93c99cef, 0xa0e03b4dae2af5b0c8ebbb3c83539961,
   0x172b047eba77d626e169146355210c7d]

/-- The byte of a table of 16 rows of 16 bytes at index a. -/
def byteAt16 (rows : List Nat) (a : Nat) : Nat := nth rows (a / 16) / 256 ^ (15 - a % 16) % 256

/-- The AES S-box. -/
def aesSbox (a : Nat) : Nat := byteAt16 aesSboxRows a

/-- The inverse S-box. -/
def aesInvSbox (a : Nat) : Nat := byteAt16 aesInvRows a

/-- Element-wise exclusive or. -/
def xorN (a b : List Nat) : List Nat := List.zipWith Nat.xor a b

/-- The next round key from round key w and constant rc. -/
def aesNextKey (w : List Nat) (rc : Nat) : List Nat :=
  let t := [Nat.xor (aesSbox (nth w 13)) rc, aesSbox (nth w 14), aesSbox (nth w 15), aesSbox (nth w 12)]
  let a := xorN (w.take 4) t
  let b := xorN ((w.drop 4).take 4) a
  let c := xorN ((w.drop 8).take 4) b
  a ++ b ++ c ++ xorN (w.drop 12) c

/-- n further round keys. -/
def aesKeys (n : Nat) (w : List Nat) (rc : Nat) : List (List Nat) :=
  match n with
  | 0 => [w]
  | k + 1 => w :: aesKeys k (aesNextKey w rc) (gfDouble rc)

/-- Row r of the state (column order) rotated by r places. -/
def aesShift (s : List Nat) (dir : Nat) : List Nat :=
  (List.range 16).map (fun i => nth s (i % 4 + 4 * ((i / 4 + dir * (i % 4)) % 4)))

/-- One column mixed with a circulant row. -/
def aesMixCol (m : List Nat) (c : List Nat) : List Nat :=
  (List.range 4).map (fun r =>
    (List.range 4).foldl (fun a j => Nat.xor a (gfMul 4 (nth c j) (nth m ((j + 4 - r) % 4)))) 0)

/-- Every column mixed. -/
def aesMix (m : List Nat) (s : List Nat) : List Nat :=
  (List.range 4).foldl (fun acc c => acc ++ aesMixCol m ((s.drop (4 * c)).take 4)) []

/-- The rounds of encryption over the remaining round keys. -/
def aesRounds (s : List Nat) : List (List Nat) → List Nat
  | [] => s
  | [k] => xorN (aesShift (s.map aesSbox) 1) k
  | k :: rest => aesRounds (xorN (aesMix [2, 3, 1, 1] (aesShift (s.map aesSbox) 1)) k) rest

/-- The rounds of decryption over the remaining round keys, last first. -/
def aesInvRounds (s : List Nat) : List (List Nat) → List Nat
  | [] => s
  | [k] => xorN ((aesShift s 3).map aesInvSbox) k
  | k :: rest => aesInvRounds (aesMix [14, 11, 13, 9] (xorN ((aesShift s 3).map aesInvSbox) k)) rest

/-- AES-128 encryption of one block. -/
def aesEnc (key blk : List Byte) : List Byte :=
  let ks := aesKeys 10 (key.map BitVec.toNat) 1
  (aesRounds (xorN (blk.map BitVec.toNat) (ks.headD [])) (ks.drop 1)).map (BitVec.ofNat 8)

/-- AES-128 decryption of one block. -/
def aesDec (key blk : List Byte) : List Byte :=
  let ks := (aesKeys 10 (key.map BitVec.toNat) 1).reverse
  (aesInvRounds (xorN (blk.map BitVec.toNat) (ks.headD [])) (ks.drop 1)).map (BitVec.ofNat 8)

/-- Blocks of 16 bytes, the last one as long as it comes. -/
def blocks16 (n : Nat) (bs : List Byte) : List (List Byte) :=
  match n with
  | 0 => []
  | k + 1 => if bs.isEmpty then [] else bs.take 16 :: blocks16 k (bs.drop 16)

/-- All blocks of a message. -/
def blocksOf (bs : List Byte) : List (List Byte) := blocks16 (bs.length / 16 + 1) bs

/-- ECB over whole blocks. -/
def aesEcb (f : List Byte → List Byte) (bs : List Byte) : List Byte :=
  (blocksOf bs).foldl (fun acc b => acc ++ f b) []

/-- A 16-byte counter block plus one, in its last n bytes (big-endian). -/
def ctrInc (n : Nat) (c : List Byte) : List Byte := c.take (16 - n) ++ beBytes n ((beNat (c.drop (16 - n)) + 1) % 256 ^ n)

/-- Counter mode from counter block c, n counter bytes: output and the next counter block. -/
def aesCtrRun (key : List Byte) (n : Nat) : List Byte → List (List Byte) → List Byte × List Byte
  | c, [] => ([], c)
  | c, b :: rest =>
    let r := aesCtrRun key n (ctrInc n c) rest
    (xorBytes b (aesEnc key c) ++ r.1, r.2)

/-- CBC-MAC over blocks padded with zeros, from chaining value x. -/
def cbcMac (key x : List Byte) (bs : List (List Byte)) : List Byte :=
  bs.foldl (fun a b => aesEnc key (xorBytes a (takePad 16 b))) x

/-! ## CCM with L = 2 -/

/-- The CCM tag of m bytes before its encryption: nonce of 13 bytes. -/
def ccmMac (key nonce aad msg : List Byte) (m : Nat) : List Byte :=
  let b0 := BitVec.ofNat 8 ((if aad.isEmpty then 0 else 64) + (m - 2) / 2 * 8 + 1) :: (takePad 13 nonce ++ beBytes 2 msg.length)
  let a := if aad.isEmpty then [] else blocksOf (beBytes 2 aad.length ++ aad)
  (cbcMac key (takePad 16 []) ([b0] ++ a ++ blocksOf msg)).take m

/-- The CCM counter block i. -/
def ccmCtr (nonce : List Byte) (i : Nat) : List Byte := 1#8 :: (takePad 13 nonce ++ beBytes 2 i)

/-- The CCM key stream applied to a message. -/
def ccmCrypt (key nonce msg : List Byte) : List Byte := (aesCtrRun key 2 (ccmCtr nonce 1) (blocksOf msg)).1

/-- CCM encryption: ciphertext and encrypted tag of m bytes. -/
def ccmEnc (key nonce aad msg : List Byte) (m : Nat) : List Byte × List Byte :=
  (ccmCrypt key nonce msg, xorBytes (ccmMac key nonce aad msg m) (aesEnc key (ccmCtr nonce 0)))

/-- CCM decryption: plaintext, or none when the tag is wrong. -/
def ccmDec (key nonce aad ct tag : List Byte) : Option (List Byte) :=
  let pt := ccmCrypt key nonce ct
  if xorBytes (ccmMac key nonce aad pt tag.length) (aesEnc key (ccmCtr nonce 0)) = tag then some pt else none

/-! ## GCM with a 12-byte IV -/

/-- Product in the GCM field, over n bits of x from the highest; z accumulates, v is the shifted factor. -/
def ghashMulN (n x z v : Nat) : Nat :=
  match n with
  | 0 => z
  | k + 1 =>
    ghashMulN k x (if bitN x k then Nat.xor z v else z)
      (if v % 2 = 1 then Nat.xor (v / 2) (0xE1 * 2 ^ 120) else v / 2)

/-- GHASH of blocks from accumulator y under hash key h. -/
def ghash (h y : Nat) (bs : List (List Byte)) : Nat :=
  bs.foldl (fun a b => ghashMulN 128 (Nat.xor a (beNat (takePad 16 b))) 0 h) y

/-- The hash key. -/
def gcmH (key : List Byte) : Nat := beNat (aesEnc key (takePad 16 []))

/-- The first counter block of a GCM message. -/
def gcmJ0 (iv : List Byte) : List Byte := takePad 12 iv ++ beBytes 4 1

/-- The GCM tag of m bytes from the accumulator after data, the lengths in bytes and J0. -/
def gcmTag (key : List Byte) (y aadLen dataLen : Nat) (j0 : List Byte) (m : Nat) : List Byte :=
  let s := ghash (gcmH key) y [beBytes 8 (aadLen * 8) ++ beBytes 8 (dataLen * 8)]
  (xorBytes (beBytes 16 s) (aesEnc key j0)).take m

/-! ## RFC 3394 key wrap -/

/-- The RFC 3394 initial value. -/
def kwIv : Nat := 0xA6A6A6A6A6A6A6A6

/-- One pass of wrapping over 64-bit registers; t counts the steps. -/
def kwPass (key : List Byte) : Nat → Nat → List Nat → Nat × List Nat × Nat
  | a, t, [] => (a, [], t)
  | a, t, r :: rest =>
    let b := beNat (aesEnc key (beBytes 8 a ++ beBytes 8 r))
    let q := kwPass key (Nat.xor (b / 2 ^ 64) (t + 1)) (t + 1) rest
    (q.1, b % 2 ^ 64 :: q.2.1, q.2.2)

/-- n passes of wrapping. -/
def kwPasses (key : List Byte) (n : Nat) (a t : Nat) (rs : List Nat) : Nat × List Nat :=
  match n with
  | 0 => (a, rs)
  | k + 1 =>
    let q := kwPass key a t rs
    kwPasses key k q.1 q.2.2 q.2.1

/-- The 64-bit registers of bytes. -/
def regs64 (bs : List Byte) : List Nat :=
  (List.range (bs.length / 8)).map (fun i => beNat ((bs.drop (8 * i)).take 8))

/-- The wrapping of a key of whole 8-byte registers (RFC 3394). -/
def kwWrap (kek pt : List Byte) : List Byte :=
  let r := kwPasses kek 6 kwIv 0 (regs64 pt)
  (r.1 :: r.2).foldl (fun acc w => acc ++ beBytes 8 w) []

/-- One pass of unwrapping over registers in reverse order. -/
def kwUnpass (key : List Byte) : Nat → Nat → List Nat → Nat × List Nat × Nat
  | a, t, [] => (a, [], t)
  | a, t, r :: rest =>
    let b := beNat (aesDec key (beBytes 8 (Nat.xor a t) ++ beBytes 8 r))
    let q := kwUnpass key (b / 2 ^ 64) (t - 1) rest
    (q.1, b % 2 ^ 64 :: q.2.1, q.2.2)

/-- n passes of unwrapping over registers in reverse order. -/
def kwUnpasses (key : List Byte) (n : Nat) (a t : Nat) (rs : List Nat) : Nat × List Nat :=
  match n with
  | 0 => (a, rs)
  | k + 1 =>
    let q := kwUnpass key a t rs
    kwUnpasses key k q.1 q.2.2 q.2.1

/-- The key in a wrapping, or none when its integrity check fails (RFC 3394). -/
def kwUnwrap (kek ct : List Byte) : Option (List Byte) :=
  match regs64 ct with
  | [] => none
  | a :: rs =>
    let r := kwUnpasses kek 6 a (6 * rs.length) rs.reverse
    if r.1 = kwIv then some (r.2.reverse.foldl (fun acc w => acc ++ beBytes 8 w) []) else none

/-! ## SHA-256 -/

/-- The round constants. -/
def shaK : List Nat :=
  [0x428a2f98, 0x71374491, 0xb5c0fbcf, 0xe9b5dba5, 0x3956c25b, 0x59f111f1, 0x923f82a4, 0xab1c5ed5] ++
  [0xd807aa98, 0x12835b01, 0x243185be, 0x550c7dc3, 0x72be5d74, 0x80deb1fe, 0x9bdc06a7, 0xc19bf174] ++
  [0xe49b69c1, 0xefbe4786, 0x0fc19dc6, 0x240ca1cc, 0x2de92c6f, 0x4a7484aa, 0x5cb0a9dc, 0x76f988da] ++
  [0x983e5152, 0xa831c66d, 0xb00327c8, 0xbf597fc7, 0xc6e00bf3, 0xd5a79147, 0x06ca6351, 0x14292967] ++
  [0x27b70a85, 0x2e1b2138, 0x4d2c6dfc, 0x53380d13, 0x650a7354, 0x766a0abb, 0x81c2c92e, 0x92722c85] ++
  [0xa2bfe8a1, 0xa81a664b, 0xc24b8b70, 0xc76c51a3, 0xd192e819, 0xd6990624, 0xf40e3585, 0x106aa070] ++
  [0x19a4c116, 0x1e376c08, 0x2748774c, 0x34b0bcb5, 0x391c0cb3, 0x4ed8aa4a, 0x5b9cca4f, 0x682e6ff3] ++
  [0x748f82ee, 0x78a5636f, 0x84c87814, 0x8cc70208, 0x90befffa, 0xa4506ceb, 0xbef9a3f7, 0xc67178f2]

/-- The initial hash value. -/
def shaH0 : List Nat :=
  [0x6a09e667, 0xbb67ae85, 0x3c6ef372, 0xa54ff53a, 0x510e527f, 0x9b05688c, 0x1f83d9ab, 0x5be0cd19]

/-- Rotation of a word right by k. -/
def rotr32 (x k : Nat) : Nat := x / 2 ^ k + x % 2 ^ k * 2 ^ (32 - k)

/-- n further schedule words, the last 16 held newest first. -/
def shaSched (n : Nat) (w : List Nat) : List Nat :=
  match n with
  | 0 => w
  | k + 1 =>
    let a := nth w 14
    let b := nth w 1
    let s0 := Nat.xor (Nat.xor (rotr32 a 7) (rotr32 a 18)) (a / 8)
    let s1 := Nat.xor (Nat.xor (rotr32 b 17) (rotr32 b 19)) (b / 1024)
    shaSched k ((nth w 15 + s0 + nth w 6 + s1) % 2 ^ 32 :: w)

/-- One round on the eight working words. -/
def shaRound (h : List Nat) (kw : Nat) : List Nat :=
  let a := nth h 0
  let e := nth h 4
  let s1 := Nat.xor (Nat.xor (rotr32 e 6) (rotr32 e 11)) (rotr32 e 25)
  let ch := Nat.xor (Nat.land e (nth h 5)) (Nat.land (2 ^ 32 - 1 - e) (nth h 6))
  let t1 := nth h 7 + s1 + ch + kw
  let s0 := Nat.xor (Nat.xor (rotr32 a 2) (rotr32 a 13)) (rotr32 a 22)
  let mj := Nat.xor (Nat.xor (Nat.land a (nth h 1)) (Nat.land a (nth h 2))) (Nat.land (nth h 1) (nth h 2))
  [(t1 + s0 + mj) % 2 ^ 32, a, nth h 1, nth h 2, (nth h 3 + t1) % 2 ^ 32, e, nth h 5, nth h 6]

/-- The hash value after one 64-byte block. -/
def shaBlock (h : List Nat) (b : List Byte) : List Nat :=
  let w0 := (List.range 16).map (fun i => beNat ((b.drop (4 * i)).take 4))
  let w := (shaSched 48 w0.reverse).reverse
  let r := (List.zipWith (· + ·) w shaK).foldl shaRound h
  List.zipWith (fun x y => (x + y) % 2 ^ 32) h r

/-- The hash value after whole blocks, at most n of them. -/
def shaBlocks (n : Nat) (h : List Nat) (bs : List Byte) : List Nat :=
  match n with
  | 0 => h
  | k + 1 => if bs.length < 64 then h else shaBlocks k (shaBlock h (bs.take 64)) (bs.drop 64)

/-- The padding of a message of n bytes in all. -/
def shaPad (n : Nat) : List Byte := [0x80#8] ++ takePad ((119 - n % 64) % 64) [] ++ beBytes 8 (n * 8)

/-- The digest bytes of a hash value. -/
def shaOut (h : List Nat) : List Byte := h.foldl (fun acc w => acc ++ beBytes 4 w) []

/-- SHA-256 of a message. -/
def sha256 (bs : List Byte) : List Byte :=
  shaOut (shaBlocks (bs.length / 64 + 2) shaH0 (bs ++ shaPad bs.length))

/-! ## P-256 -/

/-- The field prime. -/
def p256P : Nat := 0xffffffff00000001000000000000000000000000ffffffffffffffffffffffff

/-- The group order. -/
def p256N : Nat := 0xffffffff00000000ffffffffffffffffbce6faada7179e84f3b9cac2fc632551

/-- The curve coefficient b. -/
def p256B : Nat := 0x5ac635d8aa3a93e7b3ebbd55769886bc651d06b0cc53b0f63bce3c3e27d2604b

/-- The base point. -/
def p256G : Nat × Nat :=
  (0x6b17d1f2e12c4247f8bce6e563a440f277037d812deb33a0f4a13945d898c296,
   0x4fe342e2fe1a7f9b8ee7eb4a7c0f9e162bce33576b315ececbb6406837bf51f5)

/-- b to the power e modulo m, over n bits of e. -/
def powMod (n m b e : Nat) : Nat :=
  match n with
  | 0 => 1
  | k + 1 =>
    let h := powMod k m (b * b % m) (e / 2)
    if e % 2 = 1 then h * b % m else h

/-- The inverse modulo a prime below 2^256. -/
def invMod (m a : Nat) : Nat := powMod 256 m (a % m) (m - 2)

/-- Sum of two points; none is the point at infinity. -/
def ecAdd (a b : Option (Nat × Nat)) : Option (Nat × Nat) :=
  match a, b with
  | none, q => q
  | q, none => q
  | some (x1, y1), some (x2, y2) =>
    let p := p256P
    if x1 = x2 && (y1 + y2) % p = 0 then none
    else
      let l := if x1 = x2 then (3 * x1 * x1 + (p - 3)) % p * invMod p (2 * y1) % p
        else (y2 + p - y1) % p * invMod p (x2 + p - x1) % p
      let x3 := (l * l + 2 * p - x1 - x2) % p
      some (x3, (l * ((x1 + p - x3) % p) + p - y1) % p)

/-- k times a point, over the low n bits of k, the most significant bit first. -/
def ecMul (n k : Nat) (q : Option (Nat × Nat)) : Option (Nat × Nat) :=
  match n with
  | 0 => none
  | m + 1 =>
    let r := ecMul m (k / 2) q
    let d := ecAdd r r
    if k % 2 = 1 then ecAdd d q else d

/-- The point lies on the curve. -/
def onCurve (q : Nat × Nat) : Bool :=
  decide (q.1 < p256P) && decide (q.2 < p256P)
    && decide (q.2 * q.2 % p256P = (q.1 * q.1 * q.1 + (p256P - 3) * q.1 + p256B) % p256P)

/-- ECDSA P-256 verification of a digest: public key X then Y, signature r then s, all big-endian. -/
def ecdsaVerify (pub digest sig : List Byte) : Bool :=
  let q := (beNat (pub.take 32), beNat ((pub.drop 32).take 32))
  let r := beNat (sig.take 32)
  let t := beNat ((sig.drop 32).take 32)
  if r = 0 || p256N ≤ r || t = 0 || p256N ≤ t || !onCurve q then false
  else
    let w := invMod p256N t
    match ecAdd (ecMul 256 (beNat digest * w % p256N) (some p256G)) (ecMul 256 (r * w % p256N) (some q)) with
    | none => false
    | some (x, _) => x % p256N == r

/-- An ECDSA P-256 signature with private key d and nonce k. -/
def ecdsaSign (d k : Nat) (digest : List Byte) : List Byte :=
  let r := match ecMul 256 k (some p256G) with
    | none => 0
    | some (x, _) => x % p256N
  beBytes 32 r ++ beBytes 32 (invMod p256N k * (beNat digest + r * d) % p256N)

/-- A random 256-bit draw as a scalar in [1, n − 1]. -/
def scalarOf (x : Nat) : Nat := x % (p256N - 1) + 1

end Sys2Proof.Machine
end

