-- ==== Sys2Proof/Machine/Image.lean ====
section
/-!
DEFINITION. The tack image (R56–R68): header, manifest, section table and the checks of Table 2-7. An image is named by
the key of its first byte: a bank of the attached flash, or the staging area of UART recovery. Codes are those of
SYS_BOOT_STATUS: 1 OK, 2 MAGIC, 3 VARIANT, 4 ROM_RANGE, 5 KEY, 6 ROLLBACK, 7 PROFILE, 8 LENGTH, 9 SIGNATURE, 10 MANIFEST,
11 FLASH, 12 TRIAL.
-/

namespace Sys2Proof.Machine

/-- Bytes of a bank and greatest length of an image (R56). -/
def bankBytes : Nat := 0x800000

/-- Key of the first byte of bank b, 0 A and 1 B. -/
def bankKey (b : Nat) : Nat := flashKey (b * bankBytes)

/-! ## The header (Table 2-4) -/

/-- n bytes at offset o are all 0. -/
def zeroAt (h : List Byte) (o n : Nat) : Bool := ((h.drop o).take n).all (fun b => b == 0#8)

/-- Check 1: magic, format, reserved bytes, header CRC. -/
def headMagic (h : List Byte) : Bool :=
  fieldLe h 0 4 == 0x5441434B && fieldLe h 4 1 == 3 && zeroAt h 6 2 && zeroAt h 0x29 23 && zeroAt h 0x80 124
    && crc32 (h.take 0xFC) == fieldLe h 0xFC 4

/-- Check 7: lengths, offsets and counts (header fields only). -/
def headLengths (h : List Byte) : Bool :=
  let body := fieldLe h 0x14 4
  let man := fieldLe h 0x18 4
  let manN := fieldLe h 0x1C 2
  let secN := fieldLe h 0x1E 2
  let sec := fieldLe h 0x20 4
  let sig := fieldLe h 0x24 4
  decide (64 ≤ body) && decide (0x100 + body ≤ bankBytes) && sig == 0x100 + body - 64 && man % 16 == 0 && sec % 16 == 0
    && decide (2 ≤ manN) && decide (manN ≤ 34) && decide (1 ≤ secN) && decide (secN ≤ 256)
    && decide (0x100 ≤ man) && decide (man + 16 * manN ≤ sig) && decide (0x100 ≤ sec) && decide (sec + 16 * secN ≤ sig)

/-- Checks 1–7 of Table 2-7 on a header: 1, or the code of the first that fails. Check 2 tests the bit of the running
part alone: bits 3–7 of variant_mask may hold anything (DESIGN CHOICE, log entry 71). -/
def State.headerCheck (s : State) (h : List Byte) : Nat :=
  if !headMagic h then 2
  else if !bitN (fieldLe h 5 1) (Config.variantBit s.variant) then 3
  else if !(decide (fieldLe h 0x10 1 ≤ 0x21) && decide (0x21 ≤ fieldLe h 0x11 1)) then 4
  else if beNat (sha256 ((h.drop 0x40).take 64)) ≠ s.fuses.keyHash then 5
  else if fieldLe h 0x12 2 < s.fget fSYS_BOOT_CTRL_rb_floor then 6
  else if fieldLe h 0xC 2 ≠ s.fuses.profile || fieldLe h 0xC 2 = 0 then 7
  else if !headLengths h then 8 else 1

/-! ## Manifest and section table (Tables 2-5, 2-6) -/

/-- A manifest entry. -/
structure ManEntry where
  type : Nat
  tenant : Nat
  reserved : Nat
  version : Nat
  api : Nat
  section_ : Nat
  compat : Nat
  deriving DecidableEq, Repr

/-- A section-table entry. -/
structure SecEntry where
  type : Nat
  tenant : Nat
  reserved : Nat
  off : Nat
  len : Nat
  target : Nat
  deriving DecidableEq, Repr

/-- A manifest entry of 16 bytes. -/
def manOf (b : List Byte) : ManEntry :=
  { type := fieldLe b 0 1, tenant := fieldLe b 1 1, reserved := fieldLe b 2 2, version := fieldLe b 4 4,
    api := fieldLe b 8 2, section_ := fieldLe b 0xA 2, compat := fieldLe b 0xC 4 }

/-- A section-table entry of 16 bytes. -/
def secOf (b : List Byte) : SecEntry :=
  { type := fieldLe b 0 1, tenant := fieldLe b 1 1, reserved := fieldLe b 2 2, off := fieldLe b 4 4,
    len := fieldLe b 8 4, target := fieldLe b 0xC 4 }

/-- The header of the image at key k. -/
def State.header (s : State) (k : Nat) : List Byte := s.bytes k 0x100

/-- The manifest entries that header h counts, from their bytes. -/
def manOfBytes (h b : List Byte) : List ManEntry :=
  (List.range (fieldLe h 0x1C 2)).map (fun i => manOf ((b.drop (16 * i)).take 16))

/-- The bytes of the manifest of the image at key k with header h. -/
def State.manBytes (s : State) (h : List Byte) (k : Nat) : List Byte :=
  s.bytes (k + fieldLe h 0x18 4) (16 * fieldLe h 0x1C 2)

/-- The manifest of the image at key k with header h. -/
def State.manifest (s : State) (h : List Byte) (k : Nat) : List ManEntry := manOfBytes h (s.manBytes h k)

/-- The section table of the image at key k with header h. -/
def State.sections (s : State) (h : List Byte) (k : Nat) : List SecEntry :=
  (List.range (fieldLe h 0x1E 2)).map (fun i => secOf (s.bytes (k + fieldLe h 0x20 4 + 16 * i) 16))

/-- A manifest entry is formed as Table 2-5 states and names a section of its kind. -/
def ManEntry.ok (e : ManEntry) (secs : List SecEntry) : Bool :=
  let kind (t : Nat) : Bool := (secs[e.section_]?).any (fun x => x.type == t)
  e.reserved == 0 &&
    (match e.type with
      | 1 => e.tenant == 0xFF && kind 1
      | 2 => e.tenant == 0xFF && e.api == 0 && e.compat == 0 && kind 2
      | 3 => decide (e.tenant < 16) && e.api == 0 && e.compat == 0 && kind 3
      | 4 => decide (e.tenant < 16) && e.compat % 65536 == 0 && kind 4
      | _ => false)

/-- A valid manifest: one SUP, one SEQ, one TENANT entry for each declared tenant, at most one DTAB for each (R62). -/
def manifestOk (es : List ManEntry) (secs : List SecEntry) (tenants : Nat) : Bool :=
  let count (p : ManEntry → Bool) : Nat := (es.filter p).length
  es.all (fun e => e.ok secs) && count (fun e => e.type == 1) == 1 && count (fun e => e.type == 2) == 1
    && (List.range 16).all (fun t =>
      count (fun e => e.type == 4 && e.tenant == t) == (if t < tenants then 1 else 0)
        && decide (count (fun e => e.type == 3 && e.tenant == t) ≤ 1))

/-- A section is formed as Table 2-6 states, inside the body, and its target is on the running part. Default settings
longer than the block of R70 holds fail the check too (DESIGN CHOICE, log entry 63). -/
def SecEntry.ok (v : Variant) (e : SecEntry) (sig : Nat) : Bool :=
  let mask := e.target / 65536
  let there := decide (mask < 2 ^ Config.clusters v)
  e.reserved == 0 && e.off % 16 == 0 && decide (0x100 ≤ e.off) && decide (e.off + e.len ≤ sig) &&
    (match e.type with
      | 1 => e.target == 0 && decide (e.len ≤ 0x40000)
      | 2 => e.target == 0
      | 3 => Config.hasDtab v && there && decide (e.len ≤ 2048)
      | 4 => there && decide (e.len ≤ 0x10000)
      | 5 => there && decide (e.len ≤ 0x10000)
      | 6 => e.target == 0
      | 7 => e.target == 0 && decide (e.len ≤ 65524)
      | 8 => e.target == 0
      | _ => false)

/-- No two sections overlap. -/
def apart : List SecEntry → Bool
  | [] => true
  | x :: rest => rest.all (fun y => x.len == 0 || y.len == 0 || decide (x.off + x.len ≤ y.off) || decide (y.off + y.len ≤ x.off))
      && apart rest

/-- Check 8 of Table 2-7. -/
def State.manifestCheck (s : State) (h : List Byte) (k : Nat) : Bool :=
  let tenants := fieldLe h 0x28 1
  let secs := s.sections h k
  decide (1 ≤ tenants) && decide (tenants ≤ Config.tenants s.variant)
    && secs.all (fun e => e.ok s.variant (fieldLe h 0x24 4)) && apart secs && manifestOk (s.manifest h k) secs tenants

/-! ## Signature and versions -/

/-- SHA-256 of every byte before the signature of the image at key k with header h (R60). -/
def State.imageDigest (s : State) (h : List Byte) (k : Nat) : List Byte :=
  sha256 (h ++ s.bytes (k + 0x100) (fieldLe h 0x24 4 - 0x100))

/-- The signature of the image at key k with header h (R60). -/
def State.imageSig (s : State) (h : List Byte) (k : Nat) : List Byte := s.bytes (k + fieldLe h 0x24 4) 64

/-- Check 10: ECDSA P-256 under the key of header h over the digest of what it signs (R60). -/
def signatureOk (h digest sig : List Byte) : Bool := ecdsaVerify ((h.drop 0x40).take 64) digest sig

/-- The entry of a type and tenant. -/
def manFind (es : List ManEntry) (type tenant : Nat) : Option ManEntry :=
  es.find? (fun e => e.type == type && e.tenant == tenant)

/-- Tenant t of a manifest can start (R68). -/
def startable (es : List ManEntry) (t : Nat) : Bool :=
  match manFind es 4 t, manFind es 1 0xFF with
  | some e, some sup =>
    let need := e.compat / 65536
    e.api / 256 == sup.api / 256 && decide (e.api % 256 ≤ sup.api % 256)
      && (need == 0 || (manFind es 3 t).any (fun d => d.version / 65536 == need))
  | _, _ => false

/-- Check 11: the sequencer microcode within the SUP compat range, and tenant 0 startable (R67, R68). -/
def versionsOk (es : List ManEntry) : Bool :=
  match manFind es 1 0xFF, manFind es 2 0xFF with
  | some sup, some sq =>
    decide (sup.compat / 65536 ≤ sq.version / 65536) && decide (sq.version / 65536 ≤ sup.compat % 65536) && startable es 0
  | _, _ => false

/-- The declared tenants that cannot start, as a mask. -/
def refusedMask (es : List ManEntry) (tenants : Nat) : Nat :=
  (List.range tenants).foldl (fun a t => if startable es t then a else a + 2 ^ t) 0

/-- Checks 8, 10 and 11 on the image at key k with header h: 1, or the code of the first that fails. -/
def State.imageCheck (s : State) (h : List Byte) (k : Nat) : Nat :=
  if !s.manifestCheck h k then 10
  else if !signatureOk h (s.imageDigest h k) (s.imageSig h k) then 9
  else if !versionsOk (s.manifest h k) then 10 else 1

/-- Checks 1–8, 10 and 11. -/
def State.fullCheck (s : State) (k : Nat) : Nat :=
  let c := s.headerCheck (s.header k)
  if c = 1 then s.imageCheck (s.header k) k else c

/-! ## Settings (R70, R71) -/

/-- Key of the settings block. -/
def settingsKey : Nat := 0x05010000

/-- The bytes of the settings area as the boot ROM reads them through their check bits: its first 8 bytes, and the block
that they announce where it fits (R70); an uncorrectable word is reported and reads 0 (R351). -/
def State.settingsRead (s : State) : List Byte × State :=
  let h := s.readBytes settingsKey 8 0x7F
  let n := fieldLe h.1 4 4
  if 65524 < n then (h.1, h.2.2)
  else
    let b := h.2.2.readBytes (settingsKey + 8) (n + 4) 0x7F
    (h.1 ++ b.1, b.2.2)

/-- The CRC of a settings block is correct (R70). -/
def settingsCrc (b : List Byte) : Bool :=
  let n := fieldLe b 4 4
  decide (n ≤ 65524) && crc32 (b.take (8 + n)) == fieldLe b (8 + n) 4

/-- The settings block of the default section; an image without one gives an empty block (R71; DESIGN CHOICE, log entry
63). -/
def settingsBlock (format : Nat) (body : List Byte) : List Byte :=
  let b := leBytes 2 format ++ leBytes 2 0 ++ leBytes 4 body.length ++ body
  b ++ leBytes 4 (crc32 b)

/-- The settings block is kept: its format is the image's and its CRC is right (R71). -/
def State.settingsGood (s : State) (b : List Byte) : Bool := fieldLe b 0 2 == s.pkg.img.format && settingsCrc b

/-- The block that replaces one that is not kept. -/
def State.settingsNew (s : State) : List Byte := settingsBlock s.pkg.img.format s.pkg.img.defaults

end Sys2Proof.Machine
end

