-- ==== Sys2Proof/Machine/Window.lean ====
section
/-!
DEFINITION. The read window of the attached flash and its line buffer (R363, R364), for the cores and for hardware
masters.
-/

namespace Sys2Proof.Machine

/-- The flash controller changed. -/
def State.modFlash (s : State) (f : FlashSt → FlashSt) : State := { s with flash := f s.flash }

/-- Bytes of the flash: none before discovery has passed (R361). -/
def State.flashSize (s : State) : Nat := if s.fon fXSPI_STATUS_dev_ok then 2 ^ s.fget fXSPI_DEV0_size_log2 else 0

/-- Bytes of a line of the read buffer. -/
def lineBytes : Nat := 64

/-! ## The read window (R363, R364) -/

/-- A byte of the block being erased, also while that erase is suspended, or of the page being programmed. -/
def State.flashHeld (s : State) (off : Nat) : Bool :=
  (match s.flash.act with
    | some (.erase b) => off / 0x10000 * 0x10000 == b
    | some (.program p) => off / 256 * 256 == p / 256 * 256
    | none => false)
  || s.flash.susp == some (off / 0x10000 * 0x10000)

/-- The bytes of a buffered line. -/
def FlashSt.line (f : FlashSt) (k : Nat) : Option (List Byte) := (f.lines.find? (fun x => x.1 == k)).map (·.2)

/-- What a window read of n bytes at offset `off`, inside one line, brings now: zeros past the end or in a part that is
being changed, each counted, or the bytes of a buffered line; none on a miss, which joins the missed lines. -/
def State.windowRead (s : State) (off n : Nat) : Option (List Byte) × State :=
  let line := off / lineBytes
  if s.flashSize ≤ off then (some (takePad n []), s.finc fXSPI_COUNT_oob)
  else if s.flashHeld off then (some (takePad n []), s.finc fXSPI_COUNT_busy_read)
  else
    match s.flash.line line with
    | some bs =>
      (some ((bs.drop (off % lineBytes)).take n),
        s.modFlash (fun f => { f with lines := f.lines.filter (fun x => x.1 != line) ++ [(line, bs)] }))
    | none => (none, s.modFlash (fun f => { f with miss := if f.miss.contains line then f.miss else f.miss ++ [line] }))

/-- The parts of [off, off + n) by lines: offset and length of each, from k lines on. -/
def lineParts (off n : Nat) : Nat → List (Nat × Nat)
  | 0 => []
  | k + 1 =>
    let m := min n (lineBytes - off % lineBytes)
    if n = 0 then [] else (off, m) :: lineParts (off + m) (n - m) k

/-- A window read of [off, off + n) by a hardware master has what it needs: no line of it is missed (R363). -/
def State.windowReady (s : State) (off n : Nat) : Bool :=
  (lineParts off n (n / lineBytes + 2)).all (fun x =>
    decide (s.flashSize ≤ x.1) || s.flashHeld x.1 || (s.flash.line (x.1 / lineBytes)).isSome)

/-- The missed lines of a hardware master's read wait to be read, in order of arrival (R363). -/
def State.windowAsk (s : State) (off n : Nat) : State :=
  (lineParts off n (n / lineBytes + 2)).foldl (fun t x =>
    if t.windowReady x.1 x.2 then t else (t.windowRead x.1 x.2).2) s

/-- The window read of a hardware master that is ready, line by line: its bytes. -/
def State.windowBytes (s : State) (off n : Nat) : List Byte × State :=
  (lineParts off n (n / lineBytes + 2)).foldl (fun a x =>
    let r := a.2.windowRead x.1 x.2
    (a.1 ++ r.1.getD (takePad x.2 []), r.2)) ([], s)

/-- A load from bytes: a word of size bytes, sign-extended or not, or a pair. -/
def loadKind (slot rd size : Nat) (sgn : Bool) (bs : List Byte) : OutKind :=
  let v := leNat (bs.take size)
  if size = 8 then .loadPair slot rd (BitVec.ofNat 32 v) (BitVec.ofNat 32 (v / 2 ^ 32))
  else .load slot rd (BitVec.ofNat 32 (if sgn then unsignedN 32 (signedN (8 * size) v) else v))

/-- A list of outstanding accesses whose reads of a line have their bytes. -/
def answerOuts (line : Nat) (bytes : Nat → Nat → List Byte) (os : List OutAcc) : List OutAcc :=
  os.map (fun o => match o.kind with
    | .window slot rd off size sgn =>
      if off / lineBytes = line then { o with kind := loadKind slot rd size sgn (bytes off size) } else o
    | _ => o)

/-- Reads of a line that wait. -/
def State.waitCount (s : State) (line : Nat) : Nat :=
  s.engines.foldl (fun a e => a + (e.2.outs.filter (fun o => match o.kind with
    | .window _ _ off _ _ => off / lineBytes == line
    | _ => false)).length) 0

/-- Every read that waits for a line answered with its bytes, `bs` from the line's start; the line is no longer missed. -/
def State.answerLine (s : State) (line : Nat) (bs : List Byte) : State :=
  let bytes (off n : Nat) : List Byte := takePad n (bs.drop (off % lineBytes))
  ({ s with engines := s.engines.map (fun e => (e.1, { e.2 with outs := answerOuts line bytes e.2.outs })) } : State).modFlash
    (fun f => { f with miss := f.miss.filter (fun x => x != line) })

end Sys2Proof.Machine
end

