-- ==== Sys2Proof/Machine/Cipher.lean ====
section
/-!
DEFINITION. The cipher (chapter 12): key slots, job submission, grants, completions, the TRNG and the ECC keys. A job's
output is computed when it is granted, from the key copied then (R308); what it does at its end is in Jobs.lean.
-/

namespace Sys2Proof.Machine

/-! ## Addresses of hardware masters -/

/-- A D-space address of core n as the supervisor map names it: the alias window reaches the engine's own region
(R45). -/
def aliasAddr (n a : Nat) : Nat :=
  if n < 128 && 0x01000000 ≤ a && a < 0x01800000 then 0x02000000 + regionOf n * 0x800000 + (a - 0x01000000) else a

/-- The memory key of a supervisor-map D-space address that a hardware master may reach for core n: region SRAM, system
SRAM, persistent store, flash, and the supervisor's local SRAM for the supervisor. -/
def State.dmaKey (s : State) (n a : Nat) : Option Nat :=
  match spaceOf a with
  | .region r _ => if s.hasRegion r then some a else none
  | .sys sp off => if sp = 2 then some (flashKey off) else some a
  | .none => if n = 128 && a < 0x40000 then some (supKey a) else none

/-- The address lies in a region of the part that has no power: a read brings zeros and a write is discarded (R29). -/
def State.dieOff (s : State) (a : Nat) : Bool :=
  match spaceOf a with
  | .region r _ => s.hasRegion r && !s.regionUp r
  | _ => false

/-- The DIE_OFF notice of a hardware master's access (R29, R283). -/
def State.dmaOff (s : State) (t : Option Nat) (a : Nat) (write : Bool) : State :=
  match t with
  | some u => s.postRefused u 2 write 0x7F a
  | none => s

/-- The range [a, a + len) may be read or written for a submitter: the tenant's fence, or a mapped range for the
supervisor (R281, R311). A region without power has no fence that asks. -/
def State.dmaOk (s : State) (t : Option Nat) (n a len : Nat) (write : Bool) : Bool :=
  s.dieOff a || (s.dmaKey n a).isSome && (match t with
    | some u => len == 0 || s.fenceOk u a len write
    | none => !(write && decide (0x08000000 ≤ a) && decide (a < 0x10000000)))

/-- A refusal of a hardware master that works for a tenant (R282, R311); the supervisor has no fence. -/
def State.dmaRefuse (s : State) (t : Option Nat) (a : Nat) (write : Bool) : State :=
  match t with
  | some u => s.refuseFence u 0x7F a write (fenceTarget a)
  | none => s

/-- The offset in the flash window of a D-space address there. -/
def windowOff (a : Nat) : Option Nat := if 0x08000000 ≤ a && a < 0x10000000 then some (a - 0x08000000) else none

/-- An access of a hardware master must wait: for a granule that is being cleared (R355), or for lines of the flash
window (R363, R368). -/
def State.dmaWaits (s : State) (n : Nat) (x : Nat × Nat) : Bool :=
  decide (0 < x.2) && ((match s.dmaKey n x.1 with
    | some k => s.clearMeets k x.2
    | none => false)
  || (match windowOff x.1 with
    | some off => !s.windowReady off x.2
    | none => false))

/-- The lines of the window that an access waits for are asked for. -/
def State.dmaAsk (s : State) (x : Nat × Nat) : State :=
  match windowOff x.1 with
  | some off => s.windowAsk off x.2
  | none => s

/-- Bytes fetched for a submitter: none when refused or when a word is uncorrectable (R311, R351); zeros from a region
without power (R29). -/
def State.dmaRead (s : State) (t : Option Nat) (n a len : Nat) : Option (List Byte) × State :=
  if len = 0 then (some [], s)
  else if s.dieOff a then (some (takePad len []), s.dmaOff t a false)
  else if s.dmaOk t n a len false then
    let k := (s.dmaKey n a).getD 0
    match windowOff a with
    | some off =>
      let w := s.windowBytes off len
      (some w.1, w.2)
    | none =>
      if s.unlaid k len then
        let f := s.free (8 * len)
        (some (leBytes len f.1.toNat), f.2)
      else
        let r := s.readBytes k len 0x7F
        (if r.2.1 then some r.1 else none, r.2.2)
  else (none, s.dmaRefuse t a false)

/-- Bytes stored where the access has been checked: discarded in a region without power (R29, R285). -/
def State.dmaPut (s : State) (t : Option Nat) (n a : Nat) (bs : List Byte) : State :=
  if bs.isEmpty then s
  else if s.dieOff a then s.dmaOff t a true
  else
    match s.dmaKey n a with
    | some k => if s.noStore k bs.length then s else s.writeBytes k bs
    | none => s

/-- Bytes stored for a submitter; the flag says whether the fence let them (R281). -/
def State.dmaWrite (s : State) (t : Option Nat) (n a : Nat) (bs : List Byte) : State × Bool :=
  if bs.isEmpty || s.dmaOk t n a bs.length true then (s.dmaPut t n a bs, true) else (s.dmaRefuse t a true, false)

/-! ## Key slots -/

/-- A key slot; slot 0 holds the seal key from the fused device secret (Table 12-1). -/
def State.keySlot (s : State) (k : Nat) : KeySlot :=
  if k = 0 then { valid := true, key := beBytes 16 s.fuses.secret } else tabGet {} s.cipher.slots k

/-- A key slot set. -/
def State.setKeySlot (s : State) (k : Nat) (x : KeySlot) : State :=
  { s with cipher := { s.cipher with slots := tabSet {} s.cipher.slots k x } }

/-- A running job holds the key of slot k. -/
def State.slotInUse (s : State) (k : Nat) : Bool := s.cipher.running.any (fun r => r.slots.contains k)

/-- The owner of a slot: by the slot's group, or as set for slots 48–63 and the cache (Table 12-1). -/
def slotOwner (k : Nat) (x : KeySlot) : Nat :=
  if k < 16 then 0 else if k < 32 then k - 16 else if k < 48 then k - 32 else x.owner

/-- The tenant whose record range holds rec, among the tenants below n (R300). -/
def State.recTenant (s : State) (rec n : Nat) : Option Nat :=
  match n with
  | 0 => none
  | t + 1 =>
    let b := s.fget (fTABLE_TQUOTA_rec_base t)
    if b ≤ rec && rec < b + s.fget (fTABLE_TQUOTA_rec_count t) then some t else s.recTenant rec t

/-- Address of a node key record (R300). -/
def recAddr (rec : Nat) : Nat := 0x05100000 + rec * 0x18

/-- A job may use the key that it names (R296, Table 12-1, Table 12-5); ECC and SHA jobs are judged apart. -/
def State.keyAllowed (s : State) (j : Job) : Bool :=
  let mine (t : Nat) : Bool := match j.tenant with
    | some u => u == t
    | none => true
  let k := j.key % 256
  let isRec := j.byRec || decide (13 ≤ j.op)
  if isRec then
    (decide (j.op ≤ 7) || decide (13 ≤ j.op)) &&
      (match j.tenant with
        | some u => s.recTenant j.key 16 == some u
        | none => true)
  else if k = 0 then false
  else if k = 1 then (j.op == 4 || j.op == 5) && j.tenant.isNone
  else if k < 16 then mine 0
  else if k < 32 then (j.op == 8 || j.op == 9) && mine (k - 16)
  else if k < 48 then (j.op == 4 || j.op == 5) && mine (k - 32)
  else if k < 64 then decide (j.op ≤ 8) && mine (s.keySlot k).owner
  else decide (j.op ≤ 7) && j.tenant.isNone

/-- Every running job that holds the key of slot k will abort (R309). -/
def State.eraseUsers (s : State) (k : Nat) : State :=
  { s with cipher := { s.cipher with
      running := s.cipher.running.map (fun r => if r.slots.contains k then { r with erased := true } else r) } }

/-- A slot emptied; CIPHER_SLOT keeps showing its owner (Table 12-9). -/
def State.emptySlot (s : State) (k : Nat) : State :=
  let x := s.keySlot k
  s.setKeySlot k { x with valid := false, key := [], clearCtx := false, node := 0 }

/-- The cache slot that holds rec (R301), among the slots from 64 on, n of them. -/
def State.cacheFind (s : State) (rec : Nat) : Option Nat :=
  ((List.range 192).map (· + 64)).find? (fun k => (s.keySlot k).valid && (s.keySlot k).node == rec)

/-- Cache slots that hold keys of tenant t (kc_held). -/
def State.kcHeld (s : State) (t : Nat) : Nat :=
  (((List.range 192).map (· + 64)).filter (fun k => (s.keySlot k).valid && (s.keySlot k).owner == t)).length

/-- The least recently used of some slots. -/
def State.leastUsed (s : State) (ks : List Nat) : Option Nat :=
  ks.foldl (fun b k => match b with
    | none => some k
    | some j => if (s.keySlot k).used < (s.keySlot j).used then some k else some j) none

/-- The slot that a cache miss of tenant t takes (R301): a free one, else the least used of a tenant above its kc_guar,
else the least used of t itself; never one that a running job holds. -/
def State.cacheVictim (s : State) (t : Nat) : Option Nat :=
  let ks := ((List.range 192).map (· + 64)).filter (fun k => !s.slotInUse k)
  match ks.find? (fun k => !(s.keySlot k).valid) with
  | some k => some k
  | none =>
    match s.leastUsed (ks.filter (fun k => decide (s.fget (fCIPHER_KC_kc_guar (s.keySlot k).owner) < s.kcHeld (s.keySlot k).owner))) with
    | some k => some k
    | none => s.leastUsed (ks.filter (fun k => (s.keySlot k).owner == t))

/-- What a look-up of a record's key gives: a slot, a status, or no slot to take yet. -/
inductive KeyFound where
  | slot (k : Nat)
  | fail (status : Nat)
  | wait
  deriving DecidableEq, Repr

/-- The key of record rec for a job: from the cache, or unwrapped into it (R300, R301). A fill counts in kc_miss. -/
def State.recKey (s : State) (rec : Nat) : KeyFound × State :=
  match s.cacheFind rec with
  | some k => (.slot k, (s.setKeySlot k { s.keySlot k with used := s.age }))
  | none =>
    let t := (s.recTenant rec 16).getD 0
    match s.cacheVictim t with
    | none => (.wait, s)
    | some k =>
      let s1 := s.finc fCIPHER_COUNT_kc_miss
      let r := s1.readBytes (recAddr rec) 24 0x7F
      if !r.2.1 then (.fail 0x09, r.2.2)
      else if r.1.all (fun b => b == 0#8) || !(s.keySlot (16 + t)).valid || (s.recTenant rec 16).isNone then
        (.fail 0x03, r.2.2)
      else
        match kwUnwrap (s.keySlot (16 + t)).key r.1 with
        | none => (.fail 0x09, r.2.2)
        | some key =>
          (.slot k, r.2.2.setKeySlot k { valid := true, key := key, owner := t, node := rec, used := s.age })

/-! ## KEY_CMD -/

/-- A write of CIPHER_KEY_CMD: the key data registers clear whatever it does (R297). -/
def State.keyCmd (s : State) (v : Nat) : State :=
  let k := bitsN v 7 0
  let key := (List.range 4).foldl (fun acc w => acc ++ leBytes 4 (s.reg (aCIPHER_KEY_DATA w)).toNat) []
  let s1 := (List.range 4).foldl (fun t w => t.setReg (aCIPHER_KEY_DATA w) 0#32) s
  let bad := s1.fset fCIPHER_STATUS_cmd_err 1
  match bitsN v 31 28 with
  | 1 =>
    if k = 0 || 64 ≤ k then bad
    else s1.setKeySlot k { valid := true, key := key, owner := if 48 ≤ k then bitsN v 23 20 else slotOwner k {},
                           clearCtx := bitN v 19, used := s.age }
  | 2 => if k = 0 then bad else (s1.emptySlot k).eraseUsers k
  | _ => bad

/-- LOAD_KEY: KEY_CMD with op 1 (R297). -/
def execLoadKey (v : BitVec 28) (s : State) : Host.Outcome State Fault Refusal :=
  .next (s.keyCmd (1 * 2 ^ 28 + v.toNat))

/-- ZEROIZE: KEY_CMD with op 2 (R297, R309). -/
def execZeroize (v : BitVec 28) (s : State) : Host.Outcome State Fault Refusal :=
  .next (s.keyCmd (2 * 2 ^ 28 + v.toNat))

/-! ## Submission -/

/-- The job of a 32-byte descriptor (Table 12-4). -/
def jobOf (who : JobWho) (tenant : Option Nat) (desc prio : Nat) (d : List Byte) : Job :=
  let w (i : Nat) : Nat := leNat ((d.drop (4 * i)).take 4)
  { who := who, tenant := tenant, op := bitsN (w 0) 31 28, ctx := bitsN (w 0) 27 26, ctxSeal := bitN (w 0) 25,
    noOut := bitN (w 0) 24, tlen := bitsN (w 0) 23 20, last := bitN (w 0) 19, byRec := bitN (w 0) 16,
    tag := bitsN (w 0) 15 0, key := bitsN (w 1) 16 0, src := w 2, dst := w 3, aadLen := bitsN (w 4) 20 16,
    dataLen := bitsN (w 4) 9 0, iv := w 5, aad := w 6, ctxa := w 7, desc := desc, prio := prio }

/-- A descriptor that R303 refuses with BAD_CMD: a reserved bit, op 0, or a ctx the op does not allow. -/
def descBad (d : List Byte) : Bool :=
  let w (i : Nat) : Nat := leNat ((d.drop (4 * i)).take 4)
  let op := bitsN (w 0) 31 28
  bitsN (w 0) 18 17 != 0 || bitsN (w 1) 31 17 != 0 || bitsN (w 4) 31 21 != 0 || bitsN (w 4) 15 10 != 0 || op == 0
    || (bitsN (w 0) 27 26 != 0 && !(op == 3 || op == 6 || op == 7 || op == 10))

/-- Saves its context. -/
def Job.saves (j : Job) : Bool := j.ctx == 1 || j.ctx == 3

/-- Restores its context. -/
def Job.restores (j : Job) : Bool := j.ctx == 2 || j.ctx == 3

/-- Blocks of 16 bytes that n bytes fill. -/
def blk16 (n : Nat) : Nat := (n + 15) / 16

/-- The chain of an op in block slots (Table 12-5). -/
def Job.chain (j : Job) : Nat :=
  match j.op with
  | 1 | 2 => j.dataLen / 16
  | 3 => blk16 j.dataLen
  | 4 | 5 => 1 + (if j.aadLen = 0 then 0 else blk16 (j.aadLen + 2)) + blk16 j.dataLen
  | 6 | 7 => blk16 j.dataLen + 2
  | 8 => 6 * (j.dataLen / 8)
  | 9 => 12
  | 13 => 12
  | 14 => 13
  | _ => 0

/-- Block slots S of an AES job with m = 1 counted for a by_rec job (R305). -/
def Job.slotsMax (j : Job) : Nat :=
  1 + (if j.byRec then 8 else 0) + j.chain + (if j.ctxSeal && j.restores then 5 else 0) + (if j.ctxSeal && j.saves then 5 else 0)

/-- The lengths of Table 12-5 and R305 hold. -/
def Job.lengthOk (j : Job) : Bool :=
  let p := j.dataLen
  let a0 := j.aadLen == 0
  let t0 := j.tlen == 0
  (match j.op with
    | 1 | 2 => decide (16 ≤ p) && decide (p ≤ 512) && p % 16 == 0 && a0 && t0
    | 3 => decide (1 ≤ p) && decide (p ≤ 512) && (p % 16 == 0 || !j.saves) && a0 && t0
    | 4 | 5 => decide (p ≤ 512) && decide (j.aadLen ≤ 30) && decide (2 ≤ j.tlen) && decide (j.tlen ≤ 8)
    | 6 | 7 => decide (p ≤ 512) && (p % 16 == 0 || j.last) && decide (j.aadLen ≤ 30) && (a0 || !j.restores)
        && decide (6 ≤ j.tlen) && decide (j.tlen ≤ 8)
    | 8 => decide (16 ≤ p) && decide (p ≤ 40) && p % 8 == 0 && a0 && t0
    | 9 => p == 24 && a0 && t0
    | 10 => decide (p ≤ 512) && (p % 64 == 0 || j.last) && a0 && t0
    | 11 | 12 => p == 32 && a0 && t0
    | 13 => p == 24 && a0 && t0
    | 14 => p == 16 && a0 && t0
    | _ => p == 0 && a0 && t0)
  && (decide (10 ≤ j.op && j.op ≤ 12) || decide (j.slotsMax ≤ 44))

/-- The slot that a KW_UNWRAP fills is one that its submitter may fill: a general slot of its own, or an operator slot for
tenant 0 (Tables 12-1 and 12-5; log entry 26). -/
def State.unwrapTarget (s : State) (j : Job) : Bool :=
  let k := j.dst % 256
  let general := decide (48 ≤ k && k < 64)
  let operator := decide (2 ≤ k && k < 16)
  match j.tenant with
  | some t => (general && (s.keySlot k).owner == t) || (t == 0 && operator)
  | none => general || operator

/-- The key column of Table 12-5 for the ops that take only some keys, and the target of KW_UNWRAP. -/
def State.keyColumn (s : State) (j : Job) : Bool :=
  let k := j.key % 256
  let kek := decide (16 ≤ k && k < 32)
  match j.op with
  | 8 => !j.byRec && (kek || decide (48 ≤ k && k < 64))
  | 9 => !j.byRec && (kek || (decide (2 ≤ k && k < 16) && (j.tenant.isNone || j.tenant == some 0))) && s.unwrapTarget j
  | _ => true

/-- Queued jobs of a tenant. -/
def State.jobsQueued (s : State) (t : Option Nat) : Nat := (s.cipher.queue.filter (fun j => j.tenant == t)).length

/-- Running jobs of a tenant. -/
def State.jobsRunning (s : State) (t : Option Nat) : Nat :=
  (s.cipher.running.filter (fun r => r.job.tenant == t)).length

/-- The unused queue guarantees of the tenants other than t (R288). -/
def State.unusedGuar (s : State) (t : Nat) : Nat :=
  (List.range 16).foldl (fun a u => if u = t then a else a + (s.fget (fTENANT_CIPHER_q_guar u) - s.jobsQueued (some u))) 0

/-- The queue shares let the job in (R288). The supervisor and the relay unit may take any free entry of the 32. -/
def State.queueAdmits (s : State) (t : Option Nat) : Bool :=
  let free := 32 - s.cipher.queue.length
  match t with
  | none => decide (0 < free)
  | some u =>
    decide (0 < free) && (decide (s.jobsQueued t < s.fget (fTENANT_CIPHER_q_guar u))
      || (decide (s.jobsQueued t < s.fget (fTENANT_CIPHER_q_ceil u))
        && decide (s.fget fTENANT_CIPHER_RES_q_res + s.unusedGuar u < free)))

/-- A job queued. -/
def State.enqueue (s : State) (j : Job) : State := { s with cipher := { s.cipher with queue := s.cipher.queue ++ [j] } }

/-- A job of a hardware master takes an entry of the queue, or waits for the next one that frees (R288). -/
def State.enqueueUnit (s : State) (j : Job) : State :=
  if s.queueAdmits none then s.enqueue j else { s with cipher := { s.cipher with waiting := s.cipher.waiting ++ [j] } }

/-- The oldest job that waits for an entry takes the one that freed. -/
def State.admitWaiting (s : State) : State :=
  match s.cipher.waiting with
  | [] => s
  | j :: rest =>
    if s.queueAdmits none then ({ s with cipher := { s.cipher with waiting := rest } } : State).enqueue j else s

/-- A CIPHER notice for a core's job: status, tag, descriptor address (R302, R317). -/
def State.cipherNotice (s : State) (n status tag desc : Nat) : State := s.post n 4 (status * 2 ^ 20 + tag) desc 0 0

/-- SUBMIT's work (R302, R303, R304, R288, R292): the status, and the state with the job queued or refused. -/
def State.submitJob (s : State) (n : Nat) (e : Engine) (a : Nat) : Nat × State :=
  let t : Option Nat := if n = 128 then none else some (s.engTenant n)
  let addr := aliasAddr n a
  if a % 8 ≠ 0 then (0x07, s)
  else
    match s.dmaRead t n addr 32 with
    | (none, s1) => (0x06, s1)
    | (some d, s1) =>
      let j := jobOf (.core n e.cur) t addr (s.reqPrio n e) d
      let j := { j with src := aliasAddr n j.src, dst := aliasAddr n j.dst, iv := aliasAddr n j.iv,
                        aad := aliasAddr n j.aad, ctxa := aliasAddr n j.ctxa }
      if descBad d then (0x07, s1)
      else if !j.lengthOk || !s1.keyColumn j then (0x05, s1)
      else if (n ≠ 128 && s.suspended (s.engTenant n)) || !s1.queueAdmits t then (0x0B, s1.finc fCIPHER_COUNT_busy)
      else (0x00, s1.enqueue j)

/-! ## Coprocessor answers -/

/-- The link by which core n reaches coprocessor t: 0 and 3 are on compute die 0 (Table 9-8). -/
def copLink (n t : Nat) : Option (Nat × Bool) := if t = 0 || t = 3 then dieLink n false else none

/-- A coprocessor instruction of core c to a unit outside the cluster: operands A and B give the answer and the state.
With rd ≠ x0 the core waits for the answer; with rd = x0 the request is posted and counts toward the 8 (R243); a ninth
waits (R234), and so does a request to a unit on compute die 0 that link 2 does not take (R40, Table 9-8). -/
def copFar (c : CoreId) (p : Pred) (target : Nat) (illegal : Bool) (rd rs1 rs2 : BitVec 5)
    (k : Engine → Word → Word → State → Word × State) (s : State) (waits : Engine → Word → State → Bool := fun _ _ _ => false)
    (ask : State → State := id) : State :=
  let n := coreNum c
  let link := copLink n target
  issue c p illegal [rs1, rs2]
    (fun e t =>
      if (rd = 0#5 && decide (8 ≤ e.outs.length)) || !t.linkGrants n link || waits e (e.x rs1.toNat) t then none
      else
        let q := t.linkEnter n link
        let r := k e (e.x rs1.toNat) (e.x rs2.toNat) q.2
        some (r.2.modEng n (fun f =>
          let f1 := f.adv
          if rd = 0#5 then { f1 with outs := f1.outs ++ [{ target := 200 + target, txn := q.1, kind := .posted }] }
          else { f1 with wait := some (rd.toNat, r.1), waitTxn := q.1 }))) s 0 (fun t => ask (t.linkHold n link))

/-- COP_ANSWER: the answer a core waits for, if its transaction has completed, is written to rd and the stall ends (R40,
R243). -/
def execCopAnswer (c : CoreId) (s : State) : Host.Outcome State Fault Refusal :=
  .next (s.modEng (coreNum c) (fun e =>
    match e.wait with
    | none => e
    | some (rd, v) => if rd = 0 || e.waitTxn.isSome then e else { (e.setX rd v) with wait := none }))

/-- The answer of COP0 port 0x00; a refusal of a posted request posts a CIPHER notice (R302). -/
def copSubmit (n : Nat) (posted : Bool) (e : Engine) (a : Word) (s : State) : Word × State :=
  let r := s.submitJob n e a.toNat
  let tag := r.2.num (((s.dmaKey n (aliasAddr n a.toNat)).getD 0)) 2
  (BitVec.ofNat 32 r.1,
    if posted && decide (r.1 ≠ 0) then
      r.2.cipherNotice n r.1 (if r.1 = 0x06 || a.toNat % 8 ≠ 0 then 0 else tag) (aliasAddr n a.toNat)
    else r.2)

/-- The descriptor that core n names at a. -/
def descRange (n : Nat) (a : Word) : Nat × Nat := (aliasAddr n a.toNat, 32)

/-- SUBMIT (R302). It waits while its descriptor cannot be read (R355, R363). -/
def execSubmit (c : CoreId) (p : Pred) (rd rs1 rs2 : BitVec 5) (s : State) : Host.Outcome State Fault Refusal :=
  let n := coreNum c
  .next (copFar c p 0 false rd rs1 rs2 (fun e a _ t => copSubmit n (rd == 0#5) e a t) s
    (fun _ a t => t.dmaWaits n (descRange n a)) (fun t => t.dmaAsk (descRange n ((t.eng n).x rs1.toNat))))

/-- The next random word: bit 31 valid and 31 bits, and the FIFO without it; 0 while there is none (R302, R316). -/
def State.trngTake (s : State) : Word × State :=
  match s.cipher.fifo with
  | [] => (0#32, s)
  | w :: rest => (0x80000000#32 ||| w, { s with cipher := { s.cipher with fifo := rest } })

/-- RAND (Table 12-3). -/
def execRand (c : CoreId) (p : Pred) (rd rs1 rs2 : BitVec 5) (s : State) : Host.Outcome State Fault Refusal :=
  .next (copFar c p 0 false rd rs1 rs2 (fun _ _ _ t => t.trngTake) s)

/-- QSTAT's answer: the tenant's queued jobs [13:8] and running jobs [2:0] (Table 12-3). -/
def State.qstat (s : State) (n : Nat) : Word :=
  let t : Option Nat := if n = 128 then none else some (s.engTenant n)
  BitVec.ofNat 32 (s.jobsQueued t * 256 + s.jobsRunning t)

/-- QSTAT (Table 12-3). -/
def execQstat (c : CoreId) (p : Pred) (rd rs1 rs2 : BitVec 5) (s : State) : Host.Outcome State Fault Refusal :=
  .next (copFar c p 0 false rd rs1 rs2 (fun _ _ _ t => (t.qstat (coreNum c), t)) s)

/-! ## Grants -/

/-- Runs on the ECC engine: hashes, signatures, and the generation of a private key (R313). -/
def Job.ecc (j : Job) : Bool := decide (10 ≤ j.op && j.op ≤ 12) || decide (16 ≤ j.op)

/-- The core a job works for; 129 for a hardware master. -/
def Job.core (j : Job) : Nat :=
  match j.who with
  | .core m _ => m
  | _ => 129

/-- Bytes of a job's IV, and of its data with the tag that a decryption reads after it. -/
def Job.ivLen (j : Job) : Nat :=
  match j.op with
  | 3 => if j.restores then 0 else 16
  | 4 | 5 => 13
  | 6 | 7 => if j.restores then 0 else 12
  | 11 => 64
  | _ => 0
def Job.srcLen (j : Job) : Nat := j.dataLen + (if j.op = 5 || (j.op = 7 && j.last) then 2 * j.tlen else 0)

/-- Bytes of a context in memory (R312). -/
def Job.ctxLen (j : Job) : Nat := if j.ctxSeal then 80 else 64

/-- The ranges that a core's job stages (R306, R311). -/
def Job.ranges (j : Job) : List (Nat × Nat) :=
  match j.who with
  | .core _ _ =>
    [(j.iv, j.ivLen), (j.aad, j.aadLen), (j.src, j.srcLen), (j.ctxa, if j.restores then j.ctxLen else 0),
     (j.dst, if j.op = 11 then 64 else 0)]
  | _ => []

/-- The input of a job cannot be staged yet. -/
def State.stageWaits (s : State) (j : Job) : Bool := j.ranges.any (s.dmaWaits j.core)

/-- The unit that a job of this kind would get, if one is free: an AES engine 0–3, or the ECC engine 4. -/
def State.freeUnit (s : State) (ecc : Bool) : Option Nat :=
  (if ecc then [4] else [0, 1, 2, 3]).find? (fun u => !s.cipher.running.any (fun r => r.unit == u))

/-- A job waits for a cache slot: its record's key is not cached and no slot is a candidate (R301). -/
def State.cacheWaits (s : State) (j : Job) : Bool :=
  j.byRec && decide (j.op ≤ 7) && s.keyAllowed j && (s.cacheFind j.key).isNone
    && (s.cacheVictim ((s.recTenant j.key 16).getD 0)).isNone

/-- A queued job may start: its tenant runs fewer than run_max jobs (R288), its input can be staged (R306), and it waits
for no cache slot (R301). -/
def State.mayStart (s : State) (j : Job) : Bool :=
  (match j.tenant with
    | none => true
    | some t => decide (s.jobsRunning j.tenant < s.fget (fTENANT_CIPHER_run_max t))) && !s.stageWaits j && !s.cacheWaits j

/-- The job the next round grants among those for one kind of unit: the highest priority, then the oldest (R273). -/
def State.nextJob (s : State) (ecc : Bool) : Option (Nat × Job) :=
  ((s.cipher.queue.zipIdx.map (fun x => (x.2, x.1))).filter (fun x => x.2.ecc == ecc && s.mayStart x.2)).foldl
    (fun b x => match b with
      | none => some x
      | some y => if y.2.prio < x.2.prio then some x else some y) none

/-- The input of a job as it is staged: nonce or IV, associated data, data (with the tag after it for a decryption), and
the context it restores. None: a range was refused or held an uncorrectable word (R311). -/
def State.jobInput (s : State) (j : Job) : Option (List Byte × List Byte × List Byte × List Byte) × State :=
  match j.who with
  | .core n _ =>
    match s.dmaRead j.tenant n j.iv j.ivLen with
    | (none, s1) => (none, s1)
    | (some iv, s1) =>
      match s1.dmaRead j.tenant n j.aad j.aadLen with
      | (none, s2) => (none, s2)
      | (some aad, s2) =>
        match s2.dmaRead j.tenant n j.src j.srcLen with
        | (none, s3) => (none, s3)
        | (some d, s3) =>
          match s3.dmaRead j.tenant n j.ctxa (if j.restores then j.ctxLen else 0) with
          | (none, s4) => (none, s4)
          | (some c, s4) => (some (iv, aad, d, c), s4)
  | _ => (some (j.inl.1, j.inl.2.1, j.inl.2.2, []), s)

/-- The 64 bytes of a context (Table 12-8). -/
def ctxBytes (j : Job) (count aadLen : Nat) (st : List Byte) : List Byte :=
  [BitVec.ofNat 8 j.op, BitVec.ofNat 8 (j.tenant.getD 0)] ++ takePad 2 [] ++
    leBytes 4 (b2n j.byRec * 2 ^ 31 + j.key) ++ leBytes 8 count ++ leBytes 2 aadLen ++ takePad 14 [] ++ takePad 32 st

/-- The nonce of a sealed context: the boot tag and the 5-byte counter (R312). -/
def State.sealNonce (s : State) (ctr : List Byte) : List Byte := beBytes 8 s.cipher.bootTag ++ takePad 5 ctr

/-- What a context save writes at ctxa: clear, or sealed under slot 0 (R312). -/
def State.ctxSave (s : State) (j : Job) (b : List Byte) : List Byte × State :=
  if !j.ctxSeal then (b, s)
  else
    let ctr := leBytes 5 s.cipher.sealCtr
    let r := ccmEnc (beBytes 16 s.fuses.secret) (s.sealNonce ctr) [] b 8
    (ctr ++ takePad 3 [] ++ r.1 ++ r.2, { s with cipher := { s.cipher with sealCtr := s.cipher.sealCtr + 1 } })

/-- The context that a restore starts from, of the bytes c in memory: its count, associated length and state bytes; none
when it is not of this job's chain (R312). -/
def State.ctxOpen (s : State) (j : Job) (c : List Byte) : Option (Nat × Nat × List Byte) :=
  let b : Option (List Byte) :=
    if j.ctxSeal then
      ccmDec (beBytes 16 s.fuses.secret) (s.sealNonce (c.take 5)) [] ((c.drop 8).take 64) ((c.drop 72).take 8)
    else some c
  match b with
  | none => none
  | some b =>
    if leNat (b.take 1) ≠ j.op || leNat ((b.drop 1).take 1) % 16 ≠ j.tenant.getD 0
        || leNat ((b.drop 4).take 4) ≠ b2n j.byRec * 2 ^ 31 + j.key then none
    else some (leNat ((b.drop 8).take 8), leNat ((b.drop 16).take 2), (b.drop 32).take 32)

/-- What an AES job computes with its key: status, output, tag bytes to write after it, and the state bytes, count and
associated length of its context. -/
def aesWork (j : Job) (key iv aad d : List Byte) (ctx : Option (Nat × Nat × List Byte)) :
    Nat × List Byte × Nat × Nat × List Byte :=
  let data := d.take j.dataLen
  let tag := d.drop j.dataLen
  match j.op with
  | 1 => (0, aesEcb (aesEnc key) data, 0, 0, [])
  | 2 => (0, aesEcb (aesDec key) data, 0, 0, [])
  | 3 =>
    let c0 := match ctx with
      | some (_, _, st) => st.take 16
      | none => takePad 16 iv
    let r := aesCtrRun key 16 c0 (blocksOf data)
    (0, r.1, (match ctx with | some (n, _, _) => n | none => 0) + data.length, 0, r.2)
  | 4 =>
    let r := ccmEnc key iv aad data (2 * j.tlen)
    (0, r.1 ++ r.2, 0, 0, [])
  | 5 =>
    match ccmDec key iv aad data tag with
    | some pt => (0, pt, 0, 0, [])
    | none => (0x01, [], 0, 0, [])
  | 6 | 7 =>
    let c0 := match ctx with
      | some (_, _, st) => st.take 16
      | none => ctrInc 4 (gcmJ0 iv)
    let y0 := match ctx with
      | some (_, _, st) => beNat ((st.drop 16).take 16)
      | none => ghash (gcmH key) 0 (blocksOf aad)
    let n0 := match ctx with | some (n, _, _) => n | none => 0
    let al := match ctx with | some (_, a, _) => a | none => aad.length
    let r := aesCtrRun key 4 c0 (blocksOf data)
    let y := ghash (gcmH key) y0 (blocksOf (if j.op = 6 then r.1 else data))
    let n := n0 + data.length
    let t := gcmTag key y al n (c0.take 12 ++ beBytes 4 1) (2 * j.tlen)
    let st := r.2 ++ beBytes 16 y
    if !j.last then (0, r.1, n, al, st)
    else if j.op = 6 then (0, r.1 ++ t, n, al, st)
    else if t = tag then (0, r.1, n, al, st) else (0x01, [], n, al, st)
  | 8 => (0, kwWrap key data, 0, 0, [])
  | _ => (0, [], 0, 0, [])

/-- The masking generator after n blocks more: it takes a new seed from the TRNG every 65,536 blocks, and runs on from its
last seed while the TRNG is failed (R306, R316). The seed is a free value. -/
def State.maskRun (s : State) (n : Nat) : State :=
  let m := s.cipher.maskBlocks + n
  if m < 65536 || s.cipher.failed then { s with cipher := { s.cipher with maskBlocks := m } }
  else
    let f := s.free 128
    { f.2 with cipher := { f.2.cipher with maskSeed := f.1.toNat, maskBlocks := m % 65536 } }

/-- What a granted job has: the slots whose keys it holds, its status, its writes, its result and its key. -/
structure Granted where
  slots : List Nat := []
  status : Nat := 0
  writes : List (Nat × List Byte) := []
  result : List Byte := []
  key : List Byte := []

/-- Job i leaves the queue and runs on unit u until it completes; a job that waits takes its entry. -/
def State.startJob (s : State) (i u : Nat) (j : Job) (g : Granted) : State :=
  let run : Running :=
    { unit := u, job := j, slots := g.slots, status := g.status, writes := g.writes, result := g.result, key := g.key }
  ({ (if j.ecc || g.status ≠ 0 then s else s.maskRun j.chain) with age := s.age + 1, cipher := {
      (if j.ecc || g.status ≠ 0 then s else s.maskRun j.chain).cipher with
      queue := s.cipher.queue.eraseIdx i, running := s.cipher.running ++ [run] } } : State).admitWaiting

/-- The node KEK of a record's tenant, if it is loaded (R300). -/
def State.nodeKek (s : State) (rec : Nat) : Option (List Byte) :=
  match s.recTenant rec 16 with
  | some t => if (s.keySlot (16 + t)).valid then some (s.keySlot (16 + t)).key else none
  | none => none

/-- NKEY_SET, NKEY_DERIVE and NKEY_ERASE at their grant (R300, R309): status, the record's new bytes. -/
def State.nkeyWork (s : State) (j : Job) (d : List Byte) : Nat × List Byte :=
  let t := (s.recTenant j.key 16).getD 0
  match j.op with
  | 13 =>
    match s.nodeKek j.key with
    | none => (0x03, [])
    | some kek => if (kwUnwrap kek d).isNone then (0x09, []) else (0, d)
  | 14 =>
    match s.nodeKek j.key with
    | none => (0x03, [])
    | some kek =>
      if !(s.keySlot (32 + t)).valid then (0x03, []) else (0, kwWrap kek (aesEnc (s.keySlot (32 + t)).key d))
  | _ => (0, takePad 24 [])

/-- The cached copy of a record's key dropped; an erase also aborts the jobs that hold it (R301, R309). -/
def State.dropCached (s : State) (rec : Nat) (erase : Bool) : State :=
  match s.cacheFind rec with
  | none => s
  | some k => if erase then (s.emptySlot k).eraseUsers k else s.emptySlot k

/-- The slots whose keys an NKEY operation on a record holds: the node KEK, and the join key for a derivation (R309). -/
def State.nkeySlots (s : State) (j : Job) : List Nat :=
  match s.recTenant j.key 16, j.op with
  | some t, 13 => [16 + t]
  | some t, 14 => [16 + t, 32 + t]
  | _, _ => []

/-- The key of a job that names a slot: NO_KEY for an empty one (R309). -/
def State.jobKey (s : State) (j : Job) : KeyFound × State :=
  if j.byRec then s.recKey j.key
  else if (s.keySlot (j.key % 256)).valid then
    (.slot (j.key % 256), s)
  else (.fail 0x03, s)

/-- The grant of job i of the queue on unit u: its input is staged, then R296, the key, the context and the work itself
(R306, R308, R311). -/
def State.grantAes (s : State) (i u : Nat) (j : Job) : State :=
  match s.jobInput j with
  | (none, s1) => s1.startJob i u j { status := 0x06 }
  | (some (iv, aad, d, c), s1) =>
    if !s1.keyAllowed j then s1.startJob i u j { status := 0x04 }
    else if 13 ≤ j.op then
      let w := s1.nkeyWork j d
      s1.startJob i u j { slots := s1.nkeySlots j, status := w.1, key := w.2 }
    else
      match s1.jobKey j with
      | (.wait, s2) => s2
      | (.fail st, s2) => s2.startJob i u j { status := st }
      | (.slot k, s2) =>
        let key := (s2.keySlot k).key
        let cx := if j.restores then s2.ctxOpen j c else none
        if j.ctx ≠ 0 && !j.ctxSeal && !(s2.keySlot k).clearCtx then s2.startJob i u j { slots := [k], status := 0x04 }
        else if j.restores && cx.isNone then s2.startJob i u j { slots := [k], status := 0x08 }
        else if j.op = 9 then
          match kwUnwrap key d with
          | none => s2.startJob i u j { slots := [k], status := 0x09 }
          | some pt => s2.startJob i u j { slots := [k], key := pt }
        else
          let w := aesWork j key iv aad d cx
          let cs := if j.saves && w.1 = 0 then s2.ctxSave j (ctxBytes j w.2.2.1 w.2.2.2.1 w.2.2.2.2) else ([], s2)
          let outs := if j.noOut || w.2.1.isEmpty then [] else [(j.dst, w.2.1)]
          cs.2.startJob i u j { slots := [k], status := w.1, result := w.2.1
                                writes := outs ++ (if cs.1.isEmpty then [] else [(j.ctxa, cs.1)]) }

/-- SHA256 at its grant (R312, R313). -/
def State.grantSha (s : State) (i : Nat) (j : Job) : State :=
  match s.jobInput j with
  | (none, s1) => s1.startJob i 4 j { status := 0x06 }
  | (some (_, _, d, c), s1) =>
    match (if j.restores then s1.ctxOpen j c else some (0, 0, shaOut shaH0)) with
    | none => s1.startJob i 4 j { status := 0x08 }
    | some (cnt, _, st) =>
      let h0 := (List.range 8).map (fun w => beNat ((st.drop (4 * w)).take 4))
      let total := cnt + d.length
      let h := shaBlocks 10 h0 (if j.last then d ++ shaPad total else d)
      let cs := if j.saves then s1.ctxSave j (ctxBytes j total 0 (shaOut h)) else ([], s1)
      cs.2.startJob i 4 j { writes := (if j.last && !j.noOut then [(j.dst, shaOut h)] else []) ++
        (if cs.1.isEmpty then [] else [(j.ctxa, cs.1)]) }

/-- ECDSA_VERIFY at its grant: public key at dst, signature at iv, digest at src (Table 12-4). -/
def State.grantVerify (s : State) (i : Nat) (j : Job) : State :=
  match s.jobInput j with
  | (none, s1) => s1.startJob i 4 j { status := 0x06 }
  | (some (sig, _, d, _), s1) =>
    match s1.dmaRead j.tenant j.core j.dst 64 with
    | (none, s2) => s2.startJob i 4 j { status := 0x06 }
    | (some pub, s2) => s2.startJob i 4 j { status := if ecdsaVerify pub d sig then 0 else 0x0C }

/-- ECDSA_SIGN at its grant with a random draw: NO_ENTROPY while the TRNG is failed (R313, R314). -/
def State.grantSign (s : State) (i : Nat) (j : Job) (draw : Nat) : State :=
  let k := j.key % 4
  let mine := match j.tenant with
    | some t => s.fget (fECC_KEY_CTRL_owner k) == t
    | none => true
  match s.jobInput j with
  | (none, s1) => s1.startJob i 4 j { status := 0x06 }
  | (some (_, _, d, _), s1) =>
    if !mine then s1.startJob i 4 j { status := 0x04 }
    else if !s.fon (fECC_KEY_CTRL_valid k) then s1.startJob i 4 j { status := 0x03 }
    else if s.cipher.failed then s1.startJob i 4 j { status := 0x0A }
    else
      s1.startJob i 4 j
        { writes := if j.noOut then [] else [(j.dst, ecdsaSign (tabGet 0 s1.cipher.priv k) (scalarOf draw) d)] }

/-- The lines of the flash window that queued jobs need are asked for (R306, R363). -/
def State.stageAsk (s : State) : State :=
  s.cipher.queue.foldl (fun t j => j.ranges.foldl State.dmaAsk t) s

/-- The next round of the AES or the ECC arbiter grants a job of this op, if that is the job it picks. -/
def State.grant (s0 : State) (op draw : Nat) : State :=
  let s := s0.stageAsk
  match s.freeUnit (decide (10 ≤ op && op ≤ 12)), s.nextJob (decide (10 ≤ op && op ≤ 12)) with
  | some u, some (i, j) =>
    if j.op ≠ op then s
    else if op = 10 then s.grantSha i j
    else if op = 11 then s.grantVerify i j
    else if op = 12 then s.grantSign i j draw
    else s.grantAes i u j
  | _, _ => s

/-- The ECC engine, when it is free and the generation of a key or the work of a VERIFY is the job it picks, begins that
(R313, R376). -/
def State.keygenGrant (s : State) : State :=
  match s.freeUnit true, s.nextJob true with
  | some u, some (i, j) => if 16 ≤ j.op then s.startJob i u j {} else s
  | _, _ => s

/-- ECB_ENC (R304). -/
def execEcbEnc (s : State) : Host.Outcome State Fault Refusal := .next (s.grant 1 0)
/-- ECB_DEC (R304). -/
def execEcbDec (s : State) : Host.Outcome State Fault Refusal := .next (s.grant 2 0)
/-- CTR (R304). -/
def execCtr (s : State) : Host.Outcome State Fault Refusal := .next (s.grant 3 0)
/-- CCM_ENC (R304). -/
def execCcmEnc (s : State) : Host.Outcome State Fault Refusal := .next (s.grant 4 0)
/-- CCM_DEC (R304, R307). -/
def execCcmDec (s : State) : Host.Outcome State Fault Refusal := .next (s.grant 5 0)
/-- GCM_ENC (R304). -/
def execGcmEnc (s : State) : Host.Outcome State Fault Refusal := .next (s.grant 6 0)
/-- GCM_DEC (R304, R307). -/
def execGcmDec (s : State) : Host.Outcome State Fault Refusal := .next (s.grant 7 0)
/-- KW_WRAP (R304). -/
def execKwWrap (s : State) : Host.Outcome State Fault Refusal := .next (s.grant 8 0)
/-- KW_UNWRAP (R304). -/
def execKwUnwrap (s : State) : Host.Outcome State Fault Refusal := .next (s.grant 9 0)
/-- SHA256 (R313). -/
def execSha256 (s : State) : Host.Outcome State Fault Refusal := .next (s.grant 10 0)
/-- ECDSA_VERIFY (R313). -/
def execEcdsaVerify (s : State) : Host.Outcome State Fault Refusal := .next (s.grant 11 0)
/-- ECDSA_SIGN with the nonce drawn from the TRNG (R313). -/
def execEcdsaSign (draw : BitVec 256) (s : State) : Host.Outcome State Fault Refusal := .next (s.grant 12 draw.toNat)
/-- NKEY_SET (R300). -/
def execNkeySet (s : State) : Host.Outcome State Fault Refusal := .next (s.grant 13 0)
/-- NKEY_DERIVE (R300). -/
def execNkeyDerive (s : State) : Host.Outcome State Fault Refusal := .next (s.grant 14 0)
/-- NKEY_ERASE (R309). -/
def execNkeyErase (s : State) : Host.Outcome State Fault Refusal := .next (s.grant 15 0)

/-! ## TRNG (R315, R316) -/

/-- Output available (TRNG_STATUS ok). -/
def State.trngSet (s : State) (ok : Bool) : State := s.fset fTRNG_STATUS_ok (b2n ok)

/-- One raw bit through the health tests (R315): the tests, and whether the repetition count or the adaptive proportion test
fails on it. The first bit of a window does not count as a recurrence (log entry 76). -/
def RawTests.bit (h : RawTests) (b : Bool) : RawTests × Bool × Bool :=
  let run := if h.run ≠ 0 && b == h.last then h.run + 1 else 1
  let recur := if h.seen = 0 then 0 else if b == h.first then h.recur + 1 else h.recur
  let seen := if h.seen + 1 = 1024 then 0 else h.seen + 1
  ({ last := b, run := run, first := if h.seen = 0 then b else h.first, seen := seen, recur := recur },
   decide (41 ≤ run), decide (589 ≤ recur))

/-- Raw bits through the health tests, up to the first failure. -/
def RawTests.bits (h : RawTests) : List Bool → RawTests × Bool × Bool
  | [] => (h, false, false)
  | b :: rest =>
    let r := h.bit b
    if r.2.1 || r.2.2 then r else r.1.bits rest

/-- The test that failed (log code 0x0040). -/
def trngBits (rct apt startup : Bool) : Nat := b2n rct + 2 * b2n apt + 4 * b2n startup

/-- A test fails: FIFO discarded, output stopped, the bit set, counted, logged; the start-up test repeats in 10 ms
(R316). -/
def State.trngFail (s : State) (rct apt startup : Bool) : State :=
  let t1 : State := { (s.trngSet false) with
    cipher := { s.cipher with fifo := [], raw := {}, failed := true, retestAt := s.mono + 400000 } }
  let t2 := (t1.iff rct (fun u => u.fset fTRNG_STATUS_rct_fail 1)).iff apt (fun u => u.fset fTRNG_STATUS_apt_fail 1)
  let t3 := t2.fsat fTRNG_STATUS_fail_count
  t3.logHw 0x0040 (trngBits rct apt startup) (t3.fget fTRNG_STATUS_fail_count) 0

/-- Raw bits come: the tests run on them, and `good` acts when none fails. -/
def State.trngRaw (s : State) (raw : List Bool) (startup : Bool) (good : State → State) : State :=
  let r := (if startup then {} else s.cipher.raw : RawTests).bits raw
  if r.2.1 || r.2.2 then s.trngFail r.2.1 r.2.2 startup
  else good { s with cipher := { s.cipher with raw := r.1 } }

/-- Output begins. The masking generator takes its first seed (R306). -/
def State.trngStart (s : State) : State :=
  let f := (s.fset fTRNG_STATUS_startup_done 1).free 128
  let seed := if s.fon fTRNG_STATUS_startup_done then s.cipher.maskSeed else f.1.toNat
  ({ f.2 with cipher := { f.2.cipher with failed := false, maskSeed := seed } } : State).trngSet true

/-- TRNG_STARTUP_DONE: the 4,096 raw bits of the start-up test have come: it passes and output begins, or it fails. -/
def execTrngStartupDone (raw : List Bool) (s : State) : Host.Outcome State Fault Refusal :=
  .next (s.iff (!s.fon fTRNG_STATUS_startup_done && !s.cipher.failed && raw.length == 4096)
    (fun t => t.trngRaw raw true State.trngStart))

/-- TRNG_TEST_FAIL: raw bits on which a health test fails (R315, R316); bits on which none fails change only the tests. -/
def execTrngTestFail (raw : List Bool) (s : State) : Host.Outcome State Fault Refusal :=
  .next (s.iff (!s.cipher.failed) (fun t => t.trngRaw raw (!t.fon fTRNG_STATUS_startup_done) id))

/-- TRNG_RETEST: every 10 ms the start-up test repeats, on 4,096 raw bits, until it passes (R316). A repeat that fails
again neither counts nor logs (log entry 23). -/
def execTrngRetest (raw : List Bool) (s : State) : Host.Outcome State Fault Refusal :=
  .next (s.iff (s.cipher.failed && decide (s.cipher.retestAt ≤ s.mono) && raw.length == 4096) (fun t =>
    let r := ({} : RawTests).bits raw
    if r.2.1 || r.2.2 then { t with cipher := { t.cipher with retestAt := t.mono + 400000 } }
    else ({ t with cipher := { t.cipher with raw := r.1 } } : State).trngStart))

/-- The 64 output bits for 256 raw bits: the AES-CBC-MAC of the two blocks under the conditioner's key, of which the part
takes 64 bits (R315). Key and choice are the part's (log entry 76). -/
def conditioned (raw : List Bool) : BitVec 64 :=
  Config.conditionerPick (BitVec.ofNat 128 (beNat (cbcMac (beBytes 16 Config.conditionerKey.toNat) (takePad 16 [])
    (blocksOf (beBytes 32 (numUp raw.reverse))))))

/-- TRNG_CONDITIONER_OUTPUT: 256 raw bits give 64 output bits, which go into the FIFO of 64 words while there is room: two
words of 31 random bits and a spare bit each (R315). -/
def execTrngConditionerOutput (raw : List Bool) (s : State) : Host.Outcome State Fault Refusal :=
  .next (s.iff (s.fon fTRNG_STATUS_ok && raw.length == 256) (fun t => t.trngRaw raw false (fun u =>
    if 62 < u.cipher.fifo.length then u
    else
      { u with cipher := { u.cipher with
          fifo := u.cipher.fifo ++ [(conditioned raw).extractLsb' 0 32, (conditioned raw).extractLsb' 32 32] } })))

/-- TRNG_DATA_READ: a read takes a new random word (R316). -/
def execTrngDataRead (s : State) : Host.Outcome State Fault Refusal := .next s.trngTake.2

/-! ## ECC private keys (R314) -/

/-- The words of public key i. -/
def State.setPub (s : State) (i : Nat) (q : Nat × Nat) : State :=
  (List.range 8).foldl (fun t w =>
    (t.setReg (aECC_PUB i w) (BitVec.ofNat 32 (q.1 / 2 ^ (32 * (7 - w))))).setReg (aECC_PUB i (8 + w))
      (BitVec.ofNat 32 (q.2 / 2 ^ (32 * (7 - w))))) s

/-- An operation of ECC_KEY_CTRL starts; while one runs on the key, another is ignored (log entry 22). The generation of a
key is a job of the ECC engine (R313). -/
def State.eccStart (s : State) (i : Nat) (op : EccOp) : State :=
  if s.fon (fECC_KEY_CTRL_busy i) then s
  else
    let s1 := s.fset (fECC_KEY_CTRL_busy i) 1
    let s2 : State := { s1 with cipher := { s1.cipher with eccOps := s1.cipher.eccOps ++ [(i, op)] } }
    match op with
    | .keygen _ => (s2.enqueueUnit { who := .unit .keygen, tenant := none, op := 16, key := i, prio := 7 }).keygenGrant
    | _ => s2

/-- KEYGEN with the TRNG's draw (R314). -/
def execKeygen (i : BitVec 2) (draw : BitVec 256) (s : State) : Host.Outcome State Fault Refusal :=
  .next (s.eccStart i.toNat (.keygen draw.toNat))

/-- ECC_ZEROIZE (R314). -/
def execEccZeroize (i : BitVec 2) (s : State) : Host.Outcome State Fault Refusal := .next (s.eccStart i.toNat .zeroize)

/-- ECC_SAVE (R314). -/
def execEccSave (i : BitVec 2) (s : State) : Host.Outcome State Fault Refusal := .next (s.eccStart i.toNat .save)

/-- The private key of index i set, with its public key. -/
def State.setEccKey (s : State) (i d : Nat) : State :=
  let s1 : State := { s with cipher := { s.cipher with priv := tabSet 0 s.cipher.priv i d } }
  (s1.setPub i ((ecMul 256 d (some p256G)).getD (0, 0))).fset (fECC_KEY_CTRL_valid i) 1

/-- Key and bytes of the sealed copy of private key i (R314). -/
def State.eccSaved (s : State) (i : Nat) : Nat × List Byte :=
  (0x0500F000 + i * 0x40, kwWrap (beBytes 16 s.fuses.secret) (beBytes 32 (tabGet 0 s.cipher.priv i)))

/-- The effect of an operation on key i: keygen does nothing while the TRNG is failed (R316); save of an absent key
writes nothing. -/
def State.eccApply (s : State) (i : Nat) (op : EccOp) : State :=
  match op with
  | .keygen draw => if s.cipher.failed then s else s.setEccKey i (scalarOf draw)
  | .zeroize =>
    (({ s with cipher := { s.cipher with priv := tabSet 0 s.cipher.priv i 0 } } : State).setPub i (0, 0)).fset
      (fECC_KEY_CTRL_valid i) 0
  | .save => if s.fon (fECC_KEY_CTRL_valid i) then s.writeBytes (s.eccSaved i).1 (s.eccSaved i).2 else s

/-- A job on unit 4 keeps an operation on key i from ending: a SIGN that uses the key for a keygen or zeroize (R314), and
for a keygen its own job that has not begun (R313). -/
def State.eccWaits (s : State) (i : Nat) (op : EccOp) : Bool :=
  let runs (k : Nat) : Bool := s.cipher.running.any (fun r => r.job.op == k && r.job.key % 4 == i)
  match op with
  | .keygen _ => !runs 16
  | .zeroize => runs 12
  | .save => false

/-- The ECC engine lets the generation of key i go. -/
def State.keygenEnd (s : State) (i : Nat) (op : EccOp) : State :=
  match op with
  | .keygen _ =>
    ({ s with cipher := { s.cipher with
        running := s.cipher.running.filter (fun r => !(r.job.op == 16 && r.job.key == i)) } } : State).keygenGrant
  | _ => s

/-- ECC_KEY_OP_DONE: the operation on key i completes and busy clears (R314). -/
def execEccKeyOpDone (i : BitVec 2) (s : State) : Host.Outcome State Fault Refusal :=
  .next (match s.cipher.eccOps.find? (fun x => x.1 == i.toNat) with
    | none => s
    | some (_, op) =>
      if s.eccWaits i.toNat op then s
      else
        let s1 := (s.eccApply i.toNat op).fset (fECC_KEY_CTRL_busy i.toNat) 0
        ({ s1 with cipher := { s1.cipher with eccOps := s1.cipher.eccOps.filter (fun x => !(x.1 == i.toNat)) } } :
          State).keygenEnd i.toNat op)

/-! ## A reset cuts (R300, R360) -/

/-- A write of several words that a reset cuts: some of them have been written, from the first on; how many is free. -/
def State.cutWrite (s : State) (k : Nat) (bs : List Byte) : State :=
  let f := s.free 16
  f.2.writeBytes k (bs.take (8 * (f.1.toNat % (bs.length / 8 + 1))))

/-- The records that running NKEY operations write, and the keys being saved, cut by a reset (R300, R360). -/
def State.cipherCut (s : State) : State :=
  let s1 := s.cipher.running.foldl (fun t r =>
    if 13 ≤ r.job.op && r.job.op ≤ 15 && r.status = 0 && !r.erased then t.cutWrite (recAddr r.job.key) r.key else t) s
  s.cipher.eccOps.foldl (fun t x =>
    if x.2 == .save && s.fon (fECC_KEY_CTRL_valid x.1) then t.cutWrite (s.eccSaved x.1).1 (s.eccSaved x.1).2 else t) s1

end Sys2Proof.Machine
end

