-- ==== Sys2Proof/Machine/Rx.lean ====
section
/-!
DEFINITION. The channel receivers (chapter 4): binding, states, stamps, sync detection, detectors and the writes of their
configuration; the spectrum monitor. A branch is a truth value: false A, true B.
-/

namespace Sys2Proof.Machine

/-! ## Parts of a receiver -/

/-- The record of receiver n. -/
def State.rx (s : State) (n : Nat) : RxSt := tabGet {} s.radio.rx n

/-- The record of receiver n changed. -/
def State.modRx (s : State) (n : Nat) (f : RxSt → RxSt) : State :=
  { s with radio := { s.radio with rx := tabSet {} s.radio.rx n (f (s.rx n)) } }

/-- The record of path p, 0 A and 1 B. -/
def State.path (s : State) (p : Nat) : PathSt := tabGet {} s.radio.paths p

/-- The record of path p changed. -/
def State.modPath (s : State) (p : Nat) (f : PathSt → PathSt) : State :=
  { s with radio := { s.radio with paths := tabSet {} s.radio.paths p (f (s.path p)) } }

/-- The record of chain c, 0 TXL and 1 TXH. -/
def State.chain (s : State) (c : Nat) : ChainSt := tabGet {} s.radio.chains c

/-- The record of chain c changed. -/
def State.modChain (s : State) (c : Nat) (f : ChainSt → ChainSt) : State :=
  { s with radio := { s.radio with chains := tabSet {} s.radio.chains c (f (s.chain c)) } }

/-- bound_a or bound_b. -/
def fRxBound (n : Nat) (b : Bool) : Fld := if b then fRADIO_RX_STATUS_bound_b n else fRADIO_RX_STATUS_bound_a n

/-- tuner_a or tuner_b. -/
def fRxTuner (n : Nat) (b : Bool) : Fld := if b then fRADIO_RX_STATUS_tuner_b n else fRADIO_RX_STATUS_tuner_a n

/-- blank_a or blank_b. -/
def fRxBlank (n : Nat) (b : Bool) : Fld := if b then fRADIO_RX_STATUS_blank_b n else fRADIO_RX_STATUS_blank_a n

/-- Receivers whose en is set, in rising order. -/
def State.rxOn (s : State) : List Nat :=
  (s.regs.filter (fun e => 0x10140000 ≤ e.1 && e.1 < 0x10160000 && e.1 % 0x100 == 0 && bitN e.2.toNat 31)).map
    (fun e => (e.1 - 0x10140000) / 0x100)

/-- The path is present (R2, R112). -/
def State.hasPath (s : State) (p : Nat) : Bool := p == 0 || Config.hasB s.variant

/-- D1, D2 and D3 of a width code (Table 4-2); a custom length 0 means 16. -/
def State.rxDecim (s : State) (n width : Nat) : Nat × Nat × Nat :=
  let z (v : Nat) : Nat := if v = 0 then 16 else v
  match width with
  | 0 => (5, 4, 8)
  | 1 => (5, 4, 1)
  | 2 => (5, 2, 1)
  | 3 => (1, 1, 1)
  | _ => (z (s.fget (fRADIO_RX_DECIM_d1 n)), z (s.fget (fRADIO_RX_DECIM_d2 n)), z (s.fget (fRADIO_RX_DECIM_d3 n)))

/-- D1 × D2 × D3 of receiver n for a width code. -/
def State.rxD (s : State) (n width : Nat) : Nat :=
  let d := s.rxDecim n width
  d.1 * d.2.1 * d.2.2

/-- Channel width 0.4 × fout in Hz, rounded up (R107); edges in whole Hz compare the same. -/
def State.rxWidth (s : State) (n : Nat) : Nat :=
  let d := s.rxD n (s.fget (fRADIO_RX_CFG_width n))
  (2000000 + d - 1) / d

/-- The stages of a branch (Table 4-1). -/
inductive RxStage where
  | adcTuner | channelizer | fineNco | decim1 | decim2 | decim3 | compensation | detectors | demodulator
  deriving DecidableEq, Repr

/-- What a stage gives out: its rate as a fraction in samples a second, nothing for what does not give samples, and what it
adds to the group delay in thirds of a ns (R113). -/
structure RxStep where
  stage : RxStage
  rate : Option (Nat × Nat)
  delay : Nat
  deriving DecidableEq, Repr

/-- What the demodulator of receiver n adds: half a symbol of N1, N2, N3 and F1, a chip of W1, a symbol of W2, in thirds of
a ns (R113). -/
def State.demodDelay (s : State) (n : Nat) : Nat :=
  match s.fget (fRADIO_RX_CFG_mode n) with
  | 0 => 240000
  | 1 => 60000
  | 2 => 30000
  | 3 => 1500
  | 4 => 3000
  | _ => 312500

/-- The stages that a branch on tuner t passes its samples through, in order (R106, Table 4-1). The front delay of stages 1
and 2 stands with the second (R113). -/
def State.rxStages (s : State) (n t : Nat) : List RxStep :=
  let d := s.rxDecim n (s.fget (fRADIO_RX_CFG_width n))
  let front := if s.fon (fRADIO_PATH_CTRL_rate (t / 8)) then 6600 else 6100
  let d12 := d.1 * d.2.1
  let d123 := d12 * d.2.2
  [⟨.adcTuner, some (1250 * 5000 * 2 ^ s.fget (fRADIO_TUNER_CFG_span t), 1), 0⟩,
    ⟨.channelizer, some (5000000, 1), 3 * front⟩,
    ⟨.fineNco, some (5000000, 1), 0⟩,
    ⟨.decim1, some (5000000, d.1), 3 * ((d.1 - 1) * 100)⟩,
    ⟨.decim2, some (5000000, d12), 3 * ((d.2.1 - 1) * 100 * d.1)⟩,
    ⟨.decim3, some (5000000, d123), 3 * ((d.2.2 - 1) * 100 * d12)⟩,
    ⟨.compensation, some (5000000, d123), 3 * (3400 * d123)⟩,
    ⟨.detectors, none, 0⟩,
    ⟨.demodulator, none, s.demodDelay n⟩]

/-- Group delay of the stages and the demodulator in thirds of a ns, without fe_delay_ns: the sum over the stages of a
branch on path p (R113). -/
def State.rxDelayThirds (s : State) (n p : Nat) : Nat := ((s.rxStages n (8 * p)).map RxStep.delay).foldl (· + ·) 0

/-- G in ns, rounded to the nearest, halves up, fe_delay_ns included (R113). -/
def State.rxDelay (s : State) (n : Nat) (b : Bool) : Nat :=
  let p := b2n b
  (2 * s.rxDelayThirds n p + 3) / 6 + s.fget (fRADIO_PATH_FE_fe_delay_ns p)

/-- Branch A of the receiver is blanked by a carrier on air (R102, R118). -/
def State.rxBlankDue (s : State) (n : Nat) : Bool :=
  let bands := (s.chain 0).blank ++ (s.chain 1).blank
  match bandOf (s.fget (fRADIO_RX_FREQ_freq_hz n)) (s.rxWidth n) with
  | some b => bands.contains b
  | none => !bands.isEmpty

/-! ## Binding (R110–R112) -/

/-- Span of a tuner code in kHz (RADIO_TUNER_CFG). -/
def spanKhz (code : Nat) : Nat := 5000 * 2 ^ code

/-- Tuner t qualifies for a branch of receiver n on its path (R110). -/
def State.tunerFits (s : State) (t n : Nat) : Bool :=
  let p := t / 8
  let c := 1000 * s.fget (fRADIO_TUNER_CFG_centre_khz t)
  let span := 1000 * spanKhz (s.fget (fRADIO_TUNER_CFG_span t))
  let f := s.fget (fRADIO_RX_FREQ_freq_hz n)
  let w := s.rxWidth n
  tabGet false s.radio.tunerLive t && s.fget (fRADIO_PATH_STATUS_state p) == 2 && s.hasPath p && !(s.path p).off
    && decide (2 * c + 1000000 + w ≤ 2 * f + span) && decide (2 * f + w + 1000000 ≤ 2 * c + span)

/-- The branch may bind: branch_sel does not force the other (R112). -/
def State.branchOpen (s : State) (n : Nat) (b : Bool) : Bool :=
  s.hasPath (b2n b) &&
    (match s.fget (fRADIO_RX_CFG_branch_sel n) with
      | 0 => true
      | 1 => !b
      | _ => b)

/-- Receiver state field. -/
def State.rxState (s : State) (n : Nat) : Nat := s.fget (fRADIO_RX_STATUS_state n)

/-- Receiver state set. -/
def State.setRxState (s : State) (n v : Nat) : State := s.fset (fRADIO_RX_STATUS_state n) v

/-- The channelizer bin, counted in steps of 2 MHz from the tuner centre, whose centre lies nearest a channel that is `off`
Hz above the tuner centre: the lower of two equally near (R106, R107). -/
def nearBin (off : Int) : Int := -((1000000 - off) / 2000000)

/-- The fine NCO word that moves a channel `off` Hz above its bin centre to 0 Hz, in steps of 5 MHz / 2^24, to the nearest:
off × 2^18 / 78125, which is never half-way between two steps (R106). -/
def ncoWord (off : Int) : BitVec 24 := BitVec.ofInt 24 ((off * 2 ^ 19 + 78125) / 156250)

/-- The branch bound, if it is not bound and a tuner qualifies: to the lowest (R110), with its channelizer bin and NCO
(R106, R107). It contributes 2 Gf later (R111). -/
def State.bindBranch (s : State) (n : Nat) (b : Bool) : State :=
  if s.fon (fRxBound n b) || !s.branchOpen n b then s
  else
    match (List.range 8).find? (fun i => s.tunerFits (8 * b2n b + i) n) with
    | none => s
    | some i =>
      let s1 := (s.fset (fRxBound n b) 1).fset (fRxTuner n b) i
      let off : Int := (s.fget (fRADIO_RX_FREQ_freq_hz n) : Int)
        - 1000 * (s.fget (fRADIO_TUNER_CFG_centre_khz (8 * b2n b + i)) : Int)
      let k := nearBin off
      let w := ncoWord (off - 2000000 * k)
      s1.modRx n (fun r => if b then { r with fillB := true, binB := k, ncoB := w }
        else { r with fillA := true, binA := k, ncoA := w })

/-- A branch tried; when it binds a receiver in NO_SOURCE, that enters FILL, whose timer is this branch's (Table 4-7). -/
def State.tryBind (s : State) (n : Nat) (b : Bool) : State :=
  let s1 := s.bindBranch n b
  if s1.rxState n = 1 && s1.fon (fRxBound n b) then
    ((s1.setRxState n 2).fset (fRADIO_RX_STATUS_no_source n) 0).modRx n (fun r => { r with timerB := b })
  else s1

/-- A binding moment of receiver n: both branches are tried (Table 4-7). -/
def State.rebind (s : State) (n : Nat) : State := (s.tryBind n false).tryBind n true

/-- A binding moment of every enabled receiver. -/
def State.rebindAll (s : State) : State := s.rxOn.foldl (fun t n => if t.rxState n = 0 then t else t.rebind n) s

/-- The detector registers of a branch show 0x8000 (R121). -/
def State.detNone (s : State) (n : Nat) (b : Bool) : State :=
  if b then (s.setReg (aRADIO_RX_DET_B n) 0x80008000#32).fset (fRADIO_RX_ENV_env_b n) 0x8000
  else (s.setReg (aRADIO_RX_DET_A n) 0x80008000#32).fset (fRADIO_RX_ENV_env_a n) 0x8000

/-- A CCA window that reads this branch of this receiver is judged busy (R179). -/
def State.ccaLost (s : State) (n : Nat) (b : Bool) : State :=
  let mark (c : ChainSt) : ChainSt :=
    match c.start with
    | some x => if x.phase = .cca && x.probe = (n, b) then { c with start := some { x with hit := true } } else c
    | none => c
  (s.modChain 0 mark).modChain 1 mark

/-- A branch can carry the frame: bound, unblanked, past its fill and past its recovery from blanking (R119). -/
def State.branchUsable (s : State) (n : Nat) (b : Bool) : Bool :=
  let x := s.rx n
  s.fon (fRxBound n b) && !s.fon (fRxBlank n b) && !(if b then x.fillB || x.recovB else x.fillA || x.recovA)

/-- The state a receiver falls to without a frame: SEARCH, or NO_SOURCE when no branch is bound (Table 4-7). -/
def State.rxFall (s : State) (n : Nat) : State :=
  if s.fon (fRxBound n false) || s.fon (fRxBound n true) then s.setRxState n 3
  else (s.setRxState n 1).fset (fRADIO_RX_STATUS_no_source n) 1

/-- A report joins the queue to the ingress. -/
def State.report (s : State) (r : RxReport) : State :=
  { s with radio := { s.radio with reports := s.radio.reports ++ [r] } }

/-- The branch of the frame in reception is lost (R119): the frame goes on on the other branch if that is usable, else
it ends BRANCH_LOST. -/
def State.branchLost (s : State) (n : Nat) (b : Bool) : State :=
  if s.rxState n = 4 && (s.rx n).onB == b then
    if s.branchUsable n (!b) then
      (s.modRx n (fun r => { r with onB := !b, switched := true })).fsat (fRADIO_RX_COUNT_switches n)
    else
      ((s.report (.ended n 2 (s.rx n).switched (s.rx n).gain)).fsat (fRADIO_RX_COUNT_aborts n)).rxFall n
  else s

/-- A branch unbound: the detectors report none, a frame on it switches or ends, a receiver whose last branch it was falls
to NO_SOURCE, and then the hardware tries at once to bind it again (R110, Table 4-7). -/
def State.unbindBranch (s : State) (n : Nat) (b : Bool) : State :=
  if !s.fon (fRxBound n b) then s
  else
    let s1 := (((s.fset (fRxBound n b) 0).detNone n b).ccaLost n b).branchLost n b
    let s2 := if (s1.rxState n = 2 || s1.rxState n = 3) && !s1.fon (fRxBound n (!b)) then s1.rxFall n else s1
    s2.tryBind n b

/-- Every branch bound to tuner t unbound. -/
def State.unbindTuner (s : State) (t : Nat) : State :=
  let b := decide (8 ≤ t)
  s.rxOn.foldl (fun u n => if u.fon (fRxBound n b) && u.fget (fRxTuner n b) == t % 8 then u.unbindBranch n b else u) s

/-- Every branch of path p unbound. -/
def State.unbindPath (s : State) (p : Nat) : State :=
  s.rxOn.foldl (fun u n => u.unbindBranch n (p == 1)) s

/-- A branch blanked or unblanked. A blanked branch loses its frame; an unblanked one contributes again Gf later
(R118). -/
def State.setBlank (s : State) (n : Nat) (b on : Bool) : State :=
  if s.fon (fRxBlank n b) == on then s
  else if on then (((s.fset (fRxBlank n b) 1).detNone n b).ccaLost n b).branchLost n b
  else (s.fset (fRxBlank n b) 0).modRx n (fun r => if b then { r with recovB := true } else { r with recovA := true })

/-- Blanking of branch A of every enabled receiver as the carriers on air now demand (R102). -/
def State.updateBlank (s : State) : State := s.rxOn.foldl (fun t n => t.setBlank n false (t.rxBlankDue n)) s

/-! ## Enabling and disabling -/

/-- A receiver disabled (Table 4-7): a frame in reception ends DISABLED; both branches unbind. -/
def State.rxDisable (s : State) (n : Nat) : State :=
  let s1 := if s.rxState n = 4 then
      (s.report (.ended n 3 (s.rx n).switched (s.rx n).gain)).fsat (fRADIO_RX_COUNT_aborts n)
    else s
  let s2 := [false, true].foldl (fun t b =>
    ((((t.setRxState n 0).fset (fRxBound n b) 0).fset (fRxBlank n b) 0).detNone n b).ccaLost n b) s1
  s2.fset (fRADIO_RX_STATUS_no_source n) 0

/-- A receiver enabled and accepted: branches bind; FILL, or NO_SOURCE when none binds (Table 4-7). -/
def State.rxEnable (s : State) (n : Nat) : State :=
  let s1 := (s.modRx n (fun _ => {})).setRxState n 1
  let s2 := (s1.fset (fRADIO_RX_STATUS_blank_a n) (b2n (s1.rxBlankDue n))).rebind n
  if s2.rxState n = 1 then s2.fset (fRADIO_RX_STATUS_no_source n) 1 else s2

/-- The fields of a RADIO_RX_CFG write. -/
structure RxCfg where
  en : Bool
  sel : Nat
  mode : Nat
  width : Nat
  tenant : Nat
  home : Nat
  deriving DecidableEq, Repr

/-- The fields of a word. -/
def rxCfgOf (v : Nat) : RxCfg :=
  { en := bitN v 31, sel := bitsN v 29 28, mode := bitsN v 27 24, width := bitsN v 23 20, tenant := bitsN v 19 16,
    home := bitsN v 15 14 }

/-- A field value that refuses the whole write whatever en holds (R109). -/
def RxCfg.reserved (c : RxCfg) : Bool := c.sel == 3 || c.mode == 5 || decide (7 ≤ c.mode) || decide (5 ≤ c.width)

/-- Mode and width match Table 4-2; a custom width gives 4 to 16 samples per symbol (R109). -/
def State.rxModeOk (s : State) (n : Nat) (c : RxCfg) : Bool :=
  if c.width = 4 then
    let d := s.rxD n 4
    let q := match c.mode with
      | 0 => 800
      | 1 => 200
      | 2 => 100
      | _ => 0
    decide (c.mode ≤ 2) && decide (4 * d ≤ q) && decide (q ≤ 16 * d)
  else modeWidthCode c.mode == some c.width

/-- Enabled receivers other than n that satisfy p. -/
def State.rxCount (s : State) (n : Nat) (p : Nat → Bool) : Nat := (s.rxOn.filter (fun i => i != n && p i)).length

/-- The home region holds a cluster of the tenant (R26). -/
def State.homeOk (s : State) (r t : Nat) : Bool := (List.range 4).any (fun i => s.clusterTenant (4 * r + i) == some t)

/-- The permission of an F1 receiver (R417, R418). -/
def State.f1Ok (s : State) (n : Nat) : Bool :=
  let f := s.fget (fRADIO_RX_FREQ_freq_hz n)
  bitN s.fuses.oldTree.toNat 31 && f % 12500 == 0
    && (List.range 16).any (fun k => s.inSub k f 12500 && bitN s.fuses.oldTree.toNat k)
    && decide (s.rxCount n (fun i => s.fget (fRADIO_RX_CFG_mode i) == 6) < 32)

/-- An enabling write is accepted (R109, R125, R417, R418). -/
def State.rxEnableOk (s : State) (n : Nat) (c : RxCfg) : Bool :=
  s.rxModeOk n c && (c.width != 3 || decide (s.rxCount n (fun i => s.fget (fRADIO_RX_CFG_width i) == 3) < 128))
    && s.started c.tenant && s.homeOk c.home c.tenant && (c.mode != 6 || s.f1Ok n)

/-- cfg_err set. -/
def State.rxErr (s : State) (n : Nat) : State := s.fset (fRADIO_RX_STATUS_cfg_err n) 1

/-- A write of RADIO_RX_CFG of receiver n with word v (R109, R120, R125); an engine's write leaves tenant and home. What
R109 refuses or ignores sets cfg_err; plan_off alone refuses the rest without it (log entry 30). -/
def State.rxCfgWrite (s : State) (m : Master) (n v : Nat) : State :=
  let old := rxCfgOf (s.reg (aRADIO_RX_CFG n)).toNat
  let c0 := rxCfgOf v
  let c := if (s.tagOf m).isSome then { c0 with tenant := old.tenant, home := old.home } else c0
  let put (t : State) (en : Bool) : State :=
    t.setReg (aRADIO_RX_CFG n) (BitVec.ofNat 32
      (b2n en * 2 ^ 31 + c.sel * 2 ^ 28 + c.mode * 2 ^ 24 + c.width * 2 ^ 20 + c.tenant * 2 ^ 16 + c.home * 2 ^ 14))
  if Config.receivers s.variant ≤ n then s
  else if c.reserved then s.rxErr n
  else if old.en && !c.en then put (s.rxDisable n) false
  else if !c.en then put s false
  else if (if old.en then c.sel != old.sel || c.mode != old.mode || c.width != old.width else !s.rxEnableOk n c) then s.rxErr n
  else if s.fon (fRADIO_RX_STATUS_plan_off n) then s
  else if old.en then put s true
  else (put s true).rxEnable n

/-- A write of RADIO_RX_FREQ or RADIO_RX_DECIM of receiver n: ignored with cfg_err when it changes it while en = 1
(R109). -/
def State.rxTuneWrite (s : State) (n a : Nat) (v : Word) : State :=
  if Config.receivers s.variant ≤ n then s
  else if s.fon (fRADIO_RX_CFG_en n) then (if s.reg a = v then s else s.rxErr n) else s.setReg a v

/-- RX_ENABLE: a write of RADIO_RX_CFG that sets en (R109). -/
def execRxEnable (m : Master) (n : BitVec 9) (v : Word) (s : State) : Host.Outcome State Fault Refusal :=
  .next (s.regGate m (aRADIO_RX_CFG n.toNat) (fun t => t.rxCfgWrite m n.toNat (v ||| 0x80000000#32).toNat))

/-- RX_DISABLE: a write of RADIO_RX_CFG that clears en (R120). -/
def execRxDisable (m : Master) (n : BitVec 9) (v : Word) (s : State) : Host.Outcome State Fault Refusal :=
  .next (s.regGate m (aRADIO_RX_CFG n.toNat) (fun t => t.rxCfgWrite m n.toNat (v &&& 0x7FFFFFFF#32).toNat))

/-- RX_OWNER_WRITE: a supervisor write of tenant and home that changes nothing else (R125). -/
def execRxOwnerWrite (n : BitVec 9) (tenant : BitVec 4) (home : BitVec 2) (s : State) :
    Host.Outcome State Fault Refusal :=
  .next (if Config.receivers s.variant ≤ n.toNat then s
    else (s.fset (fRADIO_RX_CFG_tenant n.toNat) tenant.toNat).fset (fRADIO_RX_CFG_home n.toNat) home.toNat)

/-- FILL_TIMER_EXPIRY: 2 × Gf have passed since a branch was bound, which has filled; when it was the first that bound, the
receiver leaves FILL (R111, Table 4-7). -/
def execFillTimerExpiry (n : BitVec 9) (b : Bool) (s : State) : Host.Outcome State Fault Refusal :=
  let i := n.toNat
  let first := s.rxState i == 2 && (s.rx i).timerB == b
  .next (s.iff (s.fon (fRxBound i b) || first) (fun t =>
    let t1 := t.modRx i (fun r => if b then { r with fillB := false } else { r with fillA := false })
    if first then t1.setRxState i 3 else t1))

/-- BLANK_RECOVERY: Gf after blanking ends the branch contributes again (R118). -/
def execBlankRecovery (n : BitVec 9) (b : Bool) (s : State) : Host.Outcome State Fault Refusal :=
  .next (s.iff (s.fon (fRxBound n.toNat b) && !s.fon (fRxBlank n.toNat b)) (fun t =>
    t.modRx n.toNat (fun r => if b then { r with recovB := false } else { r with recovA := false })))

/-! ## Levels (R121) -/

/-- A level at the RFIN ball in 0.25 dB units referred to the aerial: less fe_gain, plus byp_step while LNA_x_BYP is
high. -/
def State.atAerial (s : State) (p : Nat) (level : BitVec 16) : Nat :=
  let gain := signedN 10 (s.fget (fRADIO_PATH_FE_fe_gain p))
  let byp : Int := if (s.path p).lnaByp then s.fget (fRADIO_PATH_CTRL_byp_step p) else 0
  unsignedN 16 (signedN 16 level.toNat - gain + byp)

/-- The level a branch reports: 0x8000 while unbound or blanked. -/
def State.branchLevel (s : State) (n : Nat) (b : Bool) (level : BitVec 16) : Nat :=
  if s.fon (fRxBound n b) && !s.fon (fRxBlank n b) then s.atAerial (b2n b) level else 0x8000

/-- The µs in which the ADC of path p reached full scale since the last count join ovld_cnt, which saturates (R85). -/
def State.overload (s : State) (p us : Nat) : State :=
  s.fset (fRADIO_PATH_STATUS_ovld_cnt p) (min 0xFFFF (s.fget (fRADIO_PATH_STATUS_ovld_cnt p) + us))

/-- DETECTOR_WINDOW_END: the peak and RMS registers of a branch update, at the levels measured at the ball (R122); `ovld`:
the µs in which the path's ADC reached full scale that ovld_cnt does not hold yet (R85; log entry 13). -/
def execDetectorWindowEnd (n : BitVec 9) (b : Bool) (peak rms ovld : BitVec 16) (s : State) :
    Host.Outcome State Fault Refusal :=
  .next (s.iff (s.fon (fRADIO_RX_CFG_en n.toNat)) (fun t =>
    let w := BitVec.ofNat 32 (t.branchLevel n.toNat b peak * 65536 + t.branchLevel n.toNat b rms)
    (t.setReg (if b then aRADIO_RX_DET_B n.toNat else aRADIO_RX_DET_A n.toNat) w).overload (b2n b) ovld.toNat))

/-- ENVELOPE_UPDATE: the envelope register updates (R122). -/
def execEnvelopeUpdate (n : BitVec 9) (envA envB : BitVec 16) (s : State) : Host.Outcome State Fault Refusal :=
  .next (s.iff (s.fon (fRADIO_RX_CFG_en n.toNat)) (fun t =>
    (t.fset (fRADIO_RX_ENV_env_a n.toNat) (t.branchLevel n.toNat false envA)).fset (fRADIO_RX_ENV_env_b n.toNat)
      (t.branchLevel n.toNat true envB)))

/-! ## Sync (R114, R116) -/

/-- Cinch is LOCKED (R193). -/
def State.cinchLocked (s : State) : Bool := s.fget fCINCH_STATUS_state == 2

/-- The branch searches: bound, unblanked, contributing (R111, R116, R118). -/
def State.branchSearch (s : State) (n : Nat) (b : Bool) : Bool := s.branchUsable n b

/-- A CCA window whose probe finds a sync is busy (R179). -/
def State.ccaSync (s : State) (n : Nat) : State :=
  let mark (c : ChainSt) : ChainSt :=
    match c.start with
    | some x => if x.phase = .cca && x.probe.1 = n then { c with start := some { x with hit := true } } else c
    | none => c
  (s.modChain 0 mark).modChain 1 mark

/-- The steps of Table 4-5 on the branch chosen; `out` is the ns of the current frame at which the last symbol left the
demodulator. -/
def State.syncAt (s : State) (n : Nat) (b : Bool) (out : Nat) (ra rb : BitVec 16) (foff : Word) : State :=
  let st := s.instantSub s.cinch.frame out (s.rxDelay n b)
  let t := s.fget (fRADIO_RX_CFG_tenant n)
  let h := s.fget (fRADIO_RX_CFG_home n)
  let mode := s.fget (fRADIO_RX_CFG_mode n)
  let r : SyncRec :=
    { w0 := BitVec.ofNat 32 (n * 2 ^ 23 + b2n b * 2 ^ 22 + b2n s.cinchLocked * 2 ^ 19 + t * 2 ^ 12 + mode * 2 ^ 8)
      w1 := BitVec.ofNat 32 st.1, w2 := BitVec.ofNat 32 st.2
      w3 := BitVec.ofNat 32 (s.branchLevel n false ra * 65536 + s.branchLevel n true rb), w4 := foff
      era := if st.1 ≠ s.cinch.frame && s.cinch.stepped then s.cinch.era - 1 else s.cinch.era }
  let s1 := ((((s.setReg (aRADIO_RX_SYNC n 0) r.w0).setReg (aRADIO_RX_SYNC n 1) r.w1).setReg
    (aRADIO_RX_SYNC n 2) r.w2).setReg (aRADIO_RX_SYNC n 3) r.w3).setReg (aRADIO_RX_SYNC n 4) r.w4
  let s2 := s1.modRx n (fun x =>
    { x with sync := r, onB := b, switched := false, gain := false, tenant := t, home := h, heard := true })
  (((s2.setRxState n 4).fsat (fRADIO_RX_COUNT_syncs n)).report (.sync n r t h mode)).ccaSync n

/-- SYNC_DETECT: the branches that found the sync, their preamble energies, the time out of the demodulator, the levels
measured over the sync word at the balls, and the frequency offset. The receiver must be in SEARCH and a finding branch
must search (R116, R117). -/
def execSyncDetect (n : BitVec 9) (foundA foundB : Bool) (energyA energyB : Word) (out : BitVec 30)
    (rssiA rssiB : BitVec 16) (foff : Word) (s : State) : Host.Outcome State Fault Refusal :=
  let i := n.toNat
  let fa := foundA && s.branchSearch i false
  let fb := foundB && s.branchSearch i true
  let ea := if fa then energyA.toNat else 0
  let eb := if fb then energyB.toNat else 0
  let b : Bool :=
    match s.fget (fRADIO_RX_CFG_branch_sel i) with
    | 1 => false
    | 2 => true
    | _ => if fa == fb then decide (ea < eb) else fb
  .next (s.iff (s.rxState i == 3 && (fa || fb)) (fun t => t.syncAt i b out.toNat rssiA rssiB foff))

/-- The decoder pool ends the frame of receiver n: it searches again, and its end report gives switched and gain_step
(R117, R145). -/
def State.rxEnd (s : State) (n : Nat) : State := if s.rxState n = 4 then s.rxFall n else s

/-! ## Spectrum monitor (R123) -/

/-- A run of the spectrum monitor ends because its tuner was disabled. -/
def State.specAbort (s : State) (t : Nat) : State :=
  if s.fon fRADIO_SPEC_CTRL_busy && s.radio.specTuner == t then
    let s1 := ((s.fset fRADIO_SPEC_CTRL_busy 0).fset fRADIO_SPEC_CTRL_done 1).fset fRADIO_SPEC_CTRL_abort 1
    (List.range 512).foldl (fun u k =>
      let f := u.free 32
      f.2.setReg (aRADIO_SPEC_DATA k) f.1) { s1 with radio := { s1.radio with specDone := true } }
  else s

/-- A read of a word of RADIO_SPEC_DATA before the first run has ended is undefined (R123). -/
def State.specRead (s : State) (a : Nat) : Word × State := if s.radio.specDone then (s.reg a, s) else s.free 32

/-- A write of RADIO_SPEC_CTRL: avg above 10 is ignored; go is ignored while busy or when the tuner is disabled. -/
def State.specWrite (s : State) (v : Nat) : State :=
  let s1 := if bitsN v 7 4 ≤ 10 then s.fset fRADIO_SPEC_CTRL_avg (bitsN v 7 4) else s
  let s2 := s1.fset fRADIO_SPEC_CTRL_tuner v
  s2.iff (bitN v 31 && !s2.fon fRADIO_SPEC_CTRL_busy && s2.fon (fRADIO_TUNER_CFG_en (bitsN v 3 0)))
    (fun t => { (t.fset fRADIO_SPEC_CTRL_busy 1) with radio := { t.radio with specTuner := bitsN v 3 0 } })

/-- SPEC_GO: a write of RADIO_SPEC_CTRL with go set (R123). -/
def execSpecGo (avg tuner : BitVec 4) (s : State) : Host.Outcome State Fault Refusal :=
  .next (s.specWrite (2 ^ 31 + avg.toNat * 16 + tuner.toNat))

/-- SPEC_DONE: the run ends and its 1,024 bins, two in a word, are written (R123); `bins` are the levels measured at
the ball, lowest frequency first, referred to the aerial here (R121). -/
def execSpecDone (bins : List (BitVec 16)) (s : State) : Host.Outcome State Fault Refusal :=
  .next (s.iff (s.fon fRADIO_SPEC_CTRL_busy) (fun t =>
    let p := t.radio.specTuner / 8
    let bin (k : Nat) : Nat := t.atAerial p (bins.getD k 0#16)
    let t1 := (List.range 512).foldl (fun u k =>
      u.setReg (aRADIO_SPEC_DATA k) (BitVec.ofNat 32 (bin (2 * k) + bin (2 * k + 1) * 65536)))
      { t with radio := { t.radio with specDone := true } }
    (t1.fset fRADIO_SPEC_CTRL_busy 0).fset fRADIO_SPEC_CTRL_done 1))

end Sys2Proof.Machine
end

