-- ==== Sys2Proof/Machine/Paths.lean ====
section
/-!
DEFINITION. The receive paths and the band tuners (chapter 3, R82–R87).
-/

namespace Sys2Proof.Machine

/-! ## States of a path (Table 3-2) -/

/-- State of path p: 0 SLEEP, 1 STANDBY, 2 RECEIVE. -/
def State.pathState (s : State) (p : Nat) : Nat := s.fget (fRADIO_PATH_STATUS_state p)

/-- State of path p set. -/
def State.setPathState (s : State) (p v : Nat) : State := s.fset (fRADIO_PATH_STATUS_state p) v

/-- A path leaves RECEIVE for STANDBY: LNA_x_EN low, its tuners deliver no samples, its branches unbind (R83, R110). -/
def State.leaveReceive (s : State) (p : Nat) : State :=
  ((s.setPathState p 1).modPath p (fun x => { x with lnaEn := false })).unbindPath p

/-- A resting path acts on a request (Table 3-2). -/
def State.pathAct (s : State) (p want : Nat) : State :=
  match s.pathState p with
  | 0 => if want = 0 then s else s.modPath p (fun x => { x with move := .toStandby })
  | 1 =>
    if want = 2 then (s.modPath p (fun x => { x with move := .toReceive })).fset (fRADIO_PATH_STATUS_cal_done p) 0
    else if want = 0 then s.setPathState p 0
    else s
  | _ =>
    if want = 2 then s
    else if want = 1 then s.leaveReceive p
    else (s.leaveReceive p).setPathState p 0

/-- A request reaches path p: during a transition the latest is kept (R83). -/
def State.pathWant (s : State) (p want : Nat) : State :=
  let s1 := s.modPath p (fun x => { x with want := want })
  if (s.path p).move = .rest then s1.pathAct p want else s1

/-- A write of state_req: 3 is ignored; while the energy plan holds the path in SLEEP the request only waits. -/
def State.pathStateReq (s : State) (p v : Nat) : State :=
  if v = 3 || !s.hasPath p then s
  else
    let s1 := s.fset (fRADIO_PATH_CTRL_state_req p) v
    if (s.path p).off then s1 else s1.pathWant p v

/-- PATH_STATE_REQ (R83). -/
def execPathStateReq (p : Bool) (v : BitVec 2) (s : State) : Host.Outcome State Fault Refusal :=
  .next (s.pathStateReq (b2n p) v.toNat)

/-- A path rests in STANDBY after its start from SLEEP and acts on the latest request. -/
def State.pathStandby (s : State) (p : Nat) : State :=
  ((s.setPathState p 1).modPath p (fun x => { x with move := .rest })).pathAct p (s.path p).want

/-- PATH_STANDBY_REACHED (R83). -/
def execPathStandbyReached (p : Bool) (s : State) : Host.Outcome State Fault Refusal :=
  .next (s.iff ((s.path (b2n p)).move == .toStandby) (fun t => t.pathStandby (b2n p)))

/-- The span of tuner t lies wholly inside the usable range of path p at its rate (R82, R86). -/
def State.spanOk (s : State) (p t : Nat) : Bool :=
  let c := 2 * s.fget (fRADIO_TUNER_CFG_centre_khz t)
  let w := spanKhz (s.fget (fRADIO_TUNER_CFG_span t))
  let top := if s.fon (fRADIO_PATH_CTRL_rate p) then 1000000 else 2700000
  decide (60000 + w ≤ c) && decide (c + w ≤ 2 * top)

/-- Sum of the enabled spans of path p in MHz. -/
def State.spanUsed (s : State) (p : Nat) : Nat :=
  (List.range 8).foldl (fun a i =>
    if s.fon (fRADIO_TUNER_CFG_en (8 * p + i)) then a + 5 * 2 ^ s.fget (fRADIO_TUNER_CFG_span (8 * p + i)) else a) 0

/-- A tuner disabled: its branches unbind and a spectrum run on it aborts (R110, R123). -/
def State.tunerOff (s : State) (t : Nat) : State :=
  let s1 := s.fset (fRADIO_TUNER_CFG_en t) 0
  let s2 : State := { s1 with radio := { s1.radio with tunerLive := tabSet false s1.radio.tunerLive t false } }
  (s2.unbindTuner t).specAbort t

/-- Every tuner of path p outside its usable range disabled, with span_err (R84). -/
def State.dropTuners (s : State) (p : Nat) : State :=
  (List.range 8).foldl (fun u i =>
    let t := 8 * p + i
    if u.fon (fRADIO_TUNER_CFG_en t) && !u.spanOk p t then (u.tunerOff t).fset (fRADIO_PATH_STATUS_span_err p) 1 else u) s

/-- The rate in force set. -/
def State.setRate (s : State) (p r : Nat) : State := (s.fset (fRADIO_PATH_CTRL_rate p) r).dropTuners p

/-- A write of rate (R84): ignored from the start of STANDBY→RECEIVE until the path next rests in STANDBY or SLEEP. -/
def State.pathRate (s : State) (p r : Nat) : State :=
  if !s.hasPath p || s.pathState p = 2 || (s.path p).move = .toReceive then s else s.setRate p r

/-- PATH_RATE_WRITE (R84). -/
def execPathRateWrite (p r : Bool) (s : State) : Host.Outcome State Fault Refusal :=
  .next (s.pathRate (b2n p) (b2n r))

/-- Tuners of path p that the plan disabled when it left FULL are enabled again where their spans fit (R332, R334). -/
def State.tunersBack (s : State) (p : Nat) : State :=
  s.girth.fullTuners.foldl (fun u t =>
    if t / 8 = p && !u.fon (fRADIO_TUNER_CFG_en t) && u.spanOk p t
        && decide (u.spanUsed p + 5 * 2 ^ u.fget (fRADIO_TUNER_CFG_span t) ≤ 160) then u.fset (fRADIO_TUNER_CFG_en t) 1
    else u) s

/-- The plan's rate on path p (R334): a path in RECEIVE goes to STANDBY, changes its rate and returns; a path elsewhere
only changes it. -/
def State.planRate (s : State) (p r : Nat) : State :=
  if s.pathState p = 2 then
    ((((s.leaveReceive p).setRate p r).tunersBack p).modPath p (fun x => { x with move := .toReceive, want := 2 })).fset
      (fRADIO_PATH_STATUS_cal_done p) 0
  else (s.setRate p r).tunersBack p

/-- A path enters RECEIVE: calibrated, LNA_x_EN high, receivers bind (R83, R110); a path B that waits for path A to be
back changes its rate then (R334); then the latest request acts. -/
def State.pathReceive (s : State) (p : Nat) : State :=
  let want := (s.path p).want
  let s1 := ((s.setPathState p 2).fset (fRADIO_PATH_STATUS_cal_done p) 1).modPath p
    (fun x => { x with move := .rest, lnaEn := true })
  let s2 := s1.rebindAll
  let s3 := if p = 0 then
      match (s2.path 1).cycling with
      | some r => (s2.modPath 1 (fun x => { x with cycling := none })).planRate 1 r
      | none => s2
    else s2
  s3.pathAct p want

/-- A path in RECEIVE when the sample PLL loses lock (Table 3-2). -/
def State.pllLoss (s : State) (p : Nat) : State :=
  if s.pathState p = 2 then
    (((((s.leaveReceive p).fset (fRADIO_PATH_STATUS_pll_loss p) 1).fset (fRADIO_PATH_CTRL_state_req p) 1).modPath p
      (fun x => { x with want := 1 })).logHw 0x0010 p 0 0)
  else s

/-- PLL_LOSS: one sample-clock PLL clocks both paths (R82, R83). -/
def execPllLoss (s : State) : Host.Outcome State Fault Refusal := .next ((s.pllLoss 0).pllLoss 1)

/-- A write of lna_byp: LNA_x_BYP follows; a frame in reception on the path is marked (R85). -/
def State.lnaBypass (s : State) (p v : Nat) : State :=
  if !s.hasPath p then s
  else if s.fget (fRADIO_PATH_CTRL_lna_byp p) = v % 2 then s
  else
    let s1 := (s.fset (fRADIO_PATH_CTRL_lna_byp p) v).modPath p (fun x => { x with lnaByp := bitN v 0 })
    s1.rxOn.foldl (fun t n => if t.rxState n = 4 && (t.rx n).onB == (p == 1) then
      t.modRx n (fun r => { r with gain := true }) else t) s1

/-- LNA_BYPASS_WRITE (R85). -/
def execLnaBypassWrite (p v : Bool) (s : State) : Host.Outcome State Fault Refusal :=
  .next (s.lnaBypass (b2n p) (b2n v))

/-- A write of RADIO_PATH_CTRL: byp_step, then lna_byp, rate and state_req by their rules. -/
def State.pathCtrlWrite (s : State) (p v : Nat) : State :=
  if !s.hasPath p then s
  else
    (((s.fset (fRADIO_PATH_CTRL_byp_step p) (bitsN v 15 8)).lnaBypass p (bitsN v 4 4)).pathRate p
      (bitsN v 3 3)).pathStateReq p (bitsN v 1 0)

/-! ## Tuners (R86, R87) -/

/-- span_err of path p set. -/
def State.spanErr (s : State) (p : Nat) : State := s.fset (fRADIO_PATH_STATUS_span_err p) 1

/-- Firmware has disabled tuner t: a plan that is left does not enable it again (R332, log entry 44). -/
def State.forgetTuner (s : State) (t : Nat) : State :=
  { s with girth := { s.girth with fullTuners := s.girth.fullTuners.filter (fun i => i != t) } }

/-- A write of RADIO_TUNER_CFG of tuner t (R87). -/
def State.tunerWrite (s : State) (t v : Nat) : State :=
  let p := t / 8
  let en := bitN v 31
  let span := bitsN v 24 22
  let centre := bitsN v 21 0
  let put (u : State) : State := (u.fset (fRADIO_TUNER_CFG_span t) span).fset (fRADIO_TUNER_CFG_centre_khz t) centre
  if !s.hasPath p then s
  else if 5 ≤ span then s.spanErr p
  else if s.fon (fRADIO_TUNER_CFG_en t) then
    if en then
      if span = s.fget (fRADIO_TUNER_CFG_span t) && centre = s.fget (fRADIO_TUNER_CFG_centre_khz t) then s
      else s.spanErr p
    else ((put (s.tunerOff t)).forgetTuner t)
  else if !en then (put s).forgetTuner t
  else
    let s1 := put s
    if s1.spanOk p t && decide (s.spanUsed p + 5 * 2 ^ span ≤ 160) then s1.fset (fRADIO_TUNER_CFG_en t) 1
    else s.spanErr p

/-- TUNER_CFG_WRITE (R87). -/
def execTunerCfgWrite (t : BitVec 4) (v : Word) (s : State) : Host.Outcome State Fault Refusal :=
  .next (s.tunerWrite t.toNat v.toNat)

/-- TUNER_SAMPLES_START: 20 µs after its enabling write a tuner delivers samples, a binding moment (R87, R110). -/
def execTunerSamplesStart (t : BitVec 4) (s : State) : Host.Outcome State Fault Refusal :=
  .next (s.iff (s.fon (fRADIO_TUNER_CFG_en t.toNat)) (fun u =>
    ({ u with radio := { u.radio with tunerLive := tabSet false u.radio.tunerLive t.toNat true } } : State).rebindAll))

end Sys2Proof.Machine
end

