-- ==== Sys2Proof/Machine/Chain.lean ====
section
/-!
DEFINITION. The transmit chains (R88–R105), access to the air (R179, R180) and the node check (R338).
-/

namespace Sys2Proof.Machine

/-! ## Completions (R101) -/

/-- The chain is present (R2). -/
def State.hasChain (s : State) (c : Nat) : Bool := c == 0 || Config.hasB s.variant

/-- State of a chain: 0 SLEEP, 1 STANDBY, 2 SYNTH, 3 TRANSMIT. -/
def State.chainState (s : State) (c : Nat) : Nat := s.fget (fRADIO_TX_STATUS_state c)

/-- State of a chain set. -/
def State.setChainState (s : State) (c v : Nat) : State := s.fset (fRADIO_TX_STATUS_state c) v

/-- The synthesiser is locked. -/
def State.locked (s : State) (c : Nat) : Bool := s.fon (fRADIO_TX_STATUS_locked c)

/-- The core a notice of a submitter goes to. -/
def TxWho.core (w : TxWho) : Option Nat :=
  match w with
  | .engine n => some n
  | .sup => some 128
  | _ => none

/-- The counters of RADIO_TX_COUNT and RADIO_LBT_COUNT that a status moves. -/
def State.txCount (s : State) (c status : Nat) : State :=
  match status with
  | 1 => s.fsat (fRADIO_TX_COUNT_clamped c)
  | 2 => s.fsat (fRADIO_TX_COUNT_late_lock c)
  | 4 => s.fsat (fRADIO_LBT_COUNT_cca_fail c)
  | _ => s

/-- A command completes: a TXDONE notice, or the completion port of the relay unit or of the beacon generator (R101). -/
def State.txDone (s : State) (c : Nat) (x : TxCmd) (status : Nat) (first : Option (Nat × Nat)) : State :=
  let s1 := s.txCount c status
  let f := first.getD (0, 0)
  match x.who with
  | .engine n => s1.post n 2 (status * 2 ^ 24 + c * 2 ^ 23 + x.tag) f.1 f.2 x.units
  | .sup => s1.post 128 2 (status * 2 ^ 24 + c * 2 ^ 23 + x.tag) f.1 f.2 x.units
  | .relay _ => { s1 with relay := { s1.relay with done := s1.relay.done ++ [(x, status, first)] } }
  | .beacon => { s1 with cinch := { s1.cinch with beaconDone := s1.cinch.beaconDone ++ [status] } }

/-- Every charge of a command that does not radiate credited back (R182, R327, R338). -/
def State.txCredit (s : State) (x : TxCmd) : State :=
  let s1 := match x.node with
    | .charged n uj day mj => s.acctCredit n uj day mj
    | _ => s
  let s2 := if x.units = 0 then s1 else s1.dutyCredit x.sub x.bin x.tenant x.units x.urgent
  if x.uj = 0 then s2 else s2.girthCredit x.tenant x.uj x.ujFrame

/-- The command without its charges. -/
def TxCmd.uncharged (x : TxCmd) : TxCmd := { x with units := 0, uj := 0, node := .none }

/-- A command ends without radiating. -/
def State.txFail (s : State) (c : Nat) (x : TxCmd) (status : Nat) : State :=
  (s.txCredit x).txDone c x.uncharged status none

/-! ## Submission (R96–R98, R104, R141, R428) -/

/-- A D-space address in region SRAM or system SRAM. -/
def txMem (a : Nat) : Bool :=
  match spaceOf a with
  | .region _ _ => true
  | .sys sp _ => sp == 0
  | .none => false

/-- Bytes of the PSDU that the chain reads (R141, R428): without the check it appends. -/
def psduRead (mode len : Nat) : Nat := if mode = 5 then len else if mode = 6 then len - 2 else len - 4

/-- Field values that Table 3-6, R141 and R428 refuse. -/
def State.txFieldsBad (s : State) (c : Nat) (x : TxCmd) : Bool :=
  decide (144 < x.power) || decide (6 < x.mode) || !modeOnChain c x.mode || x.access == 3 || x.len == 0
    || (if x.mode = 6 then
          !bitN s.fuses.oldTree.toNat 31 || x.urgent || x.code != 0 || decide (x.len < 9) || decide (258 < x.len)
        else
          decide (3 < x.code) || ((x.mode == 3 || x.mode == 5) && x.code != 0)
            || (x.mode != 5 && decide (x.len ≤ 4)) || (x.mode == 3 && decide (127 < x.len)))

/-- Who a command's PSDU read acts for: the tenant of its word 1 (Table 11-3). The relay unit and the beacon generator
carry their PSDU in their own buffers. -/
def TxCmd.reader (x : TxCmd) : Option Nat :=
  match x.who with
  | .engine _ | .sup => some x.tenant
  | _ => none

/-- The PSDU of a command less its check, or none when refused or uncorrectable (Tables 11-3, 14-2). -/
def State.txPsdu (s : State) (x : TxCmd) : Option (List Byte) × State :=
  if x.inl.isEmpty then
    if txMem x.buffer then s.dmaRead x.reader 128 x.buffer (psduRead x.mode x.len) else (none, s)
  else (some x.inl, s)

/-- The PSDU may be read at submission (Table 11-3), and an F1 length agrees with the L of its buffer (R428). -/
def State.txBufferOk (s : State) (x : TxCmd) : Bool × State :=
  if !x.inl.isEmpty then (true, s)
  else if !txMem x.buffer then (false, s)
  else if s.dmaOk x.reader 128 x.buffer (psduRead x.mode x.len) false then
    if x.mode = 6 then
      let b := s.readBytes x.buffer 1 0x7F
      (b.2.1 && leNat b.1 + 3 == x.len, b.2.2)
    else (true, s)
  else (false, s.dmaRefuse x.reader x.buffer false)

/-- The channel lies in the chain's range and in the named sub-band, valid; F1 on its raster and mask (R104, R428). -/
def State.txInBand (s : State) (c : Nat) (x : TxCmd) : Bool :=
  let w := modeWidth x.mode
  inChain c x.freq w && s.inSub x.sub x.freq w
    && (x.mode != 6 || (x.freq % 12500 == 0 && bitN s.fuses.oldTree.toNat x.sub))

/-- The checks of a submission in the order of R98, QUEUE_FULL apart: the status that refuses, if one does. -/
def State.txCheck (s : State) (c : Nat) (x : TxCmd) : Option Nat × State :=
  if s.txFieldsBad c x then (some 0xB, s)
  else
    let b := s.txBufferOk x
    if !b.1 then (some 0xB, b.2)
    else if b.2.fon (fRADIO_TX_STATUS_pa_gain_fault c) then (some 0xE, b.2)
    else if !b.2.txInBand c x then (some 0x6, b.2)
    else if b.2.subCap x.sub * 300000 < airThirds x.mode x.code x.len then (some 0x7, b.2)
    else if x.access = 2 && b.2.subLbt x.sub then (some 0xA, b.2)
    else if (b.2.chain c).off then (some 0xC, b.2)
    else (none, b.2)

/-- The newest command of the lowest priority (R97). -/
def worstOf (xs : List TxCmd) : Option TxCmd :=
  xs.foldl (fun b x => match b with
    | none => some x
    | some y => if x.prio < y.prio || (x.prio == y.prio && decide (y.age < x.age)) then some x else some y) none

/-- A command joins the queue; when that was full, the worst of the 65 completes QUEUE_FULL. The status is that of the
arriving command: none when it is queued. -/
def State.txEnqueue (s : State) (c : Nat) (x : TxCmd) : Option Nat × State :=
  let y := { x with age := s.age }
  let s1 := { s with age := s.age + 1 }
  let q := (s1.chain c).queue
  if q.length < 64 then (none, s1.modChain c (fun h => { h with queue := h.queue ++ [y] }))
  else
    match worstOf (q ++ [y]) with
    | none => (none, s1)
    | some z =>
      if z.age = y.age then (some 0x5, s1.txDone c x 0x5 none)
      else (none, (s1.modChain c (fun h => { h with queue := (h.queue ++ [y]).filter (fun w => w.age != z.age) })).txFail
        c z 0x5)

/-- A submission (R98, R104): refused and completed, or clamped and queued. -/
def State.txSubmit (s : State) (c : Nat) (x : TxCmd) : Option Nat × State :=
  match s.txCheck c x with
  | (some st, s1) => (some st, s1.txDone c x st none)
  | (none, s1) =>
    let cap := s1.subPower x.sub
    s1.txEnqueue c (if cap < x.power then { x with power := cap, clamped := true } else x)

/-- The command of eight descriptor words (Table 3-6). -/
def txCmdOf (who : TxWho) (tenant : Nat) (w : Nat → Nat) : TxCmd :=
  { who := who, freq := w 0, power := bitsN (w 1) 31 24, mode := bitsN (w 1) 23 20, sub := bitsN (w 1) 19 16,
    prio := bitsN (w 1) 15 13, urgent := bitN (w 1) 12, tenant := tenant, access := bitsN (w 1) 7 6, buffer := w 2,
    tag := bitsN (w 3) 31 16, code := bitsN (w 3) 15 12, len := bitsN (w 3) 8 0, startF := w 4,
    startNs := bitsN (w 5) 29 0, lateUs := bitsN (w 6) 23 0 }

/-- Reserved bits that are not 0, or start_ns beyond 999,999,999 (Table 3-6). -/
def txWordsBad (w : Nat → Nat) : Bool :=
  bitsN (w 1) 5 0 != 0 || bitsN (w 3) 11 9 != 0 || bitsN (w 5) 31 30 != 0 || bitsN (w 6) 31 24 != 0 || w 7 != 0
    || decide (999999999 < bitsN (w 5) 29 0)

/-- A descriptor submitted: BAD_CMD for its words, else as a command. -/
def State.txSubmitWords (s : State) (c : Nat) (x : TxCmd) (w : Nat → Nat) : Option Nat × State :=
  if txWordsBad w then (some 0xB, s.txDone c x 0xB none) else s.txSubmit c x

/-- An OUT of a block address to a transmit port: the region services start the fetch, and the OUT, which completes when
the fetch is done, holds the engine (R96). Absent TXH discards it. -/
def State.txPort (s : State) (n c a : Nat) : State :=
  if s.hasChain c then
    ({ s with radio := { s.radio with submits := s.radio.submits ++ [(n, c, a)] } } : State).modEng n (fun e =>
      { e with wait := some (0, 0#32) })
  else s

/-- TX_SUBMIT (R96). -/
def execTxSubmit (e : BitVec 7) (txh : Bool) (a : Word) (s : State) : Host.Outcome State Fault Refusal :=
  .next (s.iff (s.coreRuns e.toNat) (fun t => t.txPort e.toNat (b2n txh) a.toNat))

/-- The fetch of a command block for engine n (R96): BAD_CMD without a fetch for a bad address, BAD_CMD and a refusal
for the fence, else the submission with the engine's tenant. A block that is not read has no tag: its TXDONE notice holds
tag 0 (DESIGN CHOICE, log entry 72). -/
def State.txFetch (s : State) (n c a0 : Nat) : State :=
  let t := s.engTenant n
  let a := aliasAddr n a0
  let blank : TxCmd := { who := .engine n, freq := 0, power := 0, mode := 0, sub := 0, prio := 0, urgent := false,
                         tenant := t, access := 0, code := 0, len := 0, startF := 0, startNs := 0, lateUs := 0 }
  if a0 % 8 ≠ 0 || !txMem a then s.txDone c blank 0xB none
  else if s.dieOff a || s.fenceOk t a 32 false then
    match s.dmaRead (some t) n a 32 with
    | (some bs, s1) => (s1.txSubmitWords c (txCmdOf (.engine n) t (wordAt bs)) (wordAt bs)).2
    | (none, s1) => s1.txDone c blank 0xB none
  else (s.refuseFence t n a false (fenceTarget a)).txDone c blank 0xB none

/-- The OUT of a block address completes. -/
def Engine.outDone (e : Engine) : Engine :=
  match e.wait with
  | some (0, _) => { e with wait := none }
  | _ => e

/-- TX_SUBMIT_FETCH_DONE: the oldest fetch of the engine completes, the command crosses to the radio die as a transaction
once the link has room, and the submission checks run (R40, R96, R98). A block in a granule that is being cleared waits
(R355). -/
def execTxSubmitFetchDone (e : BitVec 7) (s : State) : Host.Outcome State Fault Refusal :=
  .next (match takeFirst (fun x => x.1 == e.toNat) s.radio.submits with
    | none => s
    | some ((n, c, a), rest) =>
      if !s.linkOpen (some (radioLink n)) || s.clearMeets (aliasAddr n a) 32 then s
      else
        let s1 := (s.linkTake (some (radioLink n))).2
        (({ s1 with radio := { s1.radio with submits := rest } } : State).modEng n Engine.outDone).txFetch n c a)

/-- A write of RADIO_TX_SUBMIT word 7 by the supervisor: the submission and its result (R98). -/
def State.supTxSubmit (s : State) (c : Nat) (w7 : Word) : State :=
  if !s.hasChain c then s
  else
    let w (i : Nat) : Nat := if i = 7 then w7.toNat else (s.reg (aRADIO_TX_SUBMIT c i)).toNat
    let x := txCmdOf .sup (bitsN (w 1) 11 8) w
    let r := s.txSubmitWords c x w
    ((r.2.fset (fRADIO_TX_RESULT_tag c) x.tag).fset (fRADIO_TX_RESULT_accepted c) (b2n r.1.isNone)).fset
      (fRADIO_TX_RESULT_status c) (r.1.getD 0)

/-- SUP_TX_SUBMIT (R98), over link 1 (Table 1-5). -/
def execSupTxSubmit (txh : Bool) (w7 : Word) (s : State) : Host.Outcome State Fault Refusal :=
  .next (s.iff (s.linkOpen (some (1, false))) (fun t => t.supTxSubmit (b2n txh) w7))

/-! ## Synthesiser (R88, R90, R93) -/

/-- The LO of a frequency in Hz: the nearest 100 kHz, in kHz; halves go up (log entry 28). -/
def loOf (f : Nat) : Nat := (f + 50000) / 100000 * 100

/-- The temperature of the radio die in °C. -/
def State.radioTemp (s : State) : Nat := s.fget fSYS_THERMAL_tj_r

/-- A valid calibration entry of an LO: within 15 °C (R93). -/
def State.calValid (s : State) (c lo : Nat) : Bool :=
  (s.chain c).cal.any (fun e => e.1 == lo && decide ((signedN 8 e.2 - signedN 8 s.radioTemp).natAbs ≤ 15))

/-- An entry stored or used: the newest in the store of 1,024 (R93). -/
def calPut (cal : List (Nat × Nat)) (lo temp : Nat) : List (Nat × Nat) :=
  let rest := cal.filter (fun e => e.1 != lo)
  (if rest.length < 1024 then rest else rest.drop 1) ++ [(lo, temp)]

/-- An entry marked as used last. -/
def calTouch (cal : List (Nat × Nat)) (lo : Nat) : List (Nat × Nat) :=
  match cal.find? (fun e => e.1 == lo) with
  | some e => cal.filter (fun x => x.1 != lo) ++ [e]
  | none => cal

/-- Entry into SYNTH: the front-end times are taken (RADIO_TX_FE). -/
def State.enterSynth (s : State) (c : Nat) : State :=
  (s.setChainState c 2).modChain c (fun h =>
    { h with ramp := s.fget (fRADIO_TX_FE_ramp_us c), lead := s.fget (fRADIO_TX_FE_lead_us c) })

/-- A hop to an LO: 25 µs from a stored calibration, else a full calibration (Table 3-4). -/
def State.hop (s : State) (c lo : Nat) : State :=
  let valid := s.calValid c lo
  let s1 := (if s.chainState c = 2 then s else s.enterSynth c).fset (fRADIO_TX_STATUS_locked c) 0
  s1.modChain c (fun h => { h with
    lo := lo, calRun := if valid then none else some lo, cal := if valid then calTouch h.cal lo else h.cal })

/-! ## Eligible commands (R95, R97) -/

/-- Nanoseconds from now to the latest start of a command (R188). -/
def State.untilLatest (s : State) (x : TxCmd) : Int := s.untilNs x.startF (x.startNs + x.lateUs * 1000)

/-- Microseconds ahead of the earliest start at which a start sequence begins (R92, R95): hop, CCA or the datapath
start, lead and ramp; a joining carrier needs CCA and ramp alone. -/
def State.startMargin (s : State) (c : Nat) (x : TxCmd) : Nat :=
  let h := s.chain c
  let cca := if x.access = 2 then 12 else max 12 (s.subCca x.sub)
  if h.air.isEmpty then
    let hopUs := if s.chainState c = 2 && s.locked c && loOf x.freq == h.lo then 0
      else if s.calValid c (loOf x.freq) then 25 else 180
    let synth := s.chainState c == 2
    hopUs + cca + (if synth then h.lead else s.fget (fRADIO_TX_FE_lead_us c))
      + (if synth then h.ramp else s.fget (fRADIO_TX_FE_ramp_us c))
  else cca + h.ramp

/-- The command is the reply that a reservation awaits (R426). -/
def State.isReply (s : State) (r : Reserve) (x : TxCmd) : Bool :=
  let at0 := s.untilNs x.startF x.startNs
  x.mode == 6 && x.tenant == r.tenant && x.freq == r.freq
    && decide (s.untilNs r.eF (r.eNs + 19500000) ≤ at0) && decide (at0 ≤ s.untilNs r.eF (r.eNs + 20500000))

/-- Reservations let the command start: it is the reply, or its carrier ends before R_s (R426, log entry 32). -/
def State.reserveLets (s : State) (c : Nat) (x : TxCmd) : Bool :=
  let h := s.chain c
  let first := max (s.untilNs x.startF x.startNs) (1000 * (s.startMargin c x : Int))
  let done := first + thirdsNs (airThirds x.mode x.code x.len) + 1000 * h.ramp
  c == 1 || h.reserves.all (fun r => s.isReply r x || decide (done < s.untilNs r.rsF r.rsNs))

/-- The command is eligible: its start sequence can begin now, its latest start has not passed and no reservation holds
it (R97, R426). -/
def State.eligible (s : State) (c ahead : Nat) (x : TxCmd) : Bool :=
  decide (s.untilNs x.startF x.startNs ≤ 1000 * (s.startMargin c x + ahead)) && decide (0 ≤ s.untilLatest x)
    && s.reserveLets c x

/-! ## SLEEP and settling -/

/-- auto_wake in force: the register, or the plan's SLEEP with auto_wake (R92, R332). -/
def State.autoWake (s : State) (c : Nat) : Bool :=
  !(s.chain c).jtagHold && (s.fon (fRADIO_TX_CTRL_auto_wake c) || (s.chain c).planSleep)

/-- A front end that was set for a carrier which does not come is released, from step 7 of Table 3-5. -/
def ChainSt.release (h : ChainSt) : ChainSt :=
  if h.air.isEmpty && (h.feStep == 2 || h.feStep == 3) then { h with feStep := 6 } else h

/-- The command of a start sequence returns to the queue, its charges credited (Table 3-4); also to a queue of 64, where it
is a 65th (DESIGN CHOICE, log entry 72). -/
def State.unstart (s : State) (c : Nat) : State :=
  match (s.chain c).start with
  | none => s
  | some x =>
    (s.txCredit x.cmd).modChain c (fun h =>
      ({ h with queue := h.queue ++ [x.cmd.uncharged], start := none } : ChainSt).release)

/-- The chain goes to SLEEP; its queue is kept. -/
def State.chainSleep (s : State) (c : Nat) : State :=
  (((s.unstart c).setChainState c 0).fset (fRADIO_TX_STATUS_locked c) 0).modChain c (fun h =>
    { h with sleepDue := false, auto := false, waking := false, calRun := none })

/-- The front end at rest without the release of Table 3-5: a lead that no carrier followed. -/
def State.frontOff (s : State) (c : Nat) : State :=
  (s.modChain c (fun h => { h with feStep := 0, paEn := false, trsw := false, paMode := false, blank := [] })).updateBlank

/-- A chain with nothing on the air settles: to SLEEP when that is due, from SYNTH to STANDBY when no queued command has
its LO and none that is eligible needs a hop to another, and to SLEEP again after auto-wake when no work is left
(Table 3-4, R92). -/
def State.settle (s : State) (c : Nat) : State :=
  let h := s.chain c
  let st := s.chainState c
  if !h.air.isEmpty || h.feStep != 0 || h.start.isSome || st = 0 then s
  else if h.sleepDue || h.off || h.jtagHold then s.chainSleep c
  else
    let s1 := if st = 2 && s.locked c && !h.queue.any (fun x => loOf x.freq == h.lo || s.eligible c 0 x) then
        (s.setChainState c 1).fset (fRADIO_TX_STATUS_locked c) 0
      else s
    if s1.chainState c = 1 && h.auto && h.queue.isEmpty && (h.planSleep || s1.fget (fRADIO_TX_CTRL_state_req c) == 0)
    then s1.chainSleep c
    else s1

/-- A write of state_req: 2 and 3 are ignored (Table 3-4, R92, R105). -/
def State.txStateReq (s : State) (c v : Nat) : State :=
  if 2 ≤ v || !s.hasChain c then s
  else
    let s1 := s.fset (fRADIO_TX_CTRL_state_req c) v
    let h := s1.chain c
    if h.off || h.planSleep || h.jtagHold || s1.fon (fRADIO_TX_STATUS_pa_gain_fault c) then s1
    else if v = 1 then
      let s2 := s1.modChain c (fun k => { k with auto := false, sleepDue := false })
      if s2.chainState c = 0 then s2.modChain c (fun k => { k with waking := true }) else s2
    else
      match s1.chainState c with
      | 0 => s1
      | 1 => s1.chainSleep c
      | _ =>
        if h.air.isEmpty && decide (h.feStep < 4) then (s1.frontOff c).chainSleep c
        else (s1.unstart c).modChain c (fun k => { k with sleepDue := true })

/-- TX_STATE_REQ (R91). -/
def execTxStateReq (txh : Bool) (v : BitVec 2) (s : State) : Host.Outcome State Fault Refusal :=
  .next (s.txStateReq (b2n txh) v.toNat)

/-- TX_STANDBY_REACHED: a chain that was woken rests in STANDBY, from step 12 of the start on (Table 3-4, R53); one that
auto_wake woke for a queue that is empty by now goes back to SLEEP (R92). -/
def execTxStandbyReached (txh : Bool) (s : State) : Host.Outcome State Fault Refusal :=
  let c := b2n txh
  .next (s.iff ((s.chain c).waking && s.pkg.stage == .run) (fun t =>
    let t1 := (t.setChainState c 1).modChain c (fun h => { h with waking := false })
    if (t1.chain c).jtagHold || (t1.fget (fRADIO_TX_CTRL_state_req c) = 0 && !(t1.chain c).auto) then t1.chainSleep c
    else t1.settle c))

/-- TX_AUTO_WAKE: a sleeping chain with auto_wake leaves SLEEP for its head command (R92). -/
def execTxAutoWake (txh : Bool) (s : State) : Host.Outcome State Fault Refusal :=
  let c := b2n txh
  let h := s.chain c
  .next (s.iff (s.pkg.power.awake && s.chainState c == 0 && s.autoWake c && !h.queue.isEmpty && !h.off && !h.waking
      && !s.fon (fRADIO_TX_STATUS_pa_gain_fault c))
    (fun t => t.modChain c (fun k => { k with waking := true, auto := true })))

/-! ## Access to the air (R99, R179, R180) -/

/-- The probe of a command: the lowest receiver in SEARCH or FRAME on the carrier's frequency and width (R179). -/
def State.probeOf (s : State) (x : TxCmd) : Option Nat :=
  s.rxOn.find? (fun n => (s.rxState n == 3 || s.rxState n == 4) && s.fget (fRADIO_RX_FREQ_freq_hz n) == x.freq
    && modeWidthCode x.mode == some (s.fget (fRADIO_RX_CFG_width n)))

/-- A branch that CCA may read. -/
def State.ccaBranch (s : State) (n : Nat) (b : Bool) : Bool := s.fon (fRxBound n b) && !s.fon (fRxBlank n b)

/-- The branch of the probe that CCA reads: B alone for a joining carrier, else A before B (R99, R179). -/
def State.probeBranch (s : State) (n : Nat) (join : Bool) : Option Bool :=
  if !join && s.ccaBranch n false then some false
  else if s.ccaBranch n true then some true else none

/-- A start sequence replaced. -/
def State.setStart (s : State) (c : Nat) (x : Option TxStart) : State := s.modChain c (fun h => { h with start := x })

/-- The command in its start sequence ends without radiating. -/
def State.startFail (s : State) (c : Nat) (x : TxStart) (status : Nat) : State :=
  (((s.setStart c none).modChain c ChainSt.release).txFail c x.cmd status).settle c

/-- A carrier that is cleared for the air now reaches full power past its latest start (R90, R94). -/
def State.startLate (s : State) (c : Nat) (x : TxStart) : Bool :=
  let h := s.chain c
  decide (s.untilLatest x.cmd < 1000 * ((if x.join then 0 else h.lead) + h.ramp))

/-- The next round of access (R180): LATE when the start would pass the latest start, CCA_FAIL without a probe, else a
CCA window; access 2 goes at once, or is late (R94). -/
def State.access (s : State) (c : Nat) (x : TxStart) : State :=
  let h := s.chain c
  if x.cmd.access = 2 then
    if s.startLate c x then s.startFail c x 0x3 else s.setStart c (some { x with phase := .go })
  else if s.untilLatest x.cmd < 1000 * (s.subCca x.cmd.sub + (if x.join then 0 else h.lead) + h.ramp) then
    s.startFail c x 0x3
  else
    match s.probeOf x.cmd with
    | none => (s.fsat (fRADIO_LBT_COUNT_no_probe c)).startFail c x 0x4
    | some n =>
      match s.probeBranch n x.join with
      | none => (s.fsat (fRADIO_LBT_COUNT_no_probe c)).startFail c x 0x4
      | some b => s.setStart c (some { x with phase := .cca, probe := (n, b), hit := s.rxState n == 4 })

/-- TX_SYNTH_LOCK: the synthesiser locks; a calibration's entry is stored; access to the air begins (R93, R94). -/
def execTxSynthLock (txh : Bool) (s : State) : Host.Outcome State Fault Refusal :=
  let c := b2n txh
  .next (s.iff (s.chainState c == 2 && !s.locked c) (fun t =>
    let t1 := (t.fset (fRADIO_TX_STATUS_locked c) 1).modChain c (fun h =>
      match h.calRun with
      | some lo => { h with calRun := none, cal := calPut h.cal lo t.radioTemp }
      | none => h)
    match (t1.chain c).start with
    | some x => if x.phase = .hop then t1.access c x else t1
    | none => t1.settle c))

/-- CCA_WINDOW_END: the window is judged by the RMS level measured at the ball over it (R179, R180). -/
def execCcaWindowEnd (txh : Bool) (rms : BitVec 16) (s : State) : Host.Outcome State Fault Refusal :=
  let c := b2n txh
  .next (match (s.chain c).start with
    | none => s
    | some x =>
      if x.phase ≠ .cca then s
      else
        let lost := !s.ccaBranch x.probe.1 x.probe.2
        let level := signedN 16 (s.branchLevel x.probe.1 x.probe.2 rms)
        if x.hit || lost || decide (-(4 * (s.subThr x.cmd.sub : Int)) ≤ level) then
          let s1 := s.fsat (fRADIO_LBT_COUNT_cca_busy c)
          let y := { x with tries := x.tries + 1 }
          if x.cmd.access = 1 || y.tries = 5 then s1.startFail c y 0x4
          else s1.setStart c (some { y with phase := .backoff, be := min (x.be + 1) 8 })
        else
          if s.startLate c x then s.startFail c x 0x3 else s.setStart c (some { x with phase := .go }))

/-- BACKOFF_EXPIRY: the next CCA attempt begins (R180). -/
def execBackoffExpiry (txh : Bool) (s : State) : Host.Outcome State Fault Refusal :=
  let c := b2n txh
  .next (match (s.chain c).start with
    | some x => if x.phase = .backoff then s.access c x else s
    | none => s)

/-! ## The node check (R337, R338) -/

/-- The node ID that a command is charged to, and whether it may be refused (Table 13-5a): Rein SCHEDULE, UPDATE and
COMMAND frames of engines and the supervisor, F1 replies (R429), and the ACKs of the relay unit. The buffer is read through
its check bits (R350). -/
def State.nodeIdOf (s : State) (x : TxCmd) : Option (Nat × Bool) × State :=
  match x.who with
  | .beacon => (none, s)
  | .relay r => (if r.kind = .ack then some (wordAt x.inl 2, false) else none, s)
  | _ =>
    if x.mode = 5 then (none, s)
    else
      let b := s.readBytes x.buffer (min 12 x.len) 0x7F
      if x.mode = 6 then
        let a := beNat ((b.1.drop 2).take 3)
        ((s.relay.aliases.find? (fun e => e.2.valid && e.2.addr == a)).map (fun e => (e.2.node, true)), b.2.2)
      else
        let ty := leNat (b.1.take 1) % 16
        (if (ty = 3 || ty = 4 || ty = 7) && decide (20 ≤ x.len) then some (wordAt b.1 2, true) else none, b.2.2)

/-- The node record a command is charged to, with whether it may be refused: an ACK charges any node of the table, the
other work only one homed here of the command's tenant (Table 13-5a). -/
def State.nodeOfCmd (s : State) (x : TxCmd) : Option (Nat × Bool) × State :=
  match s.nodeIdOf x with
  | (none, s1) => (none, s1)
  | (some (id, refusable), s1) =>
    let l := s1.nodeLookup id
    (match l.1 with
      | some (_, n) => if !refusable || (n.here && n.tenant == x.tenant) then some (n.record, refusable) else none
      | none => none, l.2)

/-- The command waits for the node check. -/
def State.nodeDue (s : State) (x : TxCmd) : Bool := x.node == .none && (s.nodeOfCmd x).1.isSome

/-- A queued command replaced by its age. -/
def State.modCmd (s : State) (c age : Nat) (f : TxCmd → TxCmd) : State :=
  s.modChain c (fun h => { h with queue := h.queue.map (fun x => if x.age = age then f x else x) })

/-- A queued command taken out. -/
def State.dropCmd (s : State) (c age : Nat) : State :=
  s.modChain c (fun h => { h with queue := h.queue.filter (fun x => x.age != age) })

/-! ## The start sequence (R90, R91, R95, R97, R98) -/

/-- The command goes before another at a start: higher priority, then older (R97). -/
def cmdBefore (x y : TxCmd) : Bool := decide (y.prio < x.prio) || (x.prio == y.prio && decide (x.age < y.age))

/-- The best of some commands. -/
def bestCmd (xs : List TxCmd) : Option TxCmd :=
  xs.foldl (fun b x => match b with
    | none => some x
    | some y => if cmdBefore x y then some x else some y) none

/-- The command may join the carriers on air (R89, R90, R99, R428). -/
def State.mayJoin (s : State) (c : Nat) (x : TxCmd) : Bool :=
  let h := s.chain c
  let half := if c = 0 then 1000000 else 4000000
  let lo := h.lo * 1000
  let w := modeWidth x.mode
  decide (h.air.length < 4) && x.mode != 6 && h.air.all (fun k => k.cmd.mode != 6)
    && decide (2 * (lo - half) + w ≤ 2 * x.freq) && decide (2 * x.freq + w ≤ 2 * (lo + half))
    && powerFits (x.power :: h.air.map (fun k => k.cmd.power))
    && (!s.subLbt x.sub || (match s.probeOf x with
        | some n => s.ccaBranch n true
        | none => true))

/-- The PSDU of a command lies in a granule that is being cleared: its read waits (R355). -/
def State.txReadWaits (s : State) (x : TxCmd) : Bool :=
  x.inl.isEmpty && s.clearMeets x.buffer (psduRead x.mode x.len)

/-- The head may start now. -/
def State.headMayStart (s : State) (c : Nat) (x : TxCmd) : Bool :=
  let h := s.chain c
  !s.nodeDue x && x.node != .asked && !s.txReadWaits x
    && (if h.air.isEmpty then h.feStep == 0 else s.mayJoin c x)

/-- The PSDU with its check appended (R141, R428); a WAKE buffer goes as it is. -/
def framed (mode : Nat) (p : List Byte) : List Byte :=
  match mode with
  | 5 => p
  | 6 => p ++ beBytes 2 (p.foldl (crc16Byte 0x1021 true) 0xFFFF)
  | _ => p ++ leBytes 4 (crc32 p)

/-- Admission of the head and the beginning of its start sequence: Girth, duty, the PSDU read and the hop (R98). -/
def State.begin (s : State) (c : Nat) (x : TxCmd) : State :=
  let h := s.chain c
  let ramp := if s.chainState c = 1 then s.fget (fRADIO_TX_FE_ramp_us c) else h.ramp
  let thirds := airThirds x.mode x.code x.len
  let e := s.txUj c thirds ramp
  let exempt := match x.who with
    | .relay r => r.kind == .ack
    | _ => false
  match (s.dropCmd c x.age).girthAdmit x.tenant e x.urgent exempt with
  | (false, s1) => (s1.txFail c x 0x9).settle c
  | (true, s1) =>
    let x1 := { x with uj := e, ujFrame := s1.cinch.frame }
    let u := dutyUnits x.mode x.code x.len ramp
    match s1.dutyAdmit x.sub x.tenant u x.urgent with
    | (false, s2) => (s2.txFail c x1 0x8).settle c
    | (true, s2) =>
      let x2 := { x1 with units := u, bin := s1.dutyBin }
      match s2.txPsdu x2 with
      | (none, s3) => (s3.txFail c x2 0xB).settle c
      | (some p, s3) =>
        let y : TxStart := { cmd := x2, phase := .hop, join := !h.air.isEmpty,
                             bits := onAir x.mode x.code x.urgent (framed x.mode p) }
        if y.join then s3.access c y
        else if s3.chainState c = 2 && s3.locked c && loOf x.freq == h.lo then s3.access c y
        else (s3.hop c (loOf x.freq)).setStart c (some y)

/-- TX_START_SEQUENCE: the best eligible command of the queue starts, or keeps every other behind it (R97). A chain takes
one start sequence at a time: the next begins once the last has radiated or ended (DESIGN CHOICE, log entry 72). While the
synthesiser settles or calibrates every command is held until lock (R94). -/
def execTxStartSequence (txh : Bool) (s : State) : Host.Outcome State Fault Refusal :=
  let c := b2n txh
  let h := s.chain c
  .next (if s.chainState c = 0 || h.off || h.sleepDue || h.start.isSome || !s.pkg.power.awake
      || (s.chainState c == 2 && !s.locked c) then s
    else
      match bestCmd (h.queue.filter (s.eligible c 0)) with
      | none => s
      | some x => if s.headMayStart c x then s.begin c x else s)

/-- NODE_ACCOUNT_REQUEST: 5 µs before its start sequence is due the agent asks for the account of the head (R338). -/
def execNodeAccountRequest (txh : Bool) (s : State) : Host.Outcome State Fault Refusal :=
  let c := b2n txh
  .next (match bestCmd ((s.chain c).queue.filter (fun x => s.eligible c 5 x && s.nodeDue x)) with
    | none => s
    | some x => s.modCmd c x.age (fun y => { y with node := .asked }))

/-- The node check of a command: refused with GIRTH_DENY, or charged (R337, R338). -/
def State.nodeCheck (s : State) (c : Nat) (x : TxCmd) : State :=
  match s.nodeOfCmd x with
  | (none, s1) => s1.modCmd c x.age (fun y => { y with node := .none })
  | (some (n, refusable), s1) =>
    let r := s1.acctTouch n
    let a := r.1
    let rate := r.2.fget (fGIRTH_NCLASS_rx_uj_ms a.cls)
    let reply := if refusable then r.2.fget (fGIRTH_NCLASS_reply_uj a.cls) else 0
    let e := ujOfTime rate (airThirds x.mode x.code x.len) + reply
    if refusable && a.enforce && decide (a.allowance < a.spent + e) then
      ((((r.2.acctPut n { a with denied := true }).finc fGIRTH_COUNT_node_deny).dropCmd c x.age).txFail c
        { x with node := .none } 0x9).settle c
    else
      let k := r.2.acctCharge n a e
      k.2.modCmd c x.age (fun y => { y with node := .charged n e a.day k.1 })

/-- NODE_ACCOUNT_ANSWER (R338). -/
def execNodeAccountAnswer (txh : Bool) (s : State) : Host.Outcome State Fault Refusal :=
  let c := b2n txh
  .next (match (s.chain c).queue.find? (fun x => x.node == .asked) with
    | none => s
    | some x => s.nodeCheck c x)

/-! ## Front end (R102) -/

/-- Bands blanked for a carrier: its band, or L and M for a carrier in none (R102). -/
def blankBands (x : TxCmd) : List Nat :=
  match bandOf x.freq (modeWidth x.mode) with
  | some b => [b]
  | none => [0, 1]

/-- The output power of a carrier in 0.25 dBm: the power at the ball plus the external PA's gain (R89, R105). -/
def State.outPower (s : State) (c : Nat) (x : TxCmd) : Int :=
  (x.power : Int) - 120 + signedN 8 (if c = 0 then s.fuses.paGainL else s.fuses.paGainH)

/-- A step of Table 3-5 on chain c. A carrier whose first symbol would come past its latest start completes LATE in place
of step 2, or of step 4 when it joins (R90, R94). -/
def State.frontEnd (s : State) (c k : Nat) : State :=
  let h := s.chain c
  let put (f : ChainSt → ChainSt) : State := s.modChain c f
  match k, h.start with
  | 2, some x =>
    if x.phase = .go && !x.join && h.air.isEmpty && h.feStep == 0 then
      if s.startLate c x then s.startFail c x 0x3
      else
        ((put (fun q => { q with
          feStep := 2, trsw := true, paMode := s.fon (fRADIO_TX_CTRL_tx_pa_mode c), blank := blankBands x.cmd
          })).setChainState c 3).updateBlank
    else s
  | 3, _ => if h.feStep = 2 then put (fun q => { q with feStep := 3, paEn := true }) else s
  | 4, some x =>
    if x.phase = .go && x.join && !h.air.isEmpty && s.startLate c x then s.startFail c x 0x3
    else if x.phase = .go && (if x.join then !h.air.isEmpty else h.feStep == 3) then
      (put (fun q => { q with
        feStep := max 4 q.feStep, start := none
        air := q.air ++ [{ cmd := x.cmd, bits := x.bits, symbols := airSymbols x.cmd.mode x.bits
                           power := s.outPower c x.cmd }]
        blank := q.blank ++ (blankBands x.cmd).filter (fun b => !q.blank.contains b) })).updateBlank
    else s
  | 5, _ =>
    match takeFirst (fun k : Carrier => k.first.isNone) h.air with
    | some _ => put (fun q => { q with
        feStep := max 5 q.feStep,
        air := q.air.map (fun k => if k.first.isNone then { k with first := some s.nowInstant } else k) })
    | none => s
  | 7, _ => if h.feStep = 6 then put (fun q => { q with feStep := 7, paEn := false }) else s
  | 8, _ => if h.feStep = 7 then put (fun q => { q with feStep := 8, trsw := false, paMode := false }) else s
  | 9, _ =>
    if h.feStep = 8 then
      let s1 := ((put (fun q => { q with feStep := 0, blank := [] })).enterSynth c).updateBlank
      s1.settle c
    else s
  | _, _ => s

/-- A chain without the carrier of this age: the last one starts the release of Table 3-5, and a command that was about to
join starts as a first carrier (R90); while others stay, the bands of those alone are blanked from its end on (R102, log
entry 72). -/
def ChainSt.dropAir (h : ChainSt) (age : Nat) : ChainSt :=
  let rest := h.air.filter (fun k => k.cmd.age != age)
  if rest.isEmpty then { h with air := [], feStep := 6, start := h.start.map (fun x => { x with join := false }) }
  else { h with air := rest, blank := rest.foldl (fun bs k => bs ++ (blankBands k.cmd).filter (fun b => !bs.contains b)) ([] : List Nat) }

/-- A carrier leaves the air. -/
def State.airDrop (s : State) (c age : Nat) : State := (s.modChain c (fun h => h.dropAir age)).updateBlank

/-- The final symbol of the carrier at place i: it completes OK or OK_CLAMPED (R91, R101, R104). -/
def State.carrierEnd (s : State) (c i : Nat) : State :=
  match (s.chain c).air[i]? with
  | none => s
  | some k =>
    if k.first.isNone then s
    else ((s.airDrop c k.cmd.age).txDone c k.cmd (b2n k.cmd.clamped) k.first)

/-! ## Latest starts and cancels (R92, R94, R100) -/

/-- The status of a queued command whose latest start has passed. With auto_wake, a chain still in SLEEP or on its way to
STANDBY gives LATE: no lock was awaited (DESIGN CHOICE, log entry 72). -/
def State.lateStatus (s : State) (c : Nat) : Nat :=
  if (s.chainState c = 0 && !s.autoWake c) || !s.pkg.power.awake then 0xC
  else if s.chainState c = 2 && !s.locked c then 0x2 else 0x3

/-- A list of queued commands ends without radiating. -/
def State.failAll (s : State) (c status : Nat) (xs : List TxCmd) : State :=
  xs.foldl (fun t x => (t.dropCmd c x.age).txFail c x status) s

/-- TX_LATEST_START_EXPIRY: every queued command whose latest start has passed completes CHAIN_OFF, LATE_LOCK or LATE,
and a command that still waits for lock LATE_LOCK; its calibration goes on (R92, R94). -/
def execTxLatestStartExpiry (txh : Bool) (s : State) : Host.Outcome State Fault Refusal :=
  let c := b2n txh
  let s1 := s.failAll c (s.lateStatus c) ((s.chain c).queue.filter (fun x => decide (s.untilLatest x < 0)))
  .next (match (s1.chain c).start with
    | some x => if x.phase = .hop && decide (s1.untilLatest x.cmd < 0) then s1.startFail c x 0x2 else s1.settle c
    | none => s1.settle c)

/-- A carrier on air cancelled: it ramps down and the airtime and energy it did not use are credited (R100, R182,
R327). -/
def State.cancelAir (s : State) (c : Nat) (k : Carrier) : State :=
  let ramp := (s.chain c).ramp
  let onNs : Nat := match k.first with
    | some f => (-(s.untilNs (f.1 + k.shift) f.2)).toNat
    | none => 0
  let used := (3 * onNs + 2 * ramp * 3000 + 29999) / 30000 * (if k.cmd.mode = 6 then 2 else 1)
  let e := s.txUj c (3 * onNs) ramp
  let s1 := (s.dutyCredit k.cmd.sub k.cmd.bin k.cmd.tenant (k.cmd.units - used) k.cmd.urgent).girthCredit k.cmd.tenant
    (k.cmd.uj - e) k.cmd.ujFrame
  (s1.airDrop c k.cmd.age).txDone c { k.cmd with units := min k.cmd.units used } 0xD k.first

/-- Every command of chain c that satisfies p cancelled: queued, in its start sequence, on air (R100). -/
def State.txCancel (s : State) (c : Nat) (p : TxCmd → Bool) : State :=
  let s1 := s.failAll c 0xD ((s.chain c).queue.filter p)
  let s2 := match (s1.chain c).start with
    | some x => if p x.cmd then s1.startFail c x 0xD else s1
    | none => s1
  (((s2.chain c).air.filter (fun k => p k.cmd)).foldl (fun t k => t.cancelAir c k) s2).settle c

/-- An OUT to the cancel port by engine n (R96). -/
def State.txCancelPort (s : State) (n v : Nat) : State :=
  s.txCancel (bitsN v 16 16) (fun x => x.who == .engine n && x.tag == bitsN v 15 0)

/-- TX_CANCEL (R100): it crosses to the radio die once the link has room (R40). -/
def execTxCancel (e : BitVec 7) (v : Word) (s : State) : Host.Outcome State Fault Refusal :=
  .next (s.iff (s.coreRuns e.toNat && s.linkOpen (some (radioLink e.toNat))) (fun t => t.txCancelPort e.toNat v.toNat))

/-- A write of RADIO_TX_CANCEL (R96, R100). -/
def State.supTxCancel (s : State) (c tag : Nat) : State := s.txCancel c (fun x => x.who == .sup && x.tag == tag)

/-- SUP_TX_CANCEL (R100), over link 1 (Table 1-5). -/
def execSupTxCancel (txh : Bool) (tag : BitVec 16) (s : State) : Host.Outcome State Fault Refusal :=
  .next (s.iff (s.linkOpen (some (1, false))) (fun t => t.supTxCancel (b2n txh) tag.toNat))

/-- Commands of engine n on chain c that have not completed, those being fetched included (Table 3-9). -/
def State.txOpen (s : State) (n c : Nat) : Nat :=
  let h := s.chain c
  let mine (x : TxCmd) : Bool := x.who == .engine n
  (s.radio.submits.filter (fun x => x.1 == n && x.2.1 == c)).length + (h.queue.filter mine).length
    + (match h.start with
      | some x => b2n (mine x.cmd)
      | none => 0) + (h.air.filter (fun k => mine k.cmd)).length

/-! ## Requested calibration (R93) -/

/-- A write of RADIO_TX_CAL: lo_khz; flush in STANDBY and SLEEP; go for a grid point in the chain's range. -/
def State.txCalWrite (s : State) (c v : Nat) : State :=
  if !s.hasChain c then s
  else
    let lo := bitsN v 21 0
    let s1 := s.fset (fRADIO_TX_CAL_lo_khz c) lo
    let s2 := if bitN v 30 && decide (s1.chainState c ≤ 1) then s1.modChain c (fun h => { h with cal := [] }) else s1
    let inRange := if c = 0 then decide (380000 ≤ lo) && decide (lo ≤ 960000)
      else decide (2400000 ≤ lo) && decide (lo ≤ 2483500)
    if bitN v 31 && (s2.chain c).calReq.isNone && lo % 100 == 0 && inRange then
      (s2.modChain c (fun h => { h with calReq := some lo })).fset (fRADIO_TX_CAL_busy c) 1
    else s2

/-- TX_CAL_GO (R93). -/
def execTxCalGo (txh : Bool) (lo : BitVec 22) (s : State) : Host.Outcome State Fault Refusal :=
  .next (s.txCalWrite (b2n txh) (2 ^ 31 + lo.toNat))

/-- TX_CAL_FLUSH (R93); the write carries lo_khz as it stands. -/
def execTxCalFlush (txh : Bool) (s : State) : Host.Outcome State Fault Refusal :=
  .next (s.txCalWrite (b2n txh) (2 ^ 30 + s.fget (fRADIO_TX_CAL_lo_khz (b2n txh))))

/-- TX_CAL_DONE: a requested calibration completes and its entry is stored; it runs only in STANDBY with no start sequence
due within 200 µs (R93). -/
def execTxCalDone (txh : Bool) (s : State) : Host.Outcome State Fault Refusal :=
  let c := b2n txh
  .next (match (s.chain c).calReq with
    | none => s
    | some lo =>
      if s.chainState c = 1 && !(s.chain c).queue.any (s.eligible c 200) then
        (s.modChain c (fun h => { h with calReq := none, cal := calPut h.cal lo s.radioTemp })).fset
          (fRADIO_TX_CAL_busy c) 0
      else s)

end Sys2Proof.Machine
end

