-- ==== Sys2Proof/Machine/Timers.lean ====
section
/-!
DEFINITION. The real-time clock (R380–R387) and the timers (R388–R394).
-/

namespace Sys2Proof.Machine

/-! ## RTC -/

/-- The RTC changed. -/
def State.modRtc (s : State) (f : RtcSt → RtcSt) : State := { s with rtc := f s.rtc }

/-- Ticks by which one crystal tick advances the count, and the correction after it (R381). -/
def RtcSt.advance (r : RtcSt) : Nat × RtcSt :=
  if r.adjLeft = 0 then (1, r) else (if r.adjUp then 2 else 0, { r with adjLeft := r.adjLeft - 1 })

/-- The count n ticks on (R380). -/
def RtcSt.count (r : RtcSt) (n : Nat) : RtcSt :=
  if r.frac + n < 32768 then { r with frac := r.frac + n, byTick := false }
  else { r with frac := r.frac + n - 32768, sec := (r.sec + 1) % 2 ^ 48, byTick := true }

/-- Some core has a slot that runs or is READY (R341). -/
def State.anyBusy (s : State) : Bool := s.engines.any (fun e => e.2.run == .running)

/-- A second has passed: it is added to the residency of the power state (PWR_RESID, R341; log entry 51). -/
def State.residency (s : State) : State :=
  if s.pkg.stage = .run && s.rtc.byTick && s.pkg.power != .deepSleep && s.pkg.power != .off then
    s.fsat (fPWR_RESID_seconds (if s.pkg.power = .sleep then 2 else if s.anyBusy then 0 else 1))
  else s

/-- RTC_TICK: a crystal tick counts, or takes a load (R380–R383); `vbatLow` is the VBAT comparator (R386, log
entry 33). -/
def execRtcTick (vbatLow : Bool) (s : State) : Host.Outcome State Fault Refusal :=
  let s0 := (s.fset fRTC_STATUS_xtal_fail 0).fset fRTC_STATUS_vbat_low (b2n vbatLow)
  let cal := signedN 8 (s.fget fRTC_CTRL_cal)
  let r0 : RtcSt := { s.rtc with ticks := (s.rtc.ticks + 1) % 2 ^ 20 }
  let r1 : RtcSt := if r0.ticks = 0 then { r0 with adjLeft := cal.natAbs, adjUp := decide (0 < cal) } else r0
  let adv := r1.advance
  .next (if s.rtc.loading then
      (s0.modRtc (fun _ => { adv.2 with
        loading := false, byTick := false, frac := s.fget fRTC_LOAD1_frac
        sec := s.fget fRTC_LOAD0_sec_lo + s.fget fRTC_LOAD1_sec_hi * 2 ^ 32 })).fset fRTC_STATUS_valid 1
    else (s0.modRtc (fun _ => adv.2.count adv.1)).residency)

/-- A write of RTC_CTRL (R381, R382). -/
def State.rtcCtrlWrite (s : State) (v : Nat) : State :=
  let s1 := if v % 256 = 128 then s else s.fset fRTC_CTRL_cal v
  if bitN v 31 then s1.modRtc (fun r => { r with loading := true }) else s1

/-- RTC_LOAD (R382). -/
def execRtcLoad (m : Master) (v : Word) (s : State) : Host.Outcome State Fault Refusal :=
  .next (s.regGate m aRTC_CTRL (fun t => t.rtcCtrlWrite (v ||| 0x80000000#32).toNat))

/-- XTAL_FAIL: 4 ms without a tick (R383). -/
def execXtalFail (s : State) : Host.Outcome State Fault Refusal :=
  .next (s.iff (!s.fon fRTC_STATUS_xtal_fail) (fun t => (t.fset fRTC_STATUS_xtal_fail 1).logHw 0x0061 0 0 0))

/-- VBAT_SWITCHOVER: counted at every switch-over; the first one since ts_valid was clear is recorded (R387). -/
def execVbatSwitchover (s : State) : Host.Outcome State Fault Refusal :=
  .next (s.iff (!s.fon fRTC_STATUS_on_vbat) (fun t =>
    let t1 := (t.fset fRTC_STATUS_on_vbat 1).fsat fRTC_VBAT_STAT_count
    if t1.fon fRTC_VBAT_STAT_ts_valid then t1
    else (((t1.fset fRTC_VBAT_TS0_sec_lo t.rtc.sec).fset fRTC_VBAT_TS1_sec_hi (t.rtc.sec / 2 ^ 32)).fset
      fRTC_VBAT_TS1_frac t.rtc.frac).fset fRTC_VBAT_STAT_ts_valid 1))

/-- VDDA_SWITCHBACK (R386). -/
def execVddaSwitchback (s : State) : Host.Outcome State Fault Refusal := .next (s.fset fRTC_STATUS_on_vbat 0)

/-- The number of a master's shadow. -/
def shadowOf (m : Master) : Nat :=
  match m with
  | .core c => coreNum c
  | .dbg => 129

/-- Seconds and fraction that a master reads: its frozen shadow, or the live count (R384, R385). -/
def State.rtcSeen (s : State) (k : Nat) : Nat × Nat := (tabGet none s.rtc.shadows k).getD (s.rtc.sec, s.rtc.frac)

/-- A master's shadow set. -/
def State.setShadow (s : State) (k : Nat) (v : Option (Nat × Nat)) : State :=
  s.modRtc (fun r => { r with shadows := tabSet none r.shadows k v })

/-- The effect of a read of RTC_FRAC or RTC_SEC_LO: the shadow freezes unless it is frozen (R384). -/
def State.rtcFreeze (s : State) (k : Nat) : State := s.setShadow k (some (s.rtcSeen k))

/-- RTC_SHADOW_FREEZE (R384). -/
def execRtcShadowFreeze (m : Master) (s : State) : Host.Outcome State Fault Refusal :=
  .next (s.regGateRead m aRTC_FRAC (fun t => t.rtcFreeze (shadowOf m)))

/-- RTC_SHADOW_RELEASE: a read of RTC_SEC_HI (R385). -/
def execRtcShadowRelease (m : Master) (s : State) : Host.Outcome State Fault Refusal :=
  .next (s.regGateRead m aRTC_SEC_HI (fun t => t.setShadow (shadowOf m) none))

/-- SHADOW_TIMEOUT: 100 µs after it froze a shadow is released (R385). -/
def execShadowTimeout (m : Master) (s : State) : Host.Outcome State Fault Refusal :=
  .next (s.setShadow (shadowOf m) none)

/-! ## Timers -/

/-- Timer n. -/
def State.timer (s : State) (n : Nat) : Timer := tabGet {} s.timers.tab n

/-- Timer n changed. -/
def State.modTimer (s : State) (n : Nat) (f : Timer → Timer) : State :=
  { s with timers := { s.timers with tab := tabSet {} s.timers.tab n (f (s.timer n)) } }

/-- The timer runs. -/
def State.timerOn (s : State) (n : Nat) : Bool := s.fon (fTMR_CFG_en n)

/-- The timer may run: it belongs to the supervisor or to a started tenant (R391). -/
def State.timerFree (s : State) (n : Nat) : Bool := s.fon (fTMR_CFG_sup n) || s.started (s.fget (fTMR_CFG_owner n))

/-- Timers started: those stopped set en (R392). -/
def State.timersStart (s : State) (ns : List Nat) : State :=
  ns.foldl (fun t n =>
    if t.timerOn n || !t.timerFree n then t
    else (t.fset (fTMR_CFG_en n) 1).modTimer n (fun x => { x with stopDue := false, matched := false })) s

/-- Timers of a mask. -/
def maskList (v : Nat) : List Nat := (List.range 16).filter (fun n => bitN v n)

/-- A write of TMR_START (R392). -/
def State.tmrStart (s : State) (v : Nat) : State :=
  if bitN v 31 then { s with timers := { s.timers with armed := maskList v } }
  else ({ s with timers := { s.timers with armed := [] } } : State).timersStart (maskList v)

/-- The next Cinch slot start starts the timers a pending start names (R392). -/
def State.timersAtSlot (s : State) : State :=
  ({ s with timers := { s.timers with armed := [] } } : State).timersStart s.timers.armed

/-- A write of TMR_STOP: en of the named timers clears at their next step (R392). -/
def State.tmrStop (s : State) (v : Nat) : State :=
  (maskList v).foldl (fun t n => if t.timerOn n then t.modTimer n (fun x => { x with stopDue := true }) else t) s

/-- TMR_START (R392). -/
def execTmrStart (m : Master) (v : Word) (s : State) : Host.Outcome State Fault Refusal :=
  .next (s.regGate m aTMR_START (fun t => t.tmrStart v.toNat))

/-- TMR_STOP (R392). -/
def execTmrStop (m : Master) (v : Word) (s : State) : Host.Outcome State Fault Refusal :=
  .next (s.regGate m aTMR_STOP (fun t => t.tmrStop v.toNat))

/-- A write of TMR_CFG of timer n (R388, R391): pre and clear only while it is stopped; a target that is no engine of
the owning tenant is ignored. -/
def State.tmrCfgWrite (s : State) (n v : Nat) : State :=
  let e := bitsN v 18 12
  let okT := s.fon (fTMR_CFG_sup n) || s.clusterTenant (clusterOf e) == some (s.fget (fTMR_CFG_owner n))
  let s1 := ((s.fset (fTMR_CFG_cmp_sync n) (bitsN v 29 29)).fset (fTMR_CFG_notify n) v).iff okT
    (fun t => t.fset (fTMR_CFG_target n) e)
  let s2 := if s.timerOn n then s1
    else (s1.fset (fTMR_CFG_pre n) (bitsN v 23 20)).iff (bitN v 30)
      (fun t => t.modTimer n (fun x => { x with
        count := 0, down := false, turn := if x.count / 2 ^ 32 = 0 then x.turn else (x.turn + 1) % 16 }))
  if bitN v 31 then s2.timersStart [n]
  else (s2.fset (fTMR_CFG_en n) 0).modTimer n (fun x => { x with stopDue := false })

/-- TIMER_CLEAR: a write of TMR_CFG with clear (R388). -/
def execTimerClear (m : Master) (n : BitVec 4) (v : Word) (s : State) : Host.Outcome State Fault Refusal :=
  .next (s.regGate m (aTMR_CFG n.toNat) (fun t => t.tmrCfgWrite n.toNat (v ||| 0x40000000#32).toNat))

/-- A write of RELOAD_HI: the commit (R389). -/
def State.reloadCommit (s : State) (n v : Nat) : State :=
  let x := s.timer n
  let r := x.reloadLo + v % 65536 * 2 ^ 32
  if r = 0 then s
  else if s.timerOn n then s.modTimer n (fun y => { y with reloadNext := some r })
  else s.modTimer n (fun y => { y with reload := r, reloadNext := none })

/-- RELOAD_COMMIT (R389). -/
def execReloadCommit (m : Master) (n : BitVec 4) (v : Word) (s : State) : Host.Outcome State Fault Refusal :=
  .next (s.regGate m (aTMR_RELOAD_HI n.toNat) (fun t => t.reloadCommit n.toNat v.toNat))

/-- A write of CMP_HI: the commit, live or synchronised (R390). -/
def State.cmpCommit (s : State) (n v : Nat) : State :=
  let x := s.timer n
  let c := x.cmpLo + v % 65536 * 2 ^ 32
  if !s.timerOn n then s.modTimer n (fun y => { y with cmp := c, cmpNext := none })
  else if s.fon (fTMR_CFG_cmp_sync n) then s.modTimer n (fun y => { y with cmpNext := some c })
  else
    let behind := if x.down then decide (x.count ≤ c) else decide (c ≤ x.count)
    (s.modTimer n (fun y => { y with cmp := c, cmpNext := none })).iff behind (fun t => t.fset (fTMR_STATUS_behind n) 1)

/-- COMPARE_COMMIT (R390). -/
def execCompareCommit (m : Master) (n : BitVec 4) (v : Word) (s : State) : Host.Outcome State Fault Refusal :=
  .next (s.regGate m (aTMR_CMP_HI n.toNat) (fun t => t.cmpCommit n.toNat v.toNat))

/-- The events of one step of timer n: top, bottom, up match, down match, double (R388, R390). -/
structure StepEv where
  top : Bool
  bottom : Bool
  up : Bool
  down : Bool
  double : Bool
  deriving DecidableEq, Repr

/-- One step of a timer's count (R388–R390). -/
def Timer.step (x : Timer) : StepEv × Timer :=
  let c := if x.down then (x.count + 2 ^ 48 - 1) % 2 ^ 48 else (x.count + 1) % 2 ^ 48
  let top := !x.down && c == x.reload
  let bottom := x.down && c == 0
  let hit := c == x.cmp
  let turn := if c / 2 ^ 32 = x.count / 2 ^ 32 then x.turn else (x.turn + 1) % 16
  let y : Timer := { x with count := c, turn := turn, matched := x.matched || hit }
  let z : Timer := if top || bottom then
      { y with down := top, matched := false, cmp := y.cmpNext.getD y.cmp, cmpNext := none
               reload := if bottom then y.reloadNext.getD y.reload else y.reload
               reloadNext := if bottom then none else y.reloadNext }
    else y
  ({ top := top, bottom := bottom, up := hit && !x.down, down := hit && x.down, double := hit && x.matched }, z)

/-- A TIMER notice of timer n, when its notify bit asks for it (R391). -/
def State.timerNotice (s : State) (n bit : Nat) : State :=
  if bitN (s.fget (fTMR_CFG_notify n)) bit then
    s.post (if s.fon (fTMR_CFG_sup n) then 128 else s.fget (fTMR_CFG_target n)) 10 n 0 0 0
  else s

/-- A step of timer n with its status bits and notices, and a stop that waited for it (R391, R392). The second value
says that the step had an event. -/
def State.timerStep (s : State) (n : Nat) : State × Bool :=
  if !s.timerOn n then (s, false)
  else
    let r := (s.timer n).step
    let e := r.1
    let s1 := s.modTimer n (fun _ => { r.2 with stopDue := false })
    let ev (t : State) (on : Bool) (f : Fld) (bit : Nat) : State := if on then (t.fset f 1).timerNotice n bit else t
    let s2 := ev (ev (ev (ev s1 e.top (fTMR_STATUS_top n) 3) e.bottom (fTMR_STATUS_bottom n) 2) e.up (fTMR_STATUS_up n) 1)
      e.down (fTMR_STATUS_down n) 0
    let s3 := if e.double then s2.fset (fTMR_STATUS_double n) 1 else s2
    (if (s.timer n).stopDue then s3.fset (fTMR_CFG_en n) 0 else s3, e.top || e.bottom || e.up || e.down)

end Sys2Proof.Machine
end

