-- ==== Sys2Proof/Machine/Cinch.lean ====
section
/-!
DEFINITION. Cinch time, its sources and servo, and the slot plans (R186–R200, R204). The boundary, which acts on other
units too, is in Boundary.lean; beacons are in Relay.lean.
-/

namespace Sys2Proof.Machine

/-- The Cinch state changed. -/
def State.modCinch (s : State) (f : CinchSt → CinchSt) : State := { s with cinch := f s.cinch }

/-! ## Time (R187) -/

/-- Advance of Cinch time in one reference cycle, in units of 1/(8·10^9) ns: 25 × (1 − rate × 10^−9) ns. -/
def CinchSt.stride (c : CinchSt) : Nat := (25 * (8000000000 - c.rate)).toNat

/-- ENGINE energy of each tenant, pJ, after n reference cycles more: 10 pJ for each non-idle cycle of an engine, 2.5
cycles of 100 MHz to a reference cycle (R325, R326). -/
def State.busyPj (s : State) (n : Nat) : Tab Nat :=
  s.engines.foldl (fun t e =>
    if decide (e.1 < 128) && e.2.run == .running && !e.2.hold && !e.2.dbgStop then
      tabSet 0 t (s.engTenant e.1) (tabGet 0 t (s.engTenant e.1) + n * 25 * (s.mhz (clusterOf e.1) / 100))
    else t) s.girth.engPj

/-- n reference cycles pass: the monotonic count and the energy of the engines that run. -/
def State.pass (s : State) (n : Nat) : State :=
  { s with mono := s.mono + n, girth := { s.girth with engPj := s.busyPj n } }

/-- One reference cycle. -/
def State.refTick (s : State) : State :=
  (s.modCinch (fun c => if c.started then { c with tu := c.tu + c.stride } else c)).pass 1

/-- Cinch time at ns x of this frame at least: time and the monotonic count move on when it is before that
(log entry 27). What is left over of a reference cycle counts toward the next one (R187). -/
def State.cinchTo (s : State) (x : Nat) : State :=
  let target := x * 8000000000
  if s.cinch.tu < target then
    let d := target - s.cinch.tu + s.cinch.part
    (s.modCinch (fun c => { c with tu := target, part := d % s.cinch.stride })).pass (d / s.cinch.stride)
  else s

/-! ## Alarms and status -/

/-- An alarm bit of CINCH_STATUS set; each also sends a notice to the supervisor. -/
def State.cinchAlarm (s : State) (f : Fld) : State :=
  let s1 := s.fset f 1
  s1.alarm 2 (bitsN (s1.reg aCINCH_STATUS).toNat 31 28) 0

/-- State of Cinch: 0 FREE, 1 TRACK, 2 LOCKED, 3 HOLDOVER. -/
def State.cinchState (s : State) : Nat := s.fget fCINCH_STATUS_state

/-- The state set, with the locked bit. -/
def State.setCinchState (s : State) (v : Nat) : State :=
  (s.fset fCINCH_STATUS_state v).fset fCINCH_STATUS_locked (b2n (v == 2))

/-! ## Sources (R190–R193) -/

/-- Source k. -/
def State.source (s : State) (k : Nat) : SourceSt := tabGet {} s.cinch.sources k

/-- Source k changed; its qualified bit follows. -/
def State.modSource (s : State) (k : Nat) (f : SourceSt → SourceSt) : State :=
  let x := f (s.source k)
  (s.modCinch (fun c => { c with sources := tabSet {} c.sources k x })).fset ⟨aCINCH_STATUS, 15 + k, 1⟩ (b2n x.qualified)

/-- The largest and the smallest of 4 offsets differ by at most 1,000 ns (R191). -/
def agree (xs : List Int) : Bool :=
  match xs.take 4 with
  | [a, b, c, d] =>
    decide (max (max a b) (max c d) - min (min a b) (min c d) ≤ 1000)
  | _ => false

/-- ±500,000,000 ns wrap (R190, R195): a value of 500,000,000 or more has 1,000,000,000 subtracted. -/
def wrapSec (o : Int) : Int := (o + 500000000) % 1000000000 - 500000000

/-- A signed value as an n-bit field, saturated. -/
def satField (n : Nat) (o : Int) : Nat := unsignedN n (clampI (-(2 ^ (n - 1))) (2 ^ (n - 1) - 1) o)

/-- An observation that comes now is the expected one of its 2^period frames (R191): none has come since the last decision
and these frames are over, or one is missing. -/
def SourceSt.expected (x : SourceSt) : Bool := !x.fresh && (decide (x.period ≤ x.since + 1) || x.missing != 0)

/-- A source with an observation of offset o, corrected for the frames since its edge, and the stratum it gives: the servo
takes it as the last one; only expected ones count toward qualifying (R191, R194). -/
def SourceSt.take (x : SourceSt) (o : Int) (stratum : Nat) : SourceSt :=
  let barred := if o.natAbs ≤ 500000000 then x.barred - 1 else if x.barred = 0 then 0 else 16
  let y := { x with last := o, taken := true, barred := barred, stratum := stratum }
  if x.expected then
    let offs := (o :: x.offs).take 4
    { y with offs := offs, fresh := true, missing := 0, since := 0
             qualified := x.qualified || (barred == 0 && agree offs) }
  else y

/-- A source disqualified because an observation lay beyond 500 ms (R193). -/
def SourceSt.beyond (x : SourceSt) (o : Int) : SourceSt :=
  { x with last := o, taken := true, qualified := false, barred := 16, offs := [], fresh := true, missing := 0 }

/-- An observation of source k: at most one of a frame counts (R190); one beyond 500 ms disqualifies the source outside FREE
(R193). -/
def State.observe (s : State) (k : Nat) (o : Int) (stratum : Nat) : State :=
  if (s.source k).taken then s
  else if 500000000 < o.natAbs && s.cinchState != 0 then
    ((s.modSource k (fun x => x.beyond o)).cinchAlarm fCINCH_STATUS_alarm_beyond).logHw 0x0021 k (satField 32 o) 0
  else s.modSource k (fun x => x.take o stratum)

/-- An edge at CINCH_IN taken as a PPS observation (R190). -/
def State.ppsTake (t : State) (x : Nat) : State :=
  let t1 := (t.modCinch (fun c => { c with ppsAt := some t.mono })).finc fPINMUX_CINCH_IN_edges
  t1.observe 1 (wrapSec ((x : Int) - signedN 16 (t.fget fCINCH_PPS_CFG_pps_offset_ns)))
    (min 15 (t.fget fCINCH_PPS_CFG_pps_stratum + 1))

/-- PPS_EDGE: a rising edge at CINCH_IN at ns `x` of the current frame. Less than 500 ms after the last accepted edge
it is extra (R190, R404). -/
def execPpsEdge (x : BitVec 30) (s : State) : Host.Outcome State Fault Refusal :=
  .next (s.iff s.cinch.started (fun t =>
    match t.cinch.ppsAt with
    | some m => if t.mono - m < 20000000 then t.finc fPINMUX_CINCH_IN_extra else t.ppsTake x.toNat
    | none => t.ppsTake x.toNat))

/-- A PTP observation of port p at its second rollover to `sec` (R190). -/
def State.ptpObserve (s : State) (p sec : Nat) : State :=
  if s.cinch.started && s.fon (fCINCH_PTP_CFG_ptp_ok p) then
    let src := (sec + 2 ^ 32 - s.fget fCINCH_EPOCH_epoch) % 2 ^ 32
    let o := signedN 32 (s.cinch.frame + 2 ^ 32 - src) * 1000000000 + (s.nowNs : Int)
    s.observe (2 + p) o (min 15 (s.fget (fCINCH_PTP_CFG_ptp_stratum p) + 1))
  else s

/-- The neighbour entry of a device (R191). -/
def State.airNbr (s : State) (dev : Nat) : Option Nat :=
  (List.range 8).find? (fun i => s.fon (fCINCH_AIR_NBR_valid i) && s.fget (fCINCH_AIR_NBR_device i) == dev)

/-- The adjustments of the frames that have ended since frame f (R194). -/
def State.adjsSince (s : State) (f : Nat) : Int :=
  let n := (s.cinch.frame + 2 ^ 32 - f) % 2 ^ 32
  (s.cinch.adjs.take n).foldl (· + ·) 0

/-- The words of CINCH_AIR_OBS taken as one observation, or refused (R190, R191). -/
def State.airObs (s : State) (w4 : Nat) : State :=
  let w (i : Nat) : Nat := (s.reg (aCINCH_AIR_OBS_w0 + 4 * i)).toNat
  let dev := bitsN w4 31 20
  let age := (s.cinch.frame + 2 ^ 32 - w 0) % 2 ^ 32
  let refuse := s.finc fCINCH_COUNT_obs_refused
  match s.airNbr dev with
  | none => refuse
  | some i =>
    if (2 < age && age < 2 ^ 31) || bitN w4 15 || bitsN w4 19 16 == 15
        || decide (s.fget fCINCH_STATUS_stratum ≤ bitsN w4 19 16) then refuse
    else
      let o := signedN 32 (w 0 + 2 ^ 32 - w 2) * 1000000000
        + ((bitsN (w 1) 29 0 : Int) - (bitsN (w 3) 29 0 : Int) - (s.fget (fCINCH_AIR_NBR_air_delay_ns i) : Int))
      (s.observe 4 (o - (if age < 2 ^ 31 then s.adjsSince (w 0) else 0)) (bitsN w4 19 16 + 1)).modSource 4
        (fun x => { x with period := 2 ^ s.fget (fCINCH_AIR_NBR_period i) })

/-- A write of CINCH_AIR_OBS word 4. -/
def State.airObsWrite (s : State) (v : Nat) : State := if bitN v 0 then s.airObs v else s

/-- AIR_OBS_SUBMIT (R191). -/
def execAirObsSubmit (m : Master) (v : Word) (s : State) : Host.Outcome State Fault Refusal :=
  .next (s.regGate m aCINCH_AIR_OBS_w4 (fun t => t.airObsWrite (v.toNat ||| 1)))

/-! ## The servo (R192–R195) -/

/-- Expected observations that did not come since the last decision (R191); a source whose third is missing is lost. -/
def State.missed (s : State) (k : Nat) : State :=
  let x := s.source k
  if x.fresh then s.modSource k (fun y => { y with fresh := false })
  else if x.since + 1 < x.period then s.modSource k (fun y => { y with since := y.since + 1 })
  else
    let n := x.missing + 1
    let s1 := s.modSource k (fun y => { y with since := 0, missing := n, offs := if y.qualified then y.offs else [] })
    if x.qualified && n == 3 then
      ((s1.modSource k (fun y => { y with qualified := false, offs := [] })).finc fCINCH_COUNT_src_lost).cinchAlarm
        fCINCH_STATUS_src_lost
    else s1

/-- Qualified and enabled sources. -/
def State.sourceOpen (s : State) (k : Nat) : Bool := (s.source k).qualified && bitN (s.fget fCINCH_CTRL_src_en) (k - 1)

/-- Place of a source code in prio; a code that is not listed comes last. -/
def State.prioPlace (s : State) (k : Nat) : Nat :=
  ((List.range 4).find? (fun i => bitsN (s.fget fCINCH_CTRL_prio) (4 * i + 3) (4 * i) == k)).getD 4

/-- The source selected (R192): the running one while it is open, unless another gives a strictly lower stratum; else
the lowest stratum, and among equals the first of prio. -/
def State.selectSource (s : State) : Option Nat :=
  let cur := s.fget fCINCH_STATUS_source
  let better (a b : Nat) : Bool :=
    decide ((s.source a).stratum < (s.source b).stratum)
      || ((s.source a).stratum == (s.source b).stratum && (a == cur || (b != cur && decide (s.prioPlace a < s.prioPlace b))))
  ([1, 2, 3, 4].filter (fun k => s.sourceOpen k)).foldl (fun b k => match b with
    | none => some k
    | some j => if better k j then some k else some j) none

/-- A SET (R195): the adjustment is the wrapped offset, and the source or CINCH_SET_FRAME gives the next frame number. -/
def State.cinchSet (s : State) (k : Nat) (o : Int) : State :=
  let next := (s.cinch.frame + 1) % 2 ^ 32
  let a := wrapSec o
  let num := if k = 1 then (if s.fon fCINCH_CTRL_set_frame_valid then s.fget fCINCH_SET_FRAME_frame else next)
    else unsignedN 32 ((next : Int) - (o - a) / 1000000000)
  let s1 := (s.modCinch (fun c => { c with adj := a, stepDue := true, renumber := if num = next then none else some num })).finc
    fCINCH_COUNT_sets
  if k = 1 then s1.fset fCINCH_CTRL_set_frame_valid 0 else s1

/-- LOCKED and TRACK from the last offsets of the selected source (Table 7-2), counted from when TRACK began with a SET, a new
source or after HOLDOVER (DESIGN CHOICE, log entry 73). -/
def State.lockUpdate (s : State) (o : Int) (step : Bool) : State :=
  let s1 := s.modCinch (fun c => { c with offs := (o :: c.offs).take 8 })
  let xs := s1.cinch.offs
  match s1.cinchState with
  | 1 =>
    if xs.length = 8 && decide ((xs.foldl (· + ·) 0).natAbs ≤ 80) && xs.all (fun x => decide (x.natAbs ≤ 250)) && !step
    then s1.setCinchState 2 else s1
  | 2 =>
    if step || decide (160 < ((xs.take 4).foldl (· + ·) 0).natAbs) then s1.setCinchState 1 else s1
  | _ => s1

/-- The slew limit in ns. -/
def State.slewLimit (s : State) : Int := (s.fget fCINCH_SERVO_slew_limit_us : Int) * 1000

/-- F − last_step ≥ 16, frame numbers compared modulo 2^32; true while there has been no step (R187, R194). -/
def CinchSt.stepOpen (c : CinchSt) : Bool :=
  match c.lastStep with
  | some f => decide (16 ≤ (c.frame + 2 ^ 32 - f) % 2 ^ 32)
  | none => true

/-- The servo on a corrected offset, outside FREE (R194). -/
def State.slew (s : State) (o : Int) : State :=
  let lim := s.slewLimit
  if 2000000 < o.natAbs then
    if s.cinch.stepOpen then
      ((s.modCinch (fun c => { c with adj := o, stepDue := true, lastStep := some c.frame })).finc fCINCH_COUNT_steps).lockUpdate
        o true
    else
      ((s.modCinch (fun c => { c with adj := if 0 < o then lim else -lim })).finc fCINCH_COUNT_step_deferred).lockUpdate o
        false
  else
    (s.modCinch (fun c => { c with adj := clampI (-lim) lim o, held := clampI (-80000) 80000 (c.held + o) })).lockUpdate o
      false

/-- reacquire: FREE, stratum 15, and BEYOND forgiven (R193, R194). -/
def State.toFree (s : State) : State :=
  ([1, 2, 3, 4].foldl (fun t k => t.modSource k (fun x => { x with barred := 0 }))
    ((s.setCinchState 0).fset fCINCH_STATUS_stratum 15)).modCinch (fun c => { c with reacquire := false })

/-- The servo at D (R194). -/
def State.servo (s : State) : State :=
  let s1 := if s.cinch.reacquire then s.toFree else s
  match s1.selectSource with
  | none =>
    let old := s1.fget fCINCH_STATUS_source
    let s2 := (s1.modCinch (fun c => { c with adj := 0, lastSource := if old = 0 then c.lastSource else old })).fset
      fCINCH_STATUS_source 0
    if s2.cinchState = 1 || s2.cinchState = 2 then
      (s2.setCinchState 3).modCinch (fun c => { c with holdFrames := 0, holdOut := false, offs := [] })
    else s2
  | some k =>
    let o := (s1.source k).last
    let old := s1.fget fCINCH_STATUS_source
    let s2 := ((s1.fset fCINCH_STATUS_source k).fset fCINCH_STATUS_stratum (s1.source k).stratum).fset fCINCH_OFFSET_offset
      (satField 32 o)
    let track (t : State) : State := (t.setCinchState 1).modCinch (fun c => { c with offs := [] })
    match s2.cinchState with
    | 0 => track (s2.cinchSet k o)
    | 3 => (track s2).slew o
    | 2 => if old = k || s1.sourceOpen old then s2.slew o else (track s2).slew o
    | _ => s2.slew o

/-- offset_ns of CINCH_OUT (R405). -/
def State.outOffset (s : State) : Int := signedN 16 (s.fget fPINMUX_CINCH_OUT_offset_ns)

/-- The next rise of CINCH_OUT before the boundary: with a negative offset it lies in this frame, whose length D has fixed
(R405). -/
def State.outEarly (s : State) : State :=
  s.iff (s.fon fPINMUX_CINCH_OUT_en && decide (s.outOffset < 0)) (fun t =>
    t.modCinch (fun c => { c with outRise := some (c.frame, ((t.frameLen : Int) + t.outOffset).toNat) }))

/-- CINCH_DECISION: at (F, 400,000,000) the servo decides the adjustment of frame F (R194), and with it an early rise of
CINCH_OUT. -/
def execCinchDecision (s : State) : Host.Outcome State Fault Refusal :=
  .next (s.iff (s.cinch.started && !s.cinch.decided) (fun t =>
    let t1 := [1, 2, 3, 4].foldl (fun u k => u.missed k) (t.cinchTo 400000000)
    (t1.servo.outEarly).modCinch (fun c => { c with decided := true })))

/-- HOLDOVER_KEEP_EXPIRY: holdover_keep frames have passed in HOLDOVER; stratum 15, alarm, log (R193). -/
def execHoldoverKeepExpiry (s : State) : Host.Outcome State Fault Refusal :=
  .next (s.iff (s.cinchState == 3 && !s.cinch.holdOut && decide (s.fget fCINCH_SERVO_holdover_keep ≤ s.cinch.holdFrames))
    (fun t =>
      ((((t.modCinch (fun c => { c with holdOut := true })).fset fCINCH_STATUS_stratum 15).cinchAlarm
        fCINCH_STATUS_alarm_hold).logHw 0x0020 t.cinch.lastSource 0 0)))

/-! ## Registers with an effect -/

/-- A held rate in 1/8 ppb as CINCH_RATE shows it: whole ppb, halves away from zero (R187). -/
def rateShown (r : Int) : Nat := unsignedN 16 (if 0 ≤ r then (r + 4) / 8 else -((-r + 4) / 8))

/-- A write of CINCH_RATE: in FREE or HOLDOVER and within ±10,000 ppb (R187). -/
def State.rateWrite (s : State) (v : Nat) : State :=
  let r := signedN 16 (v % 65536)
  if (s.cinchState = 0 || s.cinchState = 3) && decide (r.natAbs ≤ 10000) then s.modCinch (fun c => { c with held := 8 * r })
  else s

/-- RATE_WRITE (R187). -/
def execRateWrite (m : Master) (v : Word) (s : State) : Host.Outcome State Fault Refusal :=
  .next (s.regGate m aCINCH_RATE (fun t => t.rateWrite v.toNat))

/-- A write of CINCH_CTRL. -/
def State.cinchCtrlWrite (s : State) (v : Nat) : State :=
  let s1 := ((s.fset fCINCH_CTRL_set_frame_valid (bitsN v 30 30)).fset fCINCH_CTRL_src_en (bitsN v 19 16)).fset
    fCINCH_CTRL_prio v
  if bitN v 31 then s1.modCinch (fun c => { c with reacquire := true }) else s1

/-- REACQUIRE: a write of CINCH_CTRL with reacquire set (R193, R194). -/
def execReacquire (m : Master) (v : Word) (s : State) : Host.Outcome State Fault Refusal :=
  .next (s.regGate m aCINCH_CTRL (fun t => t.cinchCtrlWrite (v ||| 0x80000000#32).toNat))

/-- PLAN_SWAP_REQUEST: swap set (R200). -/
def execPlanSwapRequest (m : Master) (s : State) : Host.Outcome State Fault Refusal :=
  .next (s.regGate m aCINCH_PLAN_CTRL (fun t => t.fset fCINCH_PLAN_CTRL_swap 1))

/-- The active plan bank. -/
def State.planBank (s : State) : Nat := s.fget fCINCH_PLAN_CTRL_active

/-- A write of a plan entry: the active bank ignores it (R200); reserved bits stay 0. -/
def State.planWrite (s : State) (b slot v : Nat) : State :=
  if b = s.planBank || 4000 ≤ slot then s else s.setReg (aCINCH_PLAN b slot) (BitVec.ofNat 32 (v % 2 ^ 18))

/-- PLAN_WRITE (R200). -/
def execPlanWrite (m : Master) (bank : Bool) (slot : BitVec 12) (v : Word) (s : State) : Host.Outcome State Fault Refusal :=
  .next (s.regGate m (aCINCH_PLAN (b2n bank) slot.toNat) (fun t => t.planWrite (b2n bank) slot.toNat v.toNat))

/-! ## Slots (R186, R200) -/

/-- The balls of function SLOT_STROBE pulse (R406). -/
def State.strobe (s : State) (on : Bool) : State := { s with wired := { s.wired with strobe := on } }

/-- The plan entry of a slot runs: SLOT notices to started tenants, and the strobe. -/
def State.runSlot (s : State) (slot : Nat) : State :=
  let e := (s.reg (aCINCH_PLAN s.planBank slot)).toNat
  let s1 := (List.range 16).foldl (fun t n =>
    if bitN e n && t.started n then t.post (t.fget (fRELAY_TCFG_target n)) 5 slot t.cinch.frame 0 0 else t) s
  let s2 := s1.modCinch (fun c => { c with slot := slot })
  (if bitN e 16 then s2.strobe true else s2).timersAtSlot

/-- SLOT_START: a slot of this frame starts (slot 0 starts with the boundary) (R186, R200). -/
def execSlotStart (slot : BitVec 12) (s : State) : Host.Outcome State Fault Refusal :=
  let n := slot.toNat
  .next (s.iff (s.cinch.started && decide (s.cinch.slot < n) && decide (n < 4000) && decide (n * 250000 < s.frameLen))
    (fun t => (t.cinchTo (n * 250000)).runSlot n))

/-! ## Extenders (R38, R204) -/

/-- The extender of an island: 0 channel, 1 ETH0, 2 ETH1, 3 radio die service. -/
def State.ext (s : State) (i : Nat) : ExtSt := tabGet {} s.cinch.ext i

/-- An extender as its own clock has counted to now, at the rate of its last time value. -/
def State.extNow (s : State) (i : Nat) : ExtSt :=
  let x := s.ext i
  let stride : Int := 25 * (8000000000 - x.rate)
  { x with tu := x.tu + ((s.mono : Int) - x.cyc) * stride + s.cinch.part - x.part, cyc := s.mono, part := s.cinch.part }

/-- All extenders at the instant at which Cinch starts (R189). -/
def State.extStart (s : State) : State :=
  s.modCinch (fun c => { c with ext := (List.range 4).foldl (fun t i => tabSet {} t i { cyc := s.mono }) [] })

/-- Step 8 of Table 7-3, with the length of the frame that ended, once Cinch has its new number: every extender takes the
number and keeps that length for stamps (R114, R204). -/
def State.extBoundary (s : State) (len : Nat) : State :=
  s.modCinch (fun c => { c with ext := (List.range 4).foldl (fun t i =>
    let x := s.extNow i
    tabSet {} t i { x with frame := c.frame, tu := x.tu - len * 8000000000, rate := c.rate, prevLen := len
                           len := 1000000000 }) c.ext })

/-- How far an extender differs from Cinch time, in 1/1,024 ns, the resolution it counts at; another frame counts with its
nominal length. -/
def State.extDiff (s : State) (x : ExtSt) : Int :=
  (x.tu - s.cinch.tu) / 7812500 + signedN 32 (x.frame + 2 ^ 32 - s.cinch.frame % 2 ^ 32) * 1024000000000

/-- EXTENDER_UPDATE: the time value of this reference cycle is applied in an extender island, whose own clock has moved the
count by `drift` in 1/1,024 ns since the last value. It takes rate and len; a count that differs by more than 8 ns is loaded,
with ext_slip and CINCH_SLIP (R204). A smaller difference stays in the count (DEDUCED, log entry 73). -/
def execExtenderUpdate (island : BitVec 2) (drift : BitVec 32) (s : State) : Host.Outcome State Fault Refusal :=
  let i := island.toNat
  let x0 := s.extNow i
  let x := { x0 with tu := x0.tu + signedN 32 drift.toNat * 7812500 }
  let d := s.extDiff x
  let slip := decide (8 * 1024 < d.natAbs)
  let x1 := if slip then { x with frame := s.cinch.frame, tu := s.cinch.tu } else x
  .next (s.iff s.cinch.started (fun t =>
    let t1 := t.modCinch (fun c => { c with ext := tabSet {} c.ext i { x1 with rate := c.rate, len := s.frameLen } })
    t1.iff slip (fun u => (u.cinchAlarm fCINCH_STATUS_ext_slip).logHw 0x0022 i (satField 32 (d / 1024)) 0)))

/-! ## Compares (R247) -/

/-- The ns of this frame at which the armed compare of slot p of core n fires: now, when its instant has passed. -/
def State.compareAt (s : State) (n p : Nat) : Option Nat :=
  ((s.eng n).slot p).armed.map (fun x => s.nowNs + (s.untilNs x.1 x.2).toNat)

/-- CINCH_COMPARE_FIRE: Cinch time reaches, in this frame, the armed compares of the slots of a core: of those named, the
ones that fall in the same 10 ns as the lowest-numbered; `cancel`: slots with a cancel in the same cycle (R247, R260,
R261). -/
def execCinchCompareFire (c : CoreId) (slots cancel : BitVec 16) (s : State) : Host.Outcome State Fault Refusal :=
  let n := coreNum c
  let named := ((List.range 16).filter (fun p => slots.getLsbD p)).filterMap (fun p => (s.compareAt n p).map (fun x => (p, x)))
  .next (match named with
    | [] => s
    | (_, x0) :: _ =>
      let fires := named.filter (fun y => (y.2 + 9) / 10 == (x0 + 9) / 10)
      let here := fires.foldl (fun a y => max a y.2) 0
      if !s.cinch.started || decide (s.frameLen ≤ here) then s
      else
        ((s.cinchTo here).modEng n (fun e =>
          fires.foldl (fun f y => f.modSlot y.1 (fun sl => { sl with armed := none })) e)).readyAll n (fires.map (·.1))
          .cinch cancel.toNat)

/-! ## Balls (R405) -/

/-- The rise of CINCH_OUT that was set has come. -/
def State.outRisen (s : State) : Bool := s.cinch.outRise.any (fun x => decide (s.untilNs x.1 x.2 ≤ 0))

/-- The level of CINCH_OUT. -/
def State.outLevel (s : State) : Bool := s.cinch.out || s.outRisen

/-- At the boundary a rise that has come counts, and with an offset of 0 or more the next one is set in the frame that
begins (R405). -/
def State.outBoundary (s : State) : State :=
  let up := s.outLevel
  s.iff (s.fon fPINMUX_CINCH_OUT_en) (fun t => t.modCinch (fun c => { c with
    out := up, outRise := if t.outOffset < 0 then none else some (c.frame, t.outOffset.toNat) }))

/-- CINCH_OUT_FALL (R405). -/
def execCinchOutFall (s : State) : Host.Outcome State Fault Refusal :=
  .next (s.modCinch (fun c => { c with out := false, outRise := if s.outRisen then none else c.outRise }))

/-- SLOT_STROBE_END: the 1 µs pulse ends (R406). -/
def execSlotStrobeEnd (s : State) : Host.Outcome State Fault Refusal := .next (s.strobe false)

end Sys2Proof.Machine
end

