-- ==== Sys2Proof/Machine/Decoder.lean ====
section
/-!
DEFINITION. The decoder pool: ingress, codeword contexts and their shares, iterations, completion and the receive rings
(R134–R153, R422), and the arrival of priority changes at the arbiters (R274, R275).
-/

namespace Sys2Proof.Machine

/-! ## Parts -/

/-- The ingress of receiver n. -/
def State.ingress (s : State) (n : Nat) : Ingress := tabGet {} s.decoder.ingress n

/-- The decoder pool changed. -/
def State.modDec (s : State) (f : DecoderSt → DecoderSt) : State := { s with decoder := f s.decoder }

/-- The ingress of receiver n set. -/
def State.setIngress (s : State) (n : Nat) (x : Ingress) : State :=
  s.modDec (fun d => { d with ingress := tabSet {} d.ingress n x })

/-- Codeword context x, numbered 12 × core + place. -/
def State.ctx (s : State) (x : Nat) : CwCtx := tabGet {} s.decoder.ctxs x

/-- A context set. -/
def State.setCtx (s : State) (x : Nat) (c : CwCtx) : State := s.modDec (fun d => { d with ctxs := tabSet {} d.ctxs x c })

/-- Frame number f. -/
def State.frameRec (s : State) (f : Nat) : DecFrame :=
  match s.decoder.frames.find? (fun e => e.1 == f) with
  | some e => e.2
  | none => {}

/-- Frame number f changed. -/
def State.modFrame (s : State) (f : Nat) (g : DecFrame → DecFrame) : State :=
  s.modDec (fun d => { d with frames := d.frames.map (fun e => if e.1 = f then (f, g e.2) else e) })

/-- Contexts of region r that are not FREE and satisfy p. -/
def State.ctxsWith (s : State) (r : Nat) (p : CwCtx → Bool) : List (Nat × CwCtx) :=
  s.decoder.ctxs.filter (fun e => e.1 / 24 == r && e.2.st != .free && p e.2)

/-- Contexts that tenant t holds in region r. -/
def State.ctxInUse (s : State) (r t : Nat) : Nat := (s.ctxsWith r (fun c => c.tenant == t)).length

/-- Urgent contexts that tenant t holds in region r. -/
def State.ctxUrgent (s : State) (r t : Nat) : Nat := (s.ctxsWith r (fun c => c.tenant == t && c.urgent)).length

/-- Contexts of a core that are not FREE. -/
def State.coreBusy (s : State) (core : Nat) : Nat :=
  (s.decoder.ctxs.filter (fun e => e.1 / 12 == core && e.2.st != .free)).length

/-- Contexts of a core that hold urgent codewords. -/
def State.coreUrgent (s : State) (core : Nat) : Nat :=
  (s.decoder.ctxs.filter (fun e => e.1 / 12 == core && e.2.st != .free && e.2.urgent)).length

/-- The urgent reserve of a core. -/
def State.coreRes (s : State) (core : Nat) : Nat := bitsN (s.fget fDECODER_RESERVE_res) (2 * core + 1) (2 * core)

/-- The normal priority of tenant t in region r. -/
def State.tqPrio (s : State) (r t : Nat) : Nat := s.fget (fDECODER_TQ_prio r t)

/-! ## Receive rings (R152, Table 5-11) -/

/-- Size of the ring of tenant t in region r. -/
def State.ringSize (s : State) (r t : Nat) : Nat := 1024 * 2 ^ s.fget (fDECODER_RING_CFG_s r t)

/-- Running byte counts differ modulo 2^24. -/
def countDiff (a b : Nat) : Nat := (a + 2 ^ 24 - b % 2 ^ 24) % 2 ^ 24

/-- Key of the ring byte at a running count. -/
def State.ringKey (s : State) (r t count : Nat) : Nat :=
  (s.reg (aDECODER_RING_BASE r t)).toNat + count % s.ringSize r t

/-- Bytes stored by a unit that writes whole words only (R352): with them go the other bytes of their first and last words
as the unit has stored them. -/
def State.writeWhole (s : State) (k : Nat) (bs : List Byte) : State :=
  if bs.isEmpty then s
  else
    let fin := k + bs.length
    s.writeBytes (k / 8 * 8) (s.bytes (k / 8 * 8) (k % 8) ++ bs ++ s.bytes fin ((8 - fin % 8) % 8))

/-- No receive ring and no inbox lies in a granule that is being cleared: the accesses of the decoder, the relay unit and
the forwarder to one would wait (R355). -/
def State.ringsFree (s : State) : Bool :=
  s.upkeep.clearing.isNone || (List.range 16).all (fun t =>
    !(s.fon (fTABLE_TINBOX_valid t) && s.clearMeets (s.reg (aTABLE_TINBOX_w0 t)).toNat (1024 * 2 ^ s.fget (fTABLE_TINBOX_s t)))
      && (List.range 4).all (fun r =>
        !(s.fon (fDECODER_RING_CFG_valid r t) && s.clearMeets (s.reg (aDECODER_RING_BASE r t)).toNat (s.ringSize r t))))

/-- Bytes written into the ring from a running count on, as whole words (R352); they wrap at its end. -/
def State.ringWrite (s : State) (r t count : Nat) (bs : List Byte) : State :=
  let room := s.ringSize r t - count % s.ringSize r t
  let s1 := s.writeWhole (s.ringKey r t count) (bs.take room)
  if bs.length ≤ room then s1 else s1.writeWhole (s.reg (aDECODER_RING_BASE r t)).toNat (bs.drop room)

/-- Bytes of the ring from a running count on, as the unit that wrote them holds them. -/
def State.ringRead (s : State) (r t count n : Nat) : List Byte :=
  let room := s.ringSize r t - count % s.ringSize r t
  s.bytes (s.ringKey r t count) (min n room) ++ s.bytes (s.reg (aDECODER_RING_BASE r t)).toNat (n - room)

/-- Bytes of an entry: descriptor, PSDU and padding to 8 bytes. -/
def entrySize (len : Nat) : Nat := 32 + (len + 7) / 8 * 8

/-- Word 5 of a descriptor. -/
def descWord5 (status code len iterMax : Nat) (cap urgent : Bool) (reason : Nat) : Nat :=
  status * 2 ^ 28 + code * 2 ^ 25 + len * 2 ^ 16 + iterMax * 2 ^ 8 + b2n cap * 2 ^ 7 + b2n urgent * 2 ^ 6 + reason * 2 ^ 4

/-- The 32 bytes of a descriptor; word 7 is 0 from the decoder. -/
def descBytes (y : SyncRec) (w5 done : Nat) : List Byte :=
  leBytes 4 y.w0.toNat ++ leBytes 4 y.w1.toNat ++ leBytes 4 y.w2.toNat ++ leBytes 4 y.w3.toNat ++ leBytes 4 y.w4.toNat
    ++ leBytes 4 w5 ++ leBytes 4 done ++ leBytes 4 0

/-- The ring has room for an entry of a PSDU of len bytes; a ring that is not valid has none. -/
def State.ringRoom (s : State) (r t len : Nat) : Bool :=
  s.fon (fDECODER_RING_CFG_valid r t) && decide (entrySize len +
    countDiff (s.fget (fDECODER_RING_WR_count r t)) (s.fget (fDECODER_RING_RD_count r t)) ≤ s.ringSize r t)

/-- A write of rd (R152): ignored with rd_err past wr or past the oldest PENDING entry, else taken. Answers whether it
was taken. -/
def State.ringRdWrite (s : State) (r t v : Nat) : Bool × State :=
  let rd := s.fget (fDECODER_RING_RD_count r t)
  let room := countDiff (s.fget (fDECODER_RING_WR_count r t)) rd
  let lim := (s.decoder.frames.filter (fun e => e.2.region == r && e.2.tenant == t)).foldl
    (fun a e => min a (countDiff e.2.start rd)) room
  if countDiff (v % 2 ^ 24) rd ≤ lim then
    (true, (s.fset (fDECODER_RING_RD_count r t) v).fset (fDECODER_TQ_STATUS_rd_err t r) 0)
  else (false, s.fset (fDECODER_TQ_STATUS_rd_err t r) 1)

/-- RING_RD_WRITE: an OUT to region service port 0x800 (R154). -/
def execRingRdWrite (e : BitVec 7) (v : Word) (s : State) : Host.Outcome State Fault Refusal :=
  .next (s.iff (s.coreRuns e.toNat) (fun t =>
    (t.ringRdWrite (regionOf e.toNat) (t.engTenant e.toNat) v.toNat).2))

/-! ## Shares (R146, R147) -/

/-- Guarantees that tenants other than t leave unused in region r. -/
def State.ctxUnused (s : State) (r t : Nat) : Nat :=
  (List.range 16).foldl (fun a u => if u = t then a else a + (s.fget (fDECODER_TQ_guar r u) - s.ctxInUse r u)) 0

/-- The core that gives a context: of those allowed the one with more free contexts, the even one on a tie. -/
def State.pickCore (s : State) (r : Nat) (ok : Nat → Bool) : Option Nat :=
  let a := 2 * r
  let b := 2 * r + 1
  match ok a, ok b with
  | true, true => if 12 - s.coreBusy a < 12 - s.coreBusy b then some b else some a
  | true, false => some a
  | false, true => some b
  | false, false => none

/-- Rule 1 of R146 still serves the tenant's urgent codewords. -/
def State.urgentOpen (s : State) (r t : Nat) : Bool := decide (s.ctxUrgent r t < s.fget (fDECODER_TQ_urg_max r t))

/-- Decoder core c is powered: its region is, and the energy plan keeps it (Table 13-3). -/
def State.coreOn (s : State) (c : Nat) : Bool :=
  s.regionUp (c / 2) &&
    (match s.fget fGIRTH_STATUS_plan with
      | 0 => true
      | 1 => decide (c < 4)
      | _ => c == 0)

/-- The core of region r that grants a context to tenant t (R146); normal grants leave the unused urgent reserve of
each core alone. -/
def State.grantCore (s : State) (r t : Nat) (urgent : Bool) : Option Nat :=
  let free (c : Nat) : Nat := if s.coreOn c then 12 - s.coreBusy c else 0
  let spare (c : Nat) : Nat := if s.coreOn c then s.coreRes c - s.coreUrgent c else 0
  if urgent then s.pickCore r (fun c => decide (0 < free c))
  else
    let mine := s.ctxInUse r t
    if mine < s.fget (fDECODER_TQ_guar r t) ||
        (decide (mine < s.fget (fDECODER_TQ_ceil r t)) && decide (s.ctxUnused r t + spare (2 * r) + spare (2 * r + 1) <
          free (2 * r) + free (2 * r + 1))) then
      s.pickCore r (fun c => decide (spare c < free c))
    else none

/-- A request whose urgent class rule 1 does not serve becomes normal, and is counted (R146). -/
def State.demote (s : State) (h : HeldCw) : HeldCw × State :=
  if h.urgent && !s.urgentOpen h.region h.tenant then
    ({ h with urgent := false, prio := s.tqPrio h.region h.tenant },
     (s.modFrame h.frame (fun f => { f with demoted := true })).finc (fDECODER_FCOUNT_urg_demoted h.tenant h.region))
  else (h, s)

/-- A context granted to a request on a core: FILL, or LOAD when all its soft bits wait in the hold. -/
def State.grantCtx (s : State) (core : Nat) (h : HeldCw) : State :=
  match (List.range 12).find? (fun i => (s.ctx (12 * core + i)).st == .free) with
  | none => s
  | some i =>
    { (s.setCtx (12 * core + i)
        { st := if h.full then .load else .fill, frame := h.frame, cw := h.cw, tenant := h.tenant, urgent := h.urgent
          prio := h.prio, age := s.age, soft := h.soft }) with age := s.age + 1 }

/-- The request goes before another: higher priority, then older. -/
def heldBefore (x y : HeldCw) : Bool := decide (y.prio < x.prio) || (x.prio == y.prio && decide (x.age < y.age))

/-- The waiting requests of region r, those demoted that rule 1 no longer serves. -/
def State.demoteHeld (s : State) (r : Nat) : State :=
  s.decoder.holds.foldl (fun t h =>
    if h.region = r then
      let d := t.demote h
      d.2.modDec (fun q => { q with holds := q.holds.map (fun x => if x.age = h.age then d.1 else x) })
    else t) s

/-- Free contexts of region r go to the waiting requests that the shares allow, best first (R148); at most `fuel`. -/
def State.giveContexts (s : State) (r fuel : Nat) : State :=
  match fuel with
  | 0 => s
  | n + 1 =>
    let s1 := s.demoteHeld r
    match (s1.decoder.holds.filter (fun h => h.region == r && (s1.grantCore r h.tenant h.urgent).isSome)).foldl
        (fun b h => match b with
          | none => some h
          | some y => if heldBefore h y then some h else some y) none with
    | none => s1
    | some h =>
      match s1.grantCore r h.tenant h.urgent with
      | none => s1
      | some core =>
        ((s1.modDec (fun d => { d with holds := d.holds.filter (fun x => x.age != h.age) })).grantCtx core h).giveContexts
          r n

/-- A context freed; waiting requests of its region see it. -/
def State.freeCtx (s : State) (x : Nat) : State :=
  (s.setCtx x {}).giveContexts (x / 24) (s.decoder.holds.length + 1)

/-- R147 holds for region r with these guarantees, ceilings, urgent ceilings and reserves. -/
def r147 (guar ceil urg : Nat → Nat) (res : Nat) : Bool :=
  decide ((List.range 16).foldl (fun a t => a + guar t) 0 + res ≤ 24)
    && (List.range 16).all (fun t => decide (guar t ≤ ceil t) && decide (ceil t + res ≤ 24) && decide (urg t ≤ ceil t))

/-- Reserves of both cores of region r in a DECODER_RESERVE word. -/
def resOf (w r : Nat) : Nat := bitsN w (4 * r + 1) (4 * r) + bitsN w (4 * r + 3) (4 * r + 2)

/-- A write of DECODER_TQ of tenant t in region r: ignored where it would break R147; prio 7 is ignored. The new
priority goes to the decoder arbiter (R274). -/
def State.tqWrite (s : State) (r t v : Nat) : State :=
  let pick (u new old : Nat) : Nat := if u = t then new else old
  if !s.hasRegion r then s
  else if r147 (fun u => pick u (bitsN v 4 0) (s.fget (fDECODER_TQ_guar r u)))
      (fun u => pick u (bitsN v 12 8) (s.fget (fDECODER_TQ_ceil r u)))
      (fun u => pick u (bitsN v 20 16) (s.fget (fDECODER_TQ_urg_max r u))) (resOf (s.fget fDECODER_RESERVE_res) r) then
    let s1 := (((s.fset (fDECODER_TQ_guar r t) v).fset (fDECODER_TQ_ceil r t) (bitsN v 12 8)).fset
      (fDECODER_TQ_urg_max r t) (bitsN v 20 16)).fset (fDECODER_TQ_deliver_bad r t) (bitsN v 31 31)
    if bitsN v 26 24 = 7 then s1
    else { (s1.fset (fDECODER_TQ_prio r t) (bitsN v 26 24)) with
             prioFlight := s1.prioFlight ++ [.decoder r t (bitsN v 26 24)] }
  else s

/-- DECODER_TQ_WRITE (R147, R274); a register of the supervisor. -/
def execDecoderTqWrite (m : Master) (r : BitVec 2) (t : BitVec 4) (v : Word) (s : State) :
    Host.Outcome State Fault Refusal :=
  .next (s.regGate m (aDECODER_TQ r.toNat t.toNat) (fun u => u.tqWrite r.toNat t.toNat v.toNat))

/-- The reserves of a write, pairs of value 3 left as they stand. -/
def resMerge (old new k : Nat) : Nat :=
  match k with
  | 0 => 0
  | c + 1 =>
    resMerge old new c + (if bitsN new (2 * c + 1) (2 * c) = 3 then bitsN old (2 * c + 1) (2 * c)
      else bitsN new (2 * c + 1) (2 * c)) * 4 ^ c

/-- A write of DECODER_RESERVE: ignored whole where it would break R147. -/
def State.reserveWrite (s : State) (v : Nat) : State :=
  let w := resMerge (s.fget fDECODER_RESERVE_res) v 8
  if (List.range 4).all (fun r => r147 (fun u => s.fget (fDECODER_TQ_guar r u)) (fun u => s.fget (fDECODER_TQ_ceil r u))
      (fun u => s.fget (fDECODER_TQ_urg_max r u)) (resOf w r)) then s.fset fDECODER_RESERVE_res w
  else s

/-- DECODER_RESERVE_WRITE (R147). -/
def execDecoderReserveWrite (m : Master) (v : Word) (s : State) : Host.Outcome State Fault Refusal :=
  .next (s.regGate m aDECODER_RESERVE (fun t => t.reserveWrite v.toNat))

/-! ## Completion (R151) -/

/-- The frame's descriptor written and the frame forgotten. -/
def State.settleEntry (s : State) (k : Nat) (f : DecFrame) (status reason : Nat) : State :=
  let urgent := decide (4 ≤ f.code) && !f.demoted
  let s1 := s.ringWrite f.region f.tenant f.start
    (descBytes f.sync (descWord5 status f.code f.len f.iterMax f.cap urgent reason) s.nowNs)
  let s2 := if f.cap then s1.finc (fDECODER_FCOUNT_cw_cap f.tenant f.region) else s1
  s2.modDec (fun d => { d with frames := d.frames.filter (fun e => e.1 != k) })

/-- Whether the check of a PSDU is right: CRC-32, or CRC-16 for F1 (R135, R421). -/
def psduGood (mode : Nat) (p : List Byte) : Bool :=
  if mode = 6 then beNat (p.drop (p.length - 2)) == (p.take (p.length - 2)).foldl (crc16Byte 0x1021 true) 0xFFFF
  else leNat (p.drop (p.length - 4)) == crc32 (p.take (p.length - 4))

/-- The frame is complete: its check decides OK, which goes to the relay unit, or CRC_FAIL, which goes to the ring's
target with deliver_bad and else becomes SKIP. -/
def State.frameDone (s : State) (k : Nat) : State :=
  let f := s.frameRec k
  let p := s.ringRead f.region f.tenant (f.start + 32) f.len
  if psduGood f.mode p then
    let s1 := (s.settleEntry k f 1 0).finc (fDECODER_FCOUNT_ok f.tenant f.region)
    let e : RelayEntry := { region := f.region, tenant := f.tenant, start := f.start, rx := f.rx, mode := f.mode,
                            code := f.code, len := f.len, sync := f.sync }
    { s1 with relay := { s1.relay with queue := s1.relay.queue ++ [e] } }
  else
    let s1 := s.finc (fDECODER_FCOUNT_crc_fail f.tenant f.region)
    if s.fon (fDECODER_TQ_deliver_bad f.region f.tenant) then
      (s1.settleEntry k f 2 0).post (s.fget (fDECODER_RING_CFG_target f.region f.tenant)) 1
        (f.region * 2 ^ 22 + f.rx * 2 ^ 13 + f.len) (s.ringKey f.region f.tenant f.start)
        (s.fget (fDECODER_RING_WR_count f.region f.tenant)) 0
    else s1.settleEntry k f 3 0

/-- Some context holds the frame. -/
def State.frameHeld (s : State) (k : Nat) : Bool := s.decoder.ctxs.any (fun e => e.2.st != .free && e.2.frame == k)

/-- A frame that ended early becomes SKIP once no context holds it; a whole frame completes. -/
def State.frameCheck (s : State) (k : Nat) : State :=
  if !s.decoder.frames.any (fun e => e.1 == k) then s
  else
    let f := s.frameRec k
    match f.ended with
    | some reason => if s.frameHeld k then s else s.settleEntry k f 3 reason
    | none => if f.lastIn && f.stored == codewords f.code f.len then s.frameDone k else s

/-- A frame ends early with a reason: its held codewords are discarded and its contexts released, one that iterates or
stores at its end (R148, Table 5-9). -/
def State.endEarly (s : State) (k reason : Nat) : State :=
  let s1 := (s.modFrame k (fun f => { f with ended := some reason })).modDec
    (fun d => { d with holds := d.holds.filter (fun h => h.frame != k) })
  let drop := (s1.decoder.ctxs.filter (fun e => e.2.frame == k
    && (e.2.st == .fill || e.2.st == .load || e.2.st == .ready))).map (·.1)
  (drop.foldl (fun t x => t.freeCtx x) s1).frameCheck k

/-! ## Ingress (Table 5-8) -/

/-- The oldest report of receiver n, and the others. -/
def takeReport (n : Nat) : List RxReport → Option (RxReport × List RxReport) :=
  takeFirst (fun r => match r with
    | .sync m _ _ _ _ => m == n
    | .ended m _ _ _ => m == n)

/-- The reports left when one was taken. -/
def State.dropReports (s : State) (rest : List RxReport) : State :=
  { s with radio := { s.radio with reports := rest } }

/-- INGRESS_SYNC_RECORD: the oldest report of receiver n is a sync record, over a link that is up, and its ingress is
IDLE (Table 5-8, R39). -/
def execIngressSyncRecord (n : BitVec 9) (s : State) : Host.Outcome State Fault Refusal :=
  .next (match takeReport n.toNat s.radio.reports with
    | some (.sync _ r t h mode, rest) =>
      if (s.ingress n.toNat).st = .idle && s.softOpen h then
        (s.dropReports rest).setIngress n.toNat { st := .header, sync := r, tenant := t, region := h, mode := mode }
      else s
    | _ => s)

/-- What the header bits say: code_id and PSDU length, or none when the header fails (R134, R422). W1 gives the PHR in
[7:0] and F1 its L; the other modes the 24-bit word. -/
def headerOf (mode bits : Nat) : Option (Nat × Nat) :=
  match mode with
  | 3 =>
    let len := bits % 128
    if len < 5 then none else some (0, len)
  | 6 =>
    let l := bits % 256
    if l < 6 then none else some (0, l + 3)
  | _ =>
    match golayDec (bits % 2 ^ 24) with
    | none => none
    | some (i, _) => if i % 512 < 5 then none else some (i / 512, i % 512)

/-- The frame of a receiver ends at the ingress: IDLE, and the receiver searches again (R145). -/
def State.ingressEnd (s : State) (n : Nat) : State := (s.setIngress n {}).rxEnd n

/-- Free values taken for the hard decisions of n soft bits (log entry 74). -/
def State.tied (s : State) (n : Nat) : State := { s with freeCount := s.freeCount + n }

/-- The hard decisions of n soft bits of a mode, with free value i where bit i says nothing (R134, R143). -/
def State.hardSoft (s : State) (mode n : Nat) (soft : List (BitVec 4)) : List Bool :=
  hardBits s.freeCount ((padSoft n (delivered mode soft)).map softVal)

/-- Soft bits in a header: 24 of the Golay word, 8 of a PHR or an L. -/
def headerSoft (mode : Nat) : Nat := if modeCoded mode then 24 else 8

/-- The header word that hard decisions spell: a PHR comes least significant bit first, the others most significant
first (R131, R422). -/
def headerWord (mode : Nat) (bits : List Bool) : Nat := numUp (if mode = 3 then bits else bits.reverse)

/-- INGRESS_HEADER: the soft bits of the header; by their hard decisions the header fails, the ring lacks room, or an entry is
reserved with status PENDING (Table 5-8). -/
def execIngressHeader (n : BitVec 9) (soft : List (BitVec 4)) (s0 : State) : Host.Outcome State Fault Refusal :=
  let i := n.toNat
  let g := s0.ingress i
  let s := s0.tied (headerSoft g.mode)
  .next (if g.st ≠ .header || !s0.softOpen g.region || !s0.ringsFree then s0
    else
      match headerOf g.mode (headerWord g.mode (s0.hardSoft g.mode (headerSoft g.mode) soft)) with
      | none => (s.ingressEnd i).finc (fDECODER_FCOUNT_hdr_fail g.tenant g.region)
      | some (code, len) =>
        if !s.ringRoom g.region g.tenant len then (s.ingressEnd i).finc (fDECODER_FCOUNT_ring_full g.tenant g.region)
        else
          let wr := s.fget (fDECODER_RING_WR_count g.region g.tenant)
          let k := s.decoder.next
          let f : DecFrame := { rx := i, region := g.region, tenant := g.tenant, sync := g.sync, mode := g.mode,
                                code := code, len := len, start := wr }
          let s1 := s.ringWrite g.region g.tenant wr (descBytes g.sync (descWord5 0 code len 0 false false 0) 0)
          let s2 := s1.fset (fDECODER_RING_WR_count g.region g.tenant) (wr + entrySize len)
          (s2.modDec (fun d => { d with frames := d.frames ++ [(k, f)], next := k + 1 })).setIngress i
            { g with st := .body, frame := k })

/-- Codewords of receiver n that wait in its hold. -/
def State.heldOf (s : State) (n : Nat) : Nat :=
  (s.decoder.holds.filter (fun h => (s.frameRec h.frame).rx == n)).length

/-- The sync record with switched and gain_step as the end record has them. -/
def SyncRec.ended (y : SyncRec) (switched gain : Bool) : SyncRec :=
  { y with w0 := y.w0 ||| BitVec.ofNat 32 (b2n switched * 2 ^ 21 + b2n gain * 2 ^ 20) }

/-- CODEWORD_START: the first soft bit of the next codeword asks for a context (R146): granted, held, or the frame ends
DEC_OVERRUN (R148). -/
def execCodewordStart (n : BitVec 9) (s : State) : Host.Outcome State Fault Refusal :=
  let i := n.toNat
  let g := s.ingress i
  let f := s.frameRec g.frame
  .next (if g.st ≠ .body || decide (codewords f.code f.len ≤ f.begun) || !s.softOpen f.region || !s.ringsFree then s
    else
      let urgent := decide (4 ≤ f.code)
      let h0 : HeldCw := { frame := g.frame, cw := f.begun, region := f.region, tenant := f.tenant, urgent := urgent
                           prio := if urgent then 7 else s.tqPrio f.region f.tenant, age := s.age }
      let s0 : State := { (s.modFrame g.frame (fun x => { x with begun := x.begun + 1 })) with age := s.age + 1 }
      let d := s0.demote h0
      match d.2.grantCore f.region f.tenant d.1.urgent with
      | some core => d.2.grantCtx core d.1
      | none =>
        if d.2.heldOf i < 2 then
          (d.2.modDec (fun q => { q with holds := q.holds ++ [d.1] })).finc (fDECODER_TQ_STATUS_held f.tenant f.region)
        else
          let x := s.rx i
          ((((d.2.ingressEnd i).finc (fDECODER_OVR_dec_overrun i)).finc (fDECODER_FCOUNT_overrun f.tenant f.region)).modFrame
            g.frame (fun y => { y with sync := y.sync.ended x.switched x.gain })).endEarly g.frame 1)

/-- CODEWORD_FILLED: the last soft bit of a codeword of receiver n; its load starts, or it waits whole in the hold.
`soft` is all its soft bits in the order they came. -/
def execCodewordFilled (n : BitVec 9) (soft : List (BitVec 4)) (s : State) : Host.Outcome State Fault Refusal :=
  .next (if !s.softOpen (s.frameRec (s.ingress n.toNat).frame).region then s else
    match s.decoder.ctxs.find? (fun e => e.2.st == .fill && (s.frameRec e.2.frame).rx == n.toNat) with
    | some (x, c) => s.setCtx x { c with st := .load, soft := soft }
    | none =>
      match s.decoder.holds.find? (fun h => !h.full && (s.frameRec h.frame).rx == n.toNat) with
      | none => s
      | some h => s.modDec (fun d => { d with holds := d.holds.map (fun y =>
          if y.age = h.age then { y with full := true, soft := soft } else y) }))

/-- The frame of receiver n ends at its end report, which the others follow (Table 5-8). -/
def State.ingressEnded (s : State) (n reason : Nat) (switched gain : Bool) (rest : List RxReport) : State :=
  let g := s.ingress n
  let s1 := s.dropReports rest
  match g.st with
  | .idle => s1
  | .header => s1.setIngress n {}
  | .body => ((s1.setIngress n {}).modFrame g.frame (fun y =>
      { y with sync := y.sync.ended switched gain })).endEarly g.frame reason

/-- The bytes of an uncoded PSDU in its hard decisions, de-whitened (R136, R145, R419). -/
def uncodedPsdu (mode len : Nat) (bits : List Bool) : List Byte :=
  if modeCoded mode then pn9Whiten 0x1FF (packUp len bits) else if mode = 6 then packDown len bits else packUp len bits

/-- INGRESS_LAST_SOFT_BIT: the frame's last soft bit; the end goes to the receiver. `soft` holds the soft bits of an
uncoded PSDU (R145). An end report of the receiver that has come wins (R153). -/
def execIngressLastSoftBit (n : BitVec 9) (soft : List (BitVec 4)) (s : State) : Host.Outcome State Fault Refusal :=
  let i := n.toNat
  let g := s.ingress i
  let f := s.frameRec g.frame
  let x := s.rx i
  .next (if g.st ≠ .body || decide (f.begun < codewords f.code f.len) || !s.softOpen f.region || !s.ringsFree then s
    else
      match takeReport i s.radio.reports with
      | some (.ended _ reason switched gain, rest) => s.ingressEnded i reason switched gain rest
      | _ =>
        let s1 := (s.ingressEnd i).modFrame g.frame (fun y =>
          { y with lastIn := true, sync := y.sync.ended x.switched x.gain })
        let s2 := if codewords f.code f.len = 0 then
            (s1.tied (8 * f.len)).ringWrite f.region f.tenant (f.start + 32)
              (uncodedPsdu f.mode f.len (s.hardSoft f.mode (8 * f.len) soft))
          else s1
        s2.frameCheck g.frame)

/-- INGRESS_END_REPORT: a BRANCH_LOST or DISABLED end report of the receiver (Table 5-8). A report for a frame that the
ingress has ended already says nothing more. -/
def execIngressEndReport (n : BitVec 9) (s : State) : Host.Outcome State Fault Refusal :=
  .next (s.iff s.ringsFree (fun t => match takeReport n.toNat t.radio.reports with
    | some (.ended _ reason switched gain, rest) => t.ingressEnded n.toNat reason switched gain rest
    | _ => t))

/-! ## Contexts and cores (R149, R150, Table 5-9) -/

/-- A free core takes the READY codeword of highest priority, the oldest among equals. -/
def State.coreNext (s : State) (core : Nat) : State :=
  let here := s.decoder.ctxs.filter (fun e => e.1 / 12 == core)
  if here.any (fun e => e.2.st == .iterate) then s
  else
    match (here.filter (fun e => e.2.st == .ready)).foldl (fun b e => match b with
        | none => some e
        | some y => if y.2.prio < e.2.prio || (e.2.prio == y.2.prio && decide (e.2.age < y.2.age)) then some e else some y)
        none with
    | none => s
    | some (x, c) => s.setCtx x { c with st := .iterate }

/-- Bytes that the codeword of a context carries. -/
def State.ctxBytes (s : State) (c : CwCtx) : Nat :=
  let f := s.frameRec c.frame
  cwBytes f.len (codewords f.code f.len) c.cw

/-- The hard decisions of a context's codeword after n iterations. -/
def State.ctxBits (s : State) (c : CwCtx) (n base : Nat) : List Bool :=
  decided (s.frameRec c.frame).code (s.ctxBytes c) n base c.soft

/-- The syndrome of a context's codeword after n iterations is zero (R150). -/
def State.ctxZero (s : State) (c : CwCtx) (n base : Nat) : Bool :=
  syndromeZero (s.frameRec c.frame).code (s.ctxBits c n base)

/-- Bits of the longest codeword: as many free values as a decision may take. -/
def cwLongest : Nat := 2048

/-- CONTEXT_LOAD_DONE: the input syndrome decides STORE or READY (R150). -/
def execContextLoadDone (x : BitVec 7) (s : State) : Host.Outcome State Fault Refusal :=
  let c := s.ctx x.toNat
  let zero := s.ctxZero c 0 s.freeCount
  .next (s.iff (c.st == .load) (fun t =>
    ((t.tied cwLongest).setCtx x.toNat { c with st := if zero then .store else .ready, tie := s.freeCount }).coreNext
      (x.toNat / 12)))

/-- ITERATION_END: an iteration of a core ends with its syndrome zero or not: the context is released, stops early, stops
at the cap of its class, gives way to an urgent codeword, or goes on (R149, R150). -/
def execIterationEnd (core : BitVec 3) (s : State) : Host.Outcome State Fault Refusal :=
  let q := core.toNat
  .next (match s.decoder.ctxs.find? (fun e => e.1 / 12 == q && e.2.st == .iterate) with
    | none => s
    | some (x, c) =>
      let n := c.iters + 1
      let cap := if c.urgent then s.fget fDECODER_CAP_urg_cap else s.fget fDECODER_CAP_norm_cap
      let s1 := (s.tied cwLongest).modFrame c.frame (fun f => { f with iterMax := max f.iterMax n })
      let c1 : CwCtx := { c with iters := n, tie := s.freeCount }
      if (s1.frameRec c.frame).ended.isSome then ((s1.freeCtx x).frameCheck c.frame).coreNext q
      else if s.ctxZero c n s.freeCount then (s1.setCtx x { c1 with st := .store }).coreNext q
      else if cap ≤ n then
        ((s1.modFrame c.frame (fun f => { f with cap := true })).setCtx x { c1 with st := .store }).coreNext q
      else if !c.urgent && s.decoder.ctxs.any (fun e => e.1 / 12 == q && e.2.st == .ready && e.2.urgent) then
        ((s1.setCtx x { c1 with st := .ready }).finc (fDECODER_CORE_STATUS_preempt q)).coreNext q
      else s1.setCtx x c1)

/-- CONTEXT_STORE_DONE: the information bits of the last hard decisions, de-whitened, are in the entry and the context is
free; the frame may be complete (R136, R150, R151). A store of a frame that has ended early stands (R153). -/
def execContextStoreDone (x : BitVec 7) (s : State) : Host.Outcome State Fault Refusal :=
  let c := s.ctx x.toNat
  .next (s.iff (c.st == .store && s.ringsFree) (fun t =>
    let f := t.frameRec c.frame
    let off := cwFirst f.len (codewords f.code f.len) c.cw
    let raw := packUp (t.ctxBytes c) (t.ctxBits c c.iters c.tie)
    let t1 := t.ringWrite f.region f.tenant (f.start + 32 + off) (pn9Whiten (pn9Run (8 * off) 0x1FF).2 raw)
    ((t1.modFrame c.frame (fun y => { y with stored := y.stored + 1 })).freeCtx x.toNat).frameCheck c.frame))

/-! ## Priority changes (R274, R275) -/

/-- A priority change applied to the waiting requests it concerns; requests keep their age. -/
def State.prioApply (s : State) (p : PrioChange) : State :=
  let jobs (f : Job → Option Nat) : State :=
    { s with cipher := { s.cipher with queue := s.cipher.queue.map (fun j =>
        match f j with
        | some v => { j with prio := v }
        | none => j) } }
  let capped (j : Job) (v : Nat) : Nat :=
    match j.tenant with
    | some t => min v (s.fget (fENGCTL_TPRIO_max_prio t))
    | none => v
  let reqs (u : State) (f : LinkReq → Option Nat) : State :=
    { u with pkg := { u.pkg with linkWait := u.pkg.linkWait.map (fun r =>
        match f r with
        | some v => { r with prio := v }
        | none => r) } }
  match p with
  | .slot n q v =>
    reqs (jobs (fun j => if j.who = .core n q then some (capped j v) else none)) (fun r =>
      if r.core ≠ n || r.slot ≠ q then none
      else some (if n = 128 then v else min v (s.fget (fENGCTL_TPRIO_max_prio (s.engTenant n)))))
  | .cap t v =>
    reqs (jobs (fun j =>
      match j.who with
      | .core n q => if j.tenant = some t then some (min ((s.eng n).slot q).prio v) else none
      | .relay | .unit _ => none)) (fun r =>
      if r.core ≠ 128 && s.engTenant r.core = t then some (min ((s.eng r.core).slot r.slot).prio v) else none)
  | .decoder r t v => s.modDec (fun d => { d with holds := d.holds.map (fun h =>
      if h.region = r && h.tenant = t && !h.urgent then { h with prio := v } else h) })

/-- PRIORITY_CHANGE_ARRIVAL: the oldest change on its way reaches the arbiters (R274). -/
def execPriorityChangeArrival (s : State) : Host.Outcome State Fault Refusal :=
  .next (match s.prioFlight with
    | [] => s
    | p :: rest => ({ s with prioFlight := rest } : State).prioApply p)

end Sys2Proof.Machine
end

