-- ==== Sys2Proof/Machine/Relay.lean ====
section
/-!
DEFINITION. The relay unit: Rein frames and their security, the seen cache, verdicts, ACKs, relays, Form-1 entries,
reply reservations and aliases (R155–R178, R423–R430), the latency of urgent relays (R438), and beacons (R201, R202).
-/

namespace Sys2Proof.Machine

/-! ## Rein frames (R155–R161) -/

/-- The header fields of a frame. -/
structure Frame where
  fc : Nat
  seq : Nat
  src : Nat
  dst : Nat
  ctr : Nat
  len : Nat
  deriving DecidableEq, Repr

/-- The header of a PSDU of len bytes. -/
def frameOf (p : List Byte) (len : Nat) : Frame :=
  { fc := leNat (p.take 2), seq := leNat ((p.drop 2).take 2), src := leNat ((p.drop 4).take 4)
    dst := leNat ((p.drop 8).take 4), ctr := leNat ((p.drop 12).take 4), len := len }

/-- FC type. -/
def Frame.type (f : Frame) : Nat := bitsN f.fc 3 0
/-- FC ack_req. -/
def Frame.ackReq (f : Frame) : Bool := bitN f.fc 4
/-- FC flood. -/
def Frame.flood (f : Frame) : Bool := bitN f.fc 5
/-- FC urgent. -/
def Frame.urgent (f : Frame) : Bool := bitN f.fc 6
/-- FC secured. -/
def Frame.secured (f : Frame) : Bool := bitN f.fc 7
/-- FC ttl. -/
def Frame.ttl (f : Frame) : Nat := bitsN f.fc 11 8
/-- FC tenant. -/
def Frame.tenant (f : Frame) : Nat := bitsN f.fc 15 12

/-- SRC may send a frame (R157): a node or a device. -/
def srcOk (a : Nat) : Bool := isNodeId a || (decide (0xFFFE0000 ≤ a) && decide (a ≤ 0xFFFE0FFF))

/-- The frame is malformed (R159). -/
def Frame.malformed (f : Frame) : Bool :=
  decide (f.len < 20) || (f.secured && decide (f.len < 28)) || decide (8 ≤ f.type) || !srcOk f.src

/-- The nonce of a frame (Table 6-5). -/
def Frame.nonce (f : Frame) : List Byte :=
  beBytes 4 f.src ++ beBytes 4 f.ctr ++ beBytes 4 f.dst ++ [BitVec.ofNat 8 (f.type * 16 + f.tenant)]

/-- The 16 header bytes. -/
def Frame.header (f : Frame) : List Byte :=
  leBytes 2 f.fc ++ leBytes 2 f.seq ++ leBytes 4 f.src ++ leBytes 4 f.dst ++ leBytes 4 f.ctr

/-- The associated data: the header with ttl and flood as 0 (R160). -/
def Frame.aad (f : Frame) : List Byte := ({ f with fc := Nat.land f.fc 0xF0DF } : Frame).header

/-- A frame of a hardware master sealed by the cipher: CCM_ENC under a slot's or a record's key (R160, R288). Command x
sends it on chain c once the job ends. -/
def State.sealFrame (s : State) (byRec : Bool) (key prio : Nat) (f : Frame) (payload : List Byte) (c : Nat) (x : TxCmd) :
    State :=
  s.enqueueUnit { who := .unit (.seal c f.header x), tenant := none, op := 4, tlen := 4, byRec := byRec, key := key
                  aadLen := 16, dataLen := payload.length, prio := prio, inl := (f.nonce, f.aad, payload) }

/-- The air address of this device. -/
def State.airAddr (s : State) : Nat := 0xFFFE0000 + s.device

/-! ## Seen cache (R169) -/

/-- The set of a frame. -/
def seenSet (src ctr : Nat) : Nat := crc32 (leBytes 4 src ++ leBytes 4 ctr) % 16384

/-- Address of the 16 bytes of way w of a set of the seen cache, for the key 4 × set + w; their layout is not stated (log
entry 36). -/
def seenAddr (k : Nat) : Nat := 0x04400000 + 16 * k

/-- Entry at a key: 4 × set + way. An uncorrectable word makes the way invalid (Table 14-2). -/
def State.seen (s : State) (k : Nat) : SeenEntry :=
  if (s.word64 (seenAddr k)).2 = .bad || (s.word64 (seenAddr k + 8)).2 = .bad then {} else tabGet {} s.relay.seen k

/-- A lookup reads the four ways of a frame's set through their check bits: what it corrects or reports (R350, R351). -/
def State.seenCheck (s : State) (src ctr : Nat) : State := (s.readWords (seenAddr (4 * seenSet src ctr)) 8 0x7F).2.2

/-- The relay unit changed. -/
def State.modRelay (s : State) (f : RelaySt → RelaySt) : State := { s with relay := f s.relay }

/-- An entry set: both its words are written whole (R352). -/
def State.setSeen (s : State) (k : Nat) (e : SeenEntry) : State :=
  ((s.setFlip (seenAddr k) 0#72).setFlip (seenAddr k + 8) 0#72).modRelay (fun r => { r with seen := tabSet {} r.seen k e })

/-- An entry lives (R169). -/
def State.seenLive (s : State) (e : SeenEntry) : Bool :=
  e.valid && decide ((s.cinch.frame + 2 ^ 32 - e.frame) % 2 ^ 32 < s.fget fRELAY_CTRL_life)

/-- seen_lookup: the key of the entry hit. -/
def State.seenLookup (s : State) (src ctr : Nat) : Option Nat :=
  ((List.range 4).map (fun w => 4 * seenSet src ctr + w)).find? (fun k =>
    let e := s.seen k
    s.seenLive e && e.src == src && e.ctr == ctr)

/-- seen_insert: the key of the new entry. -/
def State.seenInsert (s : State) (src ctr tenant : Nat) (verified : Bool) : Nat × State :=
  let ks := (List.range 4).map (fun w => 4 * seenSet src ctr + w)
  let age (k : Nat) : Nat := (s.cinch.frame + 2 ^ 32 - (s.seen k).frame) % 2 ^ 32
  let free := ks.find? (fun k => !s.seenLive (s.seen k))
  let k := free.getD (ks.foldl (fun b k => if age b < age k then k else b) (4 * seenSet src ctr))
  let s1 := if free.isNone then s.finc fRELAY_SEEN_EVICT_evict else s
  let e : SeenEntry := { valid := true, id := s.relay.nextId, src := src, ctr := ctr, frame := s.cinch.frame
                         tenant := tenant, verified := verified }
  (k, (s1.setSeen k e).modRelay (fun r => { r with nextId := r.nextId + 1 }))

/-- Unexpired entries (RELAY_SEEN_OCC). -/
def State.seenCount (s : State) : Nat := (s.relay.seen.filter (fun e => s.seenLive (s.seen e.1))).length

/-- Every entry expires at a renumbering; the number that lived until then is added to evict (R199). -/
def State.seenExpire (s : State) (live : Nat) : State :=
  (s.fadd fRELAY_SEEN_EVICT_evict live).modRelay (fun r => { r with seen := [] })

/-- The entry that a relay serves, if it still stands. -/
def State.seenById (s : State) (id : Nat) : Option (Nat × SeenEntry) :=
  s.relay.seen.find? (fun e => (s.seen e.1).valid && e.2.id == id)

/-! ## Entries in the ring (Tables 5-11, 6-7) -/

/-- What the unit knows of a frame at finish. -/
structure Verdict where
  code : Nat
  tenant : Nat
  relay : Bool := false
  ack : Bool := false
  verified : Bool := false
  set : Nat := 0
  deriving DecidableEq, Repr

/-- The counter of a verdict for tenant t. -/
def State.countVerdict (s : State) (t code : Nat) : State :=
  match code with
  | 1 => s.finc (fRELAY_TCOUNT_delivered t)
  | 2 => s.finc (fRELAY_TCOUNT_dup t)
  | 3 => s.finc (fRELAY_TCOUNT_mic_fail t)
  | 4 => s.finc (fRELAY_TCOUNT_foreign t)
  | 5 => s.finc (fRELAY_TCOUNT_unknown t)
  | 7 => s.finc (fRELAY_TCOUNT_replay t)
  | _ => s.finc (fRELAY_TCOUNT_plain t)

/-- PSDU bytes of an entry from an offset on zeroed. -/
def State.zeroFrom (s : State) (e : RelayEntry) (off : Nat) : State :=
  s.ringWrite e.region e.tenant (e.start + 32 + off) (takePad (e.len - off) [])

/-- The entry stays OK: DELIVERED, or FOREIGN on a receiver of tenant 0. -/
def RelayEntry.keeps (e : RelayEntry) (code : Nat) : Bool := code == 1 || (code == 4 && e.tenant == 0)

/-- The PSDU of an entry through its check bits, and whether every word was usable (Table 14-2). -/
def State.entryPsdu (s : State) (e : RelayEntry) : List Byte × Bool × State :=
  let c := e.start + 32
  let room := s.ringSize e.region e.tenant - c % s.ringSize e.region e.tenant
  let a := s.readBytes (s.ringKey e.region e.tenant c) (min e.len room) 0x7F
  if e.len ≤ room then a
  else
    let b := a.2.2.readBytes (s.reg (aDECODER_RING_BASE e.region e.tenant)).toNat (e.len - room) 0x7F
    (a.1 ++ b.1, a.2.1 && b.2.1, b.2.2)

/-- finish: word 7, status SKIP, what is zeroed, and the count (R164, R165). `plain` says that the frame is unsecured. -/
def State.finish (s : State) (e : RelayEntry) (v : Verdict) (plain : Bool) : State :=
  let w7 := v.code * 2 ^ 28 + b2n v.relay * 2 ^ 27 + b2n v.ack * 2 ^ 26 + b2n v.verified * 2 ^ 25 + v.set
  let s1 := s.ringWrite e.region e.tenant (e.start + 28) (leBytes 4 w7)
  let s2 := if e.keeps v.code then s1
    else
      let w5 := leNat (s1.ringRead e.region e.tenant (e.start + 20) 4)
      s1.ringWrite e.region e.tenant (e.start + 20) (leBytes 4 (w5 % 2 ^ 28 + 3 * 2 ^ 28))
  let s3 := if v.code = 8 || (plain && v.tenant != e.tenant && !(v.code == 4 && e.tenant == 0)) then s2.zeroFrom e 16 else s2
  s3.countVerdict (if s.started v.tenant then v.tenant else e.tenant) v.code

/-- The FRAME notice of an entry to the target of tenant t (Table 10-5). -/
def State.frameNotice (s : State) (e : RelayEntry) (t code : Nat) : State :=
  s.post (s.fget (fRELAY_TCFG_target t)) 1 (code * 2 ^ 24 + e.region * 2 ^ 22 + e.rx * 2 ^ 13 + e.len)
    (s.ringKey e.region e.tenant e.start) (s.fget (fDECODER_RING_WR_count e.region e.tenant)) 0

/-! ## Transmissions of the relay unit -/

/-- The chain whose range holds a channel, if it is present. -/
def State.chainFor (s : State) (f w : Nat) : Option Nat :=
  if inChain 0 f w then some 0 else if inChain 1 f w && s.hasChain 1 then some 1 else none

/-- The frame's end at the aerial: the stamp plus what follows the stamp point (R173). -/
def RelayEntry.endAt (e : RelayEntry) : Nat × Nat :=
  (e.sync.w1.toNat, e.sync.w2.toNat
    + thirdsNs ((headBits e.mode - syncBits e.mode + psduBits e.mode e.code e.len) * bitThirds e.mode))

/-- Path of the branch that heard the frame. -/
def RelayEntry.path (e : RelayEntry) : Nat := bitsN e.sync.w0.toNat 22 22

/-- A command of the relay unit on the channel of an entry. -/
def State.relayCmd (s : State) (e : RelayEntry) (r : RelayTx) (sub : Nat) (psdu : List Byte) (urgent : Bool) : TxCmd :=
  { who := .relay { r with endF := e.endAt.1, endNs := e.endAt.2, era := e.sync.era
                           limit := 360000 + s.fget (fRADIO_PATH_FE_fe_delay_ns e.path) }
    freq := s.fget (fRADIO_RX_FREQ_freq_hz e.rx), power := 0, mode := e.mode, sub := sub, prio := 0, urgent := urgent
    tenant := 0, access := 0, code := e.code % 4, len := psdu.length + 4, startF := 0, startNs := 0, lateUs := 0
    inl := psdu }

/-- access 1, or 2 when the sub-band does not require LBT. -/
def State.fastAccess (s : State) (sub : Nat) : Nat := if s.subLbt sub then 1 else 2

/-- RSSI of the chosen branch less the mode's sensitivity in whole dB, floored and clamped to 0–255 (R173). -/
def RelayEntry.margin (e : RelayEntry) : Nat :=
  let w := e.sync.w3.toNat
  let rssi := signedN 16 (if e.path = 0 then bitsN w 31 16 else bitsN w 15 0)
  let sens : Int := match e.mode with
    | 0 => -128
    | 1 => -121
    | 2 => -112
    | 3 => -101
    | 4 => -98
    | _ => -116
  (clampI 0 255 ((rssi - 4 * sens) / 4)).toNat

/-- An ACK or re-ACK for a frame (R173, R174, R198): its sealing under the node key of record `recd` begins, or it counts in
ack_lost. The flag says that it began. -/
def State.sendAck (s : State) (e : RelayEntry) (f : Frame) (recd : Option Nat) (pend margin : Nat) : Bool × State :=
  let t := f.tenant
  let freq := s.fget (fRADIO_RX_FREQ_freq_hz e.rx)
  let w := modeWidth e.mode
  match recd, s.chainFor freq w, s.subOf freq w with
  | some n, some c, some sub =>
    if e.sync.era ≠ s.cinch.era then (false, s.finc (fRELAY_TCOUNT_ack_lost t))
    else
      let a : Frame := { fc := 1 + 2 ^ 7 + b2n f.urgent * 2 ^ 6 + t * 2 ^ 12, seq := f.seq, src := s.airAddr, dst := f.src
                         ctr := f.ctr, len := 36 }
      let x := s.relayCmd e { kind := .ack } sub [] f.urgent
      (true, s.sealFrame true n (if f.urgent then 7 else s.fget (fRELAY_TCFG_relay_prio t)) a
        (leBytes 4 f.ctr ++ leBytes 2 f.seq ++ [BitVec.ofNat 8 pend, BitVec.ofNat 8 margin]) c { x with
          tenant := t, power := s.fget (fRELAY_TCFG_ack_power t), prio := 7, access := s.fastAccess sub, len := 36
          startF := e.endAt.1, startNs := e.endAt.2 + 1000000, lateUs := 10 })
  | _, _, _ => (false, s.finc (fRELAY_TCOUNT_ack_lost t))

/-- schedule_relay (R175–R178): whether the relay has taken the buffer, whether it was queued, and the state. The
relay buffer holds the PSDU as received; ttl − 1 goes into its FC. A relay refused at submission was not queued; it holds
the buffer until its completion. -/
def State.scheduleRelay (s : State) (e : RelayEntry) (f : Frame) (k : Nat) (buf : Option Nat) (draw : Nat) :
    Bool × Bool × State :=
  let t := f.tenant
  if !s.fon (fRELAY_TCFG_relay_en t) then (false, false, s)
  else
    let freq := s.fget (fRADIO_RX_FREQ_freq_hz e.rx)
    let w := modeWidth e.mode
    let head := decide (4 ≤ e.code)
    let s1 := if f.urgent != head then s.finc (fRELAY_TCOUNT_class_mismatch t) else s
    let urgent := f.urgent && head && s.fon (fRELAY_TCFG_urg_relay t)
    match buf, s.chainFor freq w, s.subOf freq w with
    | some b, some c, some sub =>
      let a := 0x04500000 + b * 512
      let id := (s1.seen k).id
      let x := s1.relayCmd e { kind := .relay, seen := id, buf := some b } sub [] urgent
      let y : TxCmd := { x with
        buffer := a, len := e.len, tenant := t, power := s.fget (fRELAY_TCFG_relay_power t), lateUs := 20000
        prio := if urgent then 7 else s.fget (fRELAY_TCFG_relay_prio t)
        access := if urgent then s.fastAccess sub else 0
        startF := if urgent then s.cinch.frame else e.endAt.1
        startNs := if urgent then s.nowNs
          else e.endAt.2 + draw % (100 * s.fget fRELAY_CTRL_win_ms + 1) * 10000 }
      let s2 := (s1.setSeen k { s1.seen k with relay := .pending, urgent := urgent }).writeBytes a (leBytes 2 (f.fc - 2 ^ 8))
      let q := s2.txSubmit c y
      (true, q.1.isNone, q.2)
    | _, _, _ => (false, false, s1.finc (fRELAY_TCOUNT_no_relay t))

/-- A relay buffer taken for a PSDU, the lowest free one, if any (R175). -/
def State.takeBuf (s : State) (p : List Byte) : Option Nat × State :=
  match (List.range 256).find? (fun b => !s.relay.bufs.contains b) with
  | none => (none, s)
  | some b => (some b, (s.writeBytes (0x04500000 + b * 512) p).modRelay (fun r => { r with bufs := r.bufs ++ [b] }))

/-- A relay buffer released. -/
def State.dropBuf (s : State) (b : Option Nat) : State :=
  match b with
  | none => s
  | some n => s.modRelay (fun r => { r with bufs := r.bufs.filter (fun x => x != n) })

/-! ## Reply reservations (R426, R427) -/

/-- A carrier of TXL would still be on air ns `rs` from now: on air, or in its start sequence. -/
def State.txlBusyAt (s : State) (rs : Int) : Bool :=
  let h := s.chain 0
  let fin (x : TxCmd) (from0 : Int) : Bool := decide (rs < from0 + thirdsNs (airThirds x.mode x.code x.len) + 1000 * h.ramp)
  h.air.any (fun k => fin k.cmd (match k.first with
    | some f => s.untilNs f.1 f.2
    | none => 1000 * h.ramp))
  || (match h.start with
    | some x => fin x.cmd (max (s.untilNs x.cmd.startF x.cmd.startNs) (1000 * (h.lead + h.ramp)))
    | none => false)

/-- A reservation of TXL for the reply to an F1 frame: placed, or refused and counted (R426, R427). -/
def State.reserve (s : State) (e : RelayEntry) (t : Nat) : State :=
  let freq := s.fget (fRADIO_RX_FREQ_freq_hz e.rx)
  match s.subOf freq 12500 with
  | none => s.finc fOLDTREE_COUNT_res_fail
  | some sub =>
    let lead := 25 + s.subCca sub + s.fget (fRADIO_TX_FE_lead_us 0) + s.fget (fRADIO_TX_FE_ramp_us 0)
    let en := e.endAt
    let rs := en.2 + 19500000 - 1000 * lead
    let r : Reserve := { rx := e.rx, tenant := t, freq := freq, rsF := en.1, rsNs := rs, eF := en.1, eNs := en.2 }
    let at0 := s.untilNs en.1 rs
    let fin := s.untilNs en.1 (en.2 + 20500000)
    let clash := (s.chain 0).reserves.any (fun o =>
      decide (s.untilNs o.rsF o.rsNs ≤ fin) && decide (at0 ≤ s.untilNs o.eF (o.eNs + 20500000)))
    if clash || s.txlBusyAt at0 then s.finc fOLDTREE_COUNT_res_fail
    else (s.modChain 0 (fun h => { h with reserves := h.reserves ++ [r] })).finc fOLDTREE_COUNT_res_placed

/-- RESERVATION_START: R_s of the reservation at place i is reached (R426). -/
def execReservationStart (i : BitVec 4) (s : State) : Host.Outcome State Fault Refusal :=
  .next (s.modChain 0 (fun h => { h with
    reserves := h.reserves.zipIdx.map (fun x => if x.2 = i.toNat then { x.1 with stands := true } else x.1) }))

/-- RESERVATION_END: the reservation at place i ends at the start of its reply, or at E + 20.5 ms unused (R426). -/
def execReservationEnd (i : BitVec 4) (s : State) : Host.Outcome State Fault Refusal :=
  .next (match (s.chain 0).reserves[i.toNat]? with
    | none => s
    | some r =>
      let s1 := s.modChain 0 (fun h => { h with reserves := h.reserves.eraseIdx i.toNat })
      if (s.chain 0).air.any (fun k => k.first.isSome && s.isReply r k.cmd) then s1 else s1.finc fOLDTREE_COUNT_res_unused)

/-- Reservations whose E lies before a boundary with a step or SET are cancelled and counted, and the replies that they
await, queued or in their start sequence, complete LATE (R427). `old` is the state at the end of the frame, whose frame
numbers the reservations and commands hold. -/
def State.reservesCancel (s old : State) : State :=
  let ended (r : Reserve) : Bool := decide (old.untilNs r.eF r.eNs ≤ 0)
  let gone := (s.chain 0).reserves.filter ended
  let awaited (x : TxCmd) : Bool := gone.any (fun r => old.isReply r x)
  let s1 := (s.modChain 0 (fun h => { h with reserves := h.reserves.filter (fun r => !ended r) })).fadd
    fOLDTREE_COUNT_res_fail gone.length
  let s2 := s1.failAll 0 0x3 ((s1.chain 0).queue.filter awaited)
  match (s2.chain 0).start with
  | some x => if awaited x.cmd then s2.startFail 0 x 0x3 else s2
  | none => s2

/-! ## After verification (R164) -/

/-- deliver: the verdict's finish with its notice and ACK. `pre` carries what finish must say of relay and seen set. -/
def State.deliver (s : State) (e : RelayEntry) (f : Frame) (k : Nat) (v : Verdict) (recd : Option Nat) (pend : Nat) : State :=
  let t := f.tenant
  if f.secured && !v.verified then s.finish e { v with code := 5 } false
  else if t = e.tenant then
    let s1 := s.setSeen k { s.seen k with dlv := true }
    let acks := f.type == 0 && f.ackReq && v.verified && f.dst == s.airAddr && s.fon (fRELAY_TCFG_ack_en t)
    let r := if acks then
        let m := e.margin
        let s2 := s1.setSeen k { s1.seen k with acked := true, pend := pend, margin := m }
        s2.sendAck e f recd pend m
      else (false, s1)
    (r.2.finish e { v with code := 1, ack := r.1 } (!f.secured)).frameNotice e t 1
  else if e.tenant = 0 then (s.finish e { v with code := 4 } (!f.secured)).frameNotice e 0 4
  else (s.zeroFrom e 0).finish e { v with code := 4 } (!f.secured)

/-- suppress: the queued relay of a seen entry is cancelled; one that has begun its start sequence goes on (R177). -/
def State.suppress (s : State) (k : Nat) : State :=
  let e := s.seen k
  let mine (x : TxCmd) : Bool := match x.who with
    | .relay r => r.kind == .relay && r.seen == e.id
    | _ => false
  let mark (x : TxCmd) : TxCmd := match x.who with
    | .relay r => { x with who := .relay { r with cut := true } }
    | _ => x
  match [0, 1].find? (fun c => (s.chain c).queue.any mine) with
  | some c => (s.setSeen k { e with relay := .suppressed }).failAll c 0xD (((s.chain c).queue.filter mine).map mark)
  | none => s.setSeen k { e with relay := .sent }

/-- duplicate (R164, R170, R174, R177). -/
def State.duplicate (s : State) (e : RelayEntry) (f : Frame) (k : Nat) (v : Verdict) (recd : Option Nat) (pend : Nat) :
    State :=
  let n := min ((s.seen k).count + 1) 15
  let s1 := s.setSeen k { s.seen k with count := n }
  let q := s1.seen k
  let s2 := if q.relay = .pending && !q.urgent && decide (s.fget fRELAY_CTRL_k ≤ n) then s1.suppress k else s1
  if !q.dlv && (v.verified || !f.secured) && f.tenant == e.tenant then s2.deliver e f k v recd pend
  else
    let r := if q.acked && f.ackReq && v.verified then s2.sendAck e f recd q.pend q.margin else (false, s2)
    r.2.finish e { v with code := 2, ack := r.1 } (!f.secured)

/-- The charge of a verified frame to its node's account, at the node class's rate for sending over the frame's airtime
(Table 13-5a): only a node homed here. -/
def State.learnCharge (s : State) (n : Node) (e : RelayEntry) : State :=
  if n.here then
    let r := s.acctTouch n.record
    (r.2.acctCharge n.record r.1
      (ujOfTime (r.2.fget (fGIRTH_NCLASS_tx_uj_ms r.1.cls)) (airThirds e.mode e.code e.len))).2
  else s

/-- node_learn: only when the way still holds the node (R210), whose account is charged (R337). -/
def State.nodeLearn (s : State) (a id ctr : Nat) (e : RelayEntry) : State :=
  let r := s.nodeRead a
  let y := e.sync
  if r.1.valid && r.1.id == id then
    let w3 := y.w3.toNat
    let br := bitsN y.w0.toNat 22 22
    (r.2.learnCharge r.1 e).nodeWrite a { r.1 with
      ctr := ctr, heard := y.w1.toNat, receiver := bitsN y.w0.toNat 31 23, branch := br, mode := bitsN y.w0.toNat 11 8
      rssi := if br = 0 then bitsN w3 31 16 else bitsN w3 15 0
      vcount := (r.1.vcount + 1) % 65536, hit := true, clear1 := false }
  else r.2.finc fTABLE_COUNT_learn_miss

/-- The steps of handle after the MIC check; `p` is the PSDU as received. An ACK takes the key record and the flag of the
entry that the lookup returned, whatever stands in its way now (R173, R215; log entry 77). -/
def State.afterVerify (s0 : State) (j : RelayJob) (verified : Bool) (p : List Byte) : State :=
  let e := j.entry
  let f := frameOf p e.len
  let s := s0.seenCheck f.src f.ctr
  let v : Verdict := { code := 0, tenant := f.tenant, verified := verified, set := seenSet f.src f.ctr }
  let recd := j.node.map (fun _ => j.record)
  match s.seenLookup f.src f.ctr with
  | some k => (s.duplicate e f k v recd (b2n j.pend)).dropBuf j.buf
  | none =>
    let old := match j.node with
      | some (_, _, c) => c
      | none => 0
    if j.byNode && verified && decide (f.ctr ≤ old) then (s.finish e { v with code := 7 } (!f.secured)).dropBuf j.buf
    else
      let i := s.seenInsert f.src f.ctr f.tenant verified
      let s1 := match j.node with
        | some (a, id, _) => if j.byNode && verified then i.2.nodeLearn a id f.ctr e else i.2
        | none => i.2
      let r := if f.flood && decide (0 < f.ttl) then s1.scheduleRelay e f i.1 j.buf j.draw else (false, false, s1)
      let s2 := if r.1 then r.2.2 else r.2.2.dropBuf j.buf
      s2.deliver e f i.1 { v with relay := r.2.1 } recd (b2n j.pend)

/-! ## RELAY_HANDLE and RELAY_SORT -/

/-- The verdict of a malformed frame counts for the tenant in its FC when that is there and started, else for the
receiver's (log entry 35). -/
def State.badTenant (s : State) (e : RelayEntry) (f : Frame) : Nat :=
  if 6 ≤ e.len && s.started f.tenant then f.tenant else e.tenant

/-- The entry of a tenant that is not started (R164, R166, Table 6-6). -/
def State.foreignUnstarted (s : State) (e : RelayEntry) (f : Frame) (v : Verdict) : State :=
  if e.tenant = 0 then
    let s1 := if !f.secured && !s.fon (fRELAY_TCFG_plain_ok f.tenant) then s.zeroFrom e 16 else s
    (s1.finish e v false).frameNotice e 0 4
  else (s.zeroFrom e 0).finish e v false

/-- The key of a frame (R162): a fixed slot, or the record of the node entry. -/
inductive RelayKey where
  | absent
  | slot (k : Nat)
  | record (n : Nat)
  deriving DecidableEq, Repr

/-- The key that Table 6-4 names for a frame with the node entry found. -/
def State.relayKey (s : State) (f : Frame) (n : Option (Nat × Node)) : RelayKey :=
  let fixed (k : Nat) : RelayKey := if (s.keySlot k).valid then .slot k else .absent
  match f.type with
  | 2 | 5 => fixed 1
  | 6 => fixed (32 + f.tenant)
  | _ =>
    match n with
    | some (_, x) => if x.tenant = f.tenant then .record x.record else .absent
    | none => .absent

/-- A verification handed to the cipher (R164, R302): CCM_DEC in the priority of the frame's class. -/
def State.verifyJob (s : State) (k : RelayKey) (tlen prio : Nat) (nonce aad data : List Byte) : State :=
  let m := 2 * tlen
  let n := match k with
    | .record n => n
    | .slot n => n
    | .absent => 0
  let by1 := match k with
    | .record _ => true
    | _ => false
  s.enqueue { who := .relay, tenant := none, op := 5, noOut := true, tlen := tlen, byRec := by1, key := n
              aadLen := aad.length, dataLen := data.length - m, prio := prio, inl := (nonce, aad, data) }

/-- RELAY_HANDLE: the next entry, up to its verification or to its verdict when none is made (R164). -/
def State.relayHandle (s0 : State) (e : RelayEntry) (draw : Nat) : State :=
  let pr := s0.entryPsdu e
  let s := pr.2.2
  let p := pr.1
  let f := frameOf p e.len
  let v : Verdict := { code := 0, tenant := f.tenant, set := seenSet f.src f.ctr }
  if !pr.2.1 then s.finish e { code := 8, tenant := e.tenant } false
  else if f.malformed then s.finish e { v with code := 8, tenant := s.badTenant e f } false
  else if !s.started f.tenant then s.foreignUnstarted e f { v with code := 4 }
  else
    let b := if f.flood && decide (0 < f.ttl) then s.takeBuf p else (none, s)
    let l := b.2.nodeLookup f.src
    let node := l.1.map (fun x => (x.1, x.2.id, x.2.ctr))
    let j : RelayJob := { entry := e, buf := b.1, node := node, record := (l.1.map (fun x => x.2.record)).getD 0
                          pend := (l.1.map (fun x => x.2.pend)).getD false, tenant := f.tenant, draw := draw
                          psdu := p }
    let s1 := l.2
    if f.secured then
      match s1.relayKey f l.1 with
      | .absent => s1.afterVerify j false p
      | key =>
        let isNode := match key with
          | .record _ => true
          | _ => false
        (s1.verifyJob key 4 (if 4 ≤ e.code then 7 else s1.fget (fRELAY_TCFG_relay_prio f.tenant)) f.nonce f.aad
          ((p.take (e.len - 4)).drop 16)).modRelay (fun r => { r with job := some { j with byNode := isNode } })
    else if !s1.fon (fRELAY_TCFG_plain_ok f.tenant) then (s1.finish e { v with code := 6 } true).dropBuf b.1
    else s1.afterVerify j false p

/-- The unit may take its next entry: nothing runs, the cipher queue has room (R164, R288), and no ring is being cleared. -/
def State.relayNext (s : State) (p : RelayEntry → Bool) : Option (RelayEntry × List RelayEntry) :=
  match s.relay.queue with
  | e :: rest => if s.relay.job.isNone && s.queueAdmits none && s.ringsFree && p e then some (e, rest) else none
  | [] => none

/-- RELAY_HANDLE (R164); `draw` gives the delay d of R177. -/
def execRelayHandle (draw : BitVec 16) (s : State) : Host.Outcome State Fault Refusal :=
  .next (match s.relayNext (fun e => s.fon fRELAY_CTRL_en && e.mode != 6) with
    | none => s
    | some (e, rest) => (s.modRelay (fun r => { r with queue := rest })).relayHandle e draw.toNat)

/-! ## Form-1 entries (R424, R425) -/

/-- The tenant that an alias gives an F1 PSDU. -/
def State.aliasFind (s : State) (a : Nat) : Option AliasEntry :=
  (s.relay.aliases.find? (fun x => x.2.valid && x.2.addr == a)).map (·.2)

/-- deliver for an F1 frame: no ACK step; `plain` says that it is not authenticated. -/
def State.deliverF1 (s : State) (e : RelayEntry) (k : Nat) (v : Verdict) (auth reply : Bool) : State :=
  if auth && !v.verified then s.finish e { v with code := 5 } false
  else if v.tenant = e.tenant then
    let s1 := ((s.setSeen k { s.seen k with dlv := true }).finish e { v with code := 1 } (!auth)).frameNotice e v.tenant 1
    if reply then s1.reserve e v.tenant else s1
  else if e.tenant = 0 then (s.finish e { v with code := 4 } (!auth)).frameNotice e 0 4
  else (s.zeroFrom e 0).finish e { v with code := 4 } (!auth)

/-- The steps of handle_f1 after the MIC check. -/
def State.afterF1 (s0 : State) (j : RelayJob) (verified : Bool) (p : List Byte) : State :=
  let e := j.entry
  let c := leNat ((p.drop 1).take 1)
  let cnt := beNat ((p.drop 5).take 2)
  let ctr := 0x80000000 + cnt
  let node := j.node.getD (0, 0, 0)
  let s := s0.seenCheck node.2.1 ctr
  let v : Verdict := { code := 0, tenant := j.tenant, verified := verified, set := seenSet node.2.1 ctr }
  let auth := bitN c 7
  match s.seenLookup node.2.1 ctr with
  | some k => (s.setSeen k { s.seen k with count := min ((s.seen k).count + 1) 15 }).finish e { v with code := 2 } (!auth)
  | none =>
    let d := (cnt + 65536 - node.2.2 % 65536) % 65536
    if verified && !(decide (1 ≤ d) && decide (d ≤ 32767)) then s.finish e { v with code := 7 } (!auth)
    else
      let i := s.seenInsert node.2.1 ctr j.tenant verified
      (if verified then i.2.nodeLearn node.1 node.2.1 ctr e else i.2).deliverF1 e i.1 v auth (bitN c 6)

/-- handle_f1 up to its verification. -/
def State.relayHandleF1 (s0 : State) (e : RelayEntry) : State :=
  let pr := s0.entryPsdu e
  let s := pr.2.2
  let p := pr.1
  let c := leNat ((p.drop 1).take 1)
  let auth := bitN c 7
  let v : Verdict := { code := 5, tenant := e.tenant }
  if !pr.2.1 || 4 ≤ c % 16 || bitsN c 5 4 ≠ 0 || (auth && decide (e.len < 13)) then s.finish e { v with code := 8 } false
  else
    match s.aliasFind (beNat ((p.drop 2).take 3)) with
    | none => (s.finc fOLDTREE_COUNT_alias_miss).finish e v (!auth)
    | some a =>
      let l := s.nodeLookup a.node
      let v1 : Verdict := { v with tenant := a.tenant }
      match l.1 with
      | none => l.2.finish e v1 (!auth)
      | some (ad, n) =>
        if n.tenant ≠ a.tenant then l.2.finish e v1 (!auth)
        else
          let j : RelayJob := { entry := e, node := some (ad, n.id, n.ctr), byNode := true, tenant := a.tenant, psdu := p }
          if auth && bitN s.fuses.oldTree.toNat 30 then
            let nonce := (p.drop 2).take 5 ++ (p.drop 1).take 1 ++ takePad 7 []
            (l.2.verifyJob (.record n.record) 2 (l.2.fget (fRELAY_TCFG_relay_prio a.tenant)) nonce (p.take 7)
              ((p.take (e.len - 2)).drop 7)).modRelay (fun r => { r with job := some j })
          else if !auth && !l.2.fon (fRELAY_TCFG_plain_ok a.tenant) then l.2.finish e { v1 with code := 6 } true
          else l.2.afterF1 j false p

/-- RELAY_HANDLE_F1 (R424). -/
def execRelayHandleF1 (s : State) : Host.Outcome State Fault Refusal :=
  .next (match s.relayNext (fun e => s.fon fRELAY_CTRL_en && e.mode == 6) with
    | none => s
    | some (e, rest) => (s.modRelay (fun r => { r with queue := rest })).relayHandleF1 e)

/-- The entry of tenant t when the unit only sorts (R167). -/
def State.relaySortBy (s : State) (e : RelayEntry) (v : Verdict) (secured : Bool) : State :=
  if v.tenant = e.tenant then (s.finish e { v with code := 1 } false).frameNotice e v.tenant 1
  else if e.tenant = 0 then
    let s1 := if secured || s.fon (fRELAY_TCFG_plain_ok v.tenant) then s else s.zeroFrom e 16
    (s1.finish e { v with code := 4 } false).frameNotice e 0 4
  else (s.zeroFrom e 16).finish e { v with code := 4 } false

/-- RELAY_SORT: with en clear an entry is sorted by tenant only (R167); an F1 entry by its alias (log entry 39). -/
def execRelaySort (s : State) : Host.Outcome State Fault Refusal :=
  .next (match s.relayNext (fun _ => !s.fon fRELAY_CTRL_en) with
    | none => s
    | some (e, rest) =>
      let pr := (s.modRelay (fun r => { r with queue := rest })).entryPsdu e
      let s1 := pr.2.2
      let p := pr.1
      let f := frameOf p e.len
      if !pr.2.1 then s1.finish e { code := 8, tenant := e.tenant } false
      else if e.mode = 6 then
        match s1.aliasFind (beNat ((p.drop 2).take 3)) with
        | none => (s1.finc fOLDTREE_COUNT_alias_miss).finish e { code := 5, tenant := e.tenant } true
        | some a => s1.relaySortBy e { code := 0, tenant := a.tenant } (bitN (leNat ((p.drop 1).take 1)) 7)
      else if e.len < 20 || 8 ≤ f.type then s1.finish e { code := 8, tenant := s1.badTenant e f } false
      else s1.relaySortBy e { code := 0, tenant := f.tenant, set := seenSet f.src f.ctr } f.secured)

/-- RELAY_VERIFY_RESULT: the verification's result (R162, R164, R424): AUTH_FAIL is MIC_FAIL, OK decrypts in place into
a ring of the frame's own tenant, any other status leaves the frame unverified. -/
def execRelayVerifyResult (s : State) : Host.Outcome State Fault Refusal :=
  .next (match s.relay.job, s.cipher.relayDone, s.ringsFree with
    | some j, (st, out) :: rest, true =>
      let e := j.entry
      let s1 : State := { (s.modRelay (fun r => { r with job := none })) with cipher := { s.cipher with relayDone := rest } }
      let p := j.psdu
      let f1 := e.mode == 6
      if st = 1 then
        let f := frameOf p e.len
        let v : Verdict := { code := 3, tenant := j.tenant, set := if f1 then 0 else seenSet f.src f.ctr }
        (s1.finish e v false).dropBuf j.buf
      else
        let ok := st == 0
        let s2 := if ok && j.tenant == e.tenant then s1.ringWrite e.region e.tenant (e.start + 32 + if f1 then 7 else 16) out
          else s1
        if f1 then s2.afterF1 j ok p else s2.afterVerify j ok p
    | _, _, _ => s)

/-! ## Completions (R173, R175, R438) -/

/-- The latency of a radiated urgent relay, unless its interval holds a step or a SET (R438). -/
def State.urgentLatency (s : State) (r : RelayTx) (first : Nat × Nat) : State :=
  if r.era ≠ s.cinch.era then s
  else
    let d := (s.untilNs first.1 first.2 - s.untilNs r.endF r.endNs).toNat
    let s1 := (s.finc fRELAY_URG_LAT_radiated).fset fRELAY_URG_LAT_last_ns d
    let s2 := if s.fget fRELAY_URG_LAT_max_ns < d then s1.fset fRELAY_URG_LAT_max_ns d else s1
    if r.limit < d then s2.finc fRELAY_URG_LAT_over else s2

/-- A relay completes: its buffer is free; it counts as R175 states. -/
def State.relayDone (s : State) (x : TxCmd) (r : RelayTx) (status : Nat) (first : Option (Nat × Nat)) : State :=
  let s1 := s.dropBuf r.buf
  let e := s1.seenById r.seen
  if status ≤ 1 then
    let s2 := match e with
      | some (k, q) => s1.setSeen k { q with relay := .sent }
      | none => s1
    let s3 := s2.finc (fRELAY_TCOUNT_relayed x.tenant)
    if x.urgent then s3.urgentLatency r (first.getD (0, 0)) else s3
  else if r.cut then s1.finc (fRELAY_TCOUNT_suppressed x.tenant)
  else if status = 2 || status = 4 then s1 else s1.finc (fRELAY_TCOUNT_no_relay x.tenant)

/-- RELAY_TX_COMPLETION: the oldest completion of the relay unit's commands (R173, R175, R438). -/
def execRelayTxCompletion (s : State) : Host.Outcome State Fault Refusal :=
  .next (match s.relay.done with
    | [] => s
    | (x, status, first) :: rest =>
      let s1 := s.modRelay (fun r => { r with done := rest })
      match x.who with
      | .relay r =>
        match r.kind with
        | .relay => s1.relayDone x r status first
        | .ack =>
          if status ≤ 1 then s1.finc (fRELAY_TCOUNT_ack_sent x.tenant) else s1.finc (fRELAY_TCOUNT_ack_lost x.tenant)
        | _ => s1
      | _ => s1)

/-- Queued ACKs and re-ACKs cancelled at a boundary that applies a step or a SET (R198); their completions count. -/
def State.ackCancel (s : State) : State :=
  let isAck (x : TxCmd) : Bool := match x.who with
    | .relay r => r.kind == .ack
    | _ => false
  [0, 1].foldl (fun t c => t.failAll c 0xD ((t.chain c).queue.filter isAck)) s

/-! ## Aliases (R423) -/

/-- The set of an address. -/
def aliasSet (a : Nat) : Nat := Nat.xor (Nat.xor (bitsN a 10 0) (bitsN a 21 11)) (bitsN a 23 22) % 2048

/-- The key of an address in the table. -/
def State.aliasKey (s : State) (a : Nat) : Option Nat :=
  ((List.range 4).map (fun w => 4 * aliasSet a + w)).find? (fun k =>
    let e := tabGet {} s.relay.aliases k
    e.valid && e.addr == a)

/-- An alias entry set. -/
def State.setAlias (s : State) (k : Nat) (e : AliasEntry) : State :=
  s.modRelay (fun r => { r with aliases := tabSet {} r.aliases k e })

/-- A status of OLDTREE_ALIAS. -/
def State.aliasStatus (s : State) (v : Nat) : State := (s.fset fOLDTREE_ALIAS_status v).fset fOLDTREE_ALIAS_valid 0

/-- SET: tenant and node ID from words 1 and 2. -/
def State.aliasPut (s : State) (a : Nat) : State :=
  let t := s.fget fOLDTREE_ALIAS_tenant
  let id := s.fget fOLDTREE_ALIAS_node_id
  if !isNodeId id || !s.declared t then s.aliasStatus 3
  else
    let e : AliasEntry := { valid := true, addr := a, tenant := t, node := id }
    match s.aliasKey a with
    | some k => (s.setAlias k e).aliasStatus 0
    | none =>
      match ((List.range 4).map (fun w => 4 * aliasSet a + w)).find? (fun k => !(tabGet {} s.relay.aliases k).valid) with
      | some k => (s.setAlias k e).aliasStatus 0
      | none => s.aliasStatus 2

/-- A write of OLDTREE_ALIAS word 0. -/
def State.aliasWrite (s : State) (v : Nat) : State :=
  let a := bitsN v 23 0
  let s1 := s.fset fOLDTREE_ALIAS_addr a
  match bitsN v 31 28, s1.aliasKey a with
  | 1, _ => s1.aliasPut a
  | 2, some k => (s1.setAlias k {}).aliasStatus 0
  | 2, none => s1.aliasStatus 1
  | 3, some k =>
    let e := tabGet {} s1.relay.aliases k
    (((s1.aliasStatus 0).fset fOLDTREE_ALIAS_valid 1).fset fOLDTREE_ALIAS_tenant e.tenant).fset fOLDTREE_ALIAS_node_id e.node
  | 3, none => s1.aliasStatus 1
  | _, _ => s1

/-- ALIAS_SET (R423). -/
def execAliasSet (m : Master) (a : BitVec 24) (s : State) : Host.Outcome State Fault Refusal :=
  .next (s.regGate m aOLDTREE_ALIAS_w0 (fun t => t.aliasWrite (1 * 2 ^ 28 + a.toNat)))
/-- ALIAS_DELETE (R423). -/
def execAliasDelete (m : Master) (a : BitVec 24) (s : State) : Host.Outcome State Fault Refusal :=
  .next (s.regGate m aOLDTREE_ALIAS_w0 (fun t => t.aliasWrite (2 * 2 ^ 28 + a.toNat)))
/-- ALIAS_GET (R423). -/
def execAliasGet (m : Master) (a : BitVec 24) (s : State) : Host.Outcome State Fault Refusal :=
  .next (s.regGate m aOLDTREE_ALIAS_w0 (fun t => t.aliasWrite (3 * 2 ^ 28 + a.toNat)))

/-! ## Beacons (R201, R202) -/

/-- The next CTR under the system key; the incremented value is stored before use (R201, R220). -/
def State.takeCtr (s : State) : Nat × State := (s.fget fTABLE_BB_CTR_bb_ctr, s.finc fTABLE_BB_CTR_bb_ctr)

/-- The plan bank that is active in the frame of a slot: the other one after a pending swap. -/
def State.bankFor (s : State) (next : Bool) : Nat :=
  if next && s.fon fCINCH_PLAN_CTRL_swap then 1 - s.planBank else s.planBank

/-- A beacon for a slot of frame `fr` built and sealed; its command follows (R201, R202). -/
def State.beacon (s : State) (fr slot : Nat) : State :=
  let mode := s.fget fCINCH_BEACON_mode
  let fail := s.finc fCINCH_COUNT_beacon_fail
  if !(mode < 3 || mode = 4) || !(s.keySlot 1).valid || !s.hasChain (s.fget fCINCH_BEACON_chain) then fail
  else
    let c := s.takeCtr
    let ns := slot * 250000
    let sync := thirdsNs (syncBits mode * bitThirds mode)
    let f : Frame := { fc := 2 + 2 ^ 7, seq := fr % 65536, src := s.airAddr, dst := 0xFFFFFFFF, ctr := c.1, len := 40 }
    let body := leBytes 4 fr ++ leBytes 4 (ns + sync)
      ++ [BitVec.ofNat 8 (s.fget fCINCH_STATUS_stratum + 16 * s.fget fCINCH_STATUS_source + 128 * b2n (s.cinchState == 3)), 0#8]
      ++ leBytes 2 s.device
    let sub := s.fget fCINCH_BEACON_sub_band
    let x : TxCmd := { who := .beacon, freq := s.fget fCINCH_BEACON_freq_hz, power := s.fget fCINCH_BEACON_power, mode := mode
                       sub := sub, prio := 7, urgent := false, tenant := 0, access := s.fastAccess sub
                       code := s.fget fCINCH_BEACON_code_id, len := 40, startF := fr, startNs := ns, lateUs := 0
                       inl := [] }
    c.2.sealFrame false 1 7 f body (s.fget fCINCH_BEACON_chain) x

/-- BEACON_BUILD: 50 ms ahead of a slot with the beacon bit, in this frame or, for slots below 200, in the next. No
beacon in slots 3,900 and above, nor while a step or SET is pending (R202). -/
def execBeaconBuild (slot : BitVec 12) (s : State) : Host.Outcome State Fault Refusal :=
  let n := slot.toNat
  let next := decide (n * 250000 < s.nowNs)
  let e := (s.reg (aCINCH_PLAN (s.bankFor next) n)).toNat
  .next (s.iff (s.cinch.started && decide (n < 3900) && bitN e 17 && s.fon fCINCH_BEACON_en && !s.cinch.stepDue)
    (fun t => t.beacon ((t.cinch.frame + b2n next) % 2 ^ 32) n))

/-- BEACON_COMPLETION: the oldest completion of a beacon counts (R202). -/
def execBeaconCompletion (s : State) : Host.Outcome State Fault Refusal :=
  .next (match s.cinch.beaconDone with
    | [] => s
    | st :: rest =>
      let s1 := s.modCinch (fun c => { c with beaconDone := rest })
      if st ≤ 1 then s1.finc fCINCH_COUNT_beacon_sent else s1.finc fCINCH_COUNT_beacon_fail)

end Sys2Proof.Machine
end

