-- ==== Sys2Proof/Machine/Flash.lean ====
section
/-!
DEFINITION. The attached flash (chapter 15) behind its read window: commands (R365–R367,
R376), suspend and resume (R368, R369), retries (R370), the operation record (R371–R373) and wear (R374).
-/

namespace Sys2Proof.Machine

/-- A list of n bytes that the spec leaves open (log entry 11). -/
def State.freeList (s : State) (n : Nat) : List Byte × State :=
  let r := s.free (8 * n)
  (leBytes n r.1.toNat, r.2)

/-! ## Programming and erasing -/

/-- Lines that meet [lo, hi) leave the buffer (R364). -/
def State.dropLines (s : State) (lo hi : Nat) : State :=
  s.modFlash (fun f => { f with
    lines := f.lines.filter (fun x => decide (hi ≤ x.1 * lineBytes) || decide ((x.1 + 1) * lineBytes ≤ lo)) })

/-- Key of the operation record. -/
def opRecord : Nat := 0x050E4000

/-- The operation record written (R371). -/
def State.putRecord (s : State) (op : Nat) (susp : Bool) (off : Nat) : State :=
  s.setWord64 opRecord (op * 2 ^ 60 + b2n susp * 2 ^ 59 + off) 0#72

/-- Key of a block's erase count. -/
def eraseCountKey (b : Nat) : Nat := 0x050E0000 + b * 4

/-- A block's erase count after one erase more, with the warning when it reaches erase_warn (R374). -/
def State.wear (s : State) (b : Nat) : State :=
  let n := satInc 0xFFFFFFFF (s.num (eraseCountKey b) 4)
  let s1 := s.writeBytes (eraseCountKey b) (leBytes 4 n)
  if n = s.fget fXSPI_WEAR_erase_warn then (s1.fset fXSPI_WEAR_warned 1).logHw 0x0060 b n 0 else s1

/-- An erase of the block at offset a starts. -/
def State.eraseStart (s : State) (a : Nat) : State :=
  ((((s.dropLines a (a + 0x10000)).putRecord 3 false a).finc fXSPI_COUNT_erases).wear (a / 0x10000)).modFlash
    (fun f => { f with act := some (.erase a) })

/-- End of the page that starts at a, for a program that ends at `stop`. -/
def pageEnd (a stop : Nat) : Nat := min ((a / 256 + 1) * 256) stop

/-- The next page of a running program starts once no missed line waits (R366, R368). -/
def State.pageStart (s : State) : State :=
  match s.flash.cmd with
  | some c =>
    if c.op = 2 && s.flash.known.isNone && s.flash.checked && s.flash.act.isNone && s.flash.miss.isEmpty && !s.flash.stop then
      (s.putRecord 2 false s.flash.page).modFlash (fun f => { f with act := some (.program f.page) })
    else s
  | none => s

/-- A retry of a page or block may still start: it ends within half the supervisor halter period, counted from the
command's word-0 write; in START half of 250 ms (R370). -/
def State.retryFits (s : State) (c : FlashCmd) (us : Nat) : Bool :=
  let period := if s.fget fXSPI_CTRL_mode = 0 then 250000 else s.pkg.supPeriodMs * 1000
  decide (2 * ((s.mono - c.start) / 40 + us) ≤ period)

/-! ## Commands (R365–R367, R376) -/

/-- The buffer [buf, buf + n) lies in system SRAM or in the supervisor's local SRAM. -/
def bufOk (buf n : Nat) : Bool :=
  decide (buf + n ≤ 0x40000) || (decide (0x04000000 ≤ buf) && decide (buf + n ≤ 0x04800000))

/-- A PROGRAM or ERASE of [a, a + n) that a bank's protection refuses (R367), or that reaches into the block whose erase
is suspended (R369). -/
def State.flashGuarded (s : State) (a n : Nat) : Bool :=
  let meets (b : Nat) : Bool := decide (a < (b + 1) * bankBytes) && decide (b * bankBytes < a + n)
  let run := s.fget fSYS_BOOT_STATUS_bank
  (s.fget fXSPI_CTRL_mode == 2 && decide (1 ≤ run) && decide (run ≤ 2)
      && (meets (run - 1) || (s.fon fSYS_BOOT_CTRL_trial && meets (2 - run))))
    || s.flash.susp.any (fun b => decide (a < b + 0x10000) && decide (b < a + n))

/-- What a command is refused with at once (Table 15-4); in this order when several apply (log entry 46). -/
def State.flashRefusal (s : State) (c : FlashCmd) : Option (Nat × Nat × Nat) :=
  let lenMax := if c.op = 2 then 4096 else 65536
  let buffered := c.op == 1 || c.op == 2 || c.op == 5
  let sized := c.op == 1 || c.op == 2 || c.op == 4
  let n := if c.op = 5 then 256 else c.len
  if c.op = 0 || 7 ≤ c.op || (sized && (c.len == 0 || decide (lenMax < c.len))) || (buffered && !bufOk c.buf n)
      || (c.op == 6 && c.addr != 0 && c.addr != bankBytes) then some (5, 0, 0)
  else if (buffered && c.buf % 8 != 0) || (c.op == 3 && c.addr % 0x10000 != 0) then some (4, 0, 0)
  else if (sized && decide (s.flashSize < c.addr + c.len)) || (c.op == 3 && decide (s.flashSize < c.addr + 0x10000)) then
    some (3, 0, 0)
  else if (c.op == 2 && s.flashGuarded c.addr c.len) || (c.op == 3 && s.flashGuarded c.addr 0x10000) then some (2, 0, 0)
  else none

/-- A command accepted: it runs, or its refusal is known; an erase starts, a program takes its range out of the line
buffer and reads it for the blank check first (R366), and a VERIFY asks the ECC engine for its digests and its signature
(R376). -/
def State.flashStart (s : State) (c : FlashCmd) : State :=
  let r := s.flashRefusal c
  let s1 := ((s.fset fXSPI_STATUS_busy 1).fset fXSPI_STATUS_op c.op).modFlash (fun f =>
    { f with cmd := some c, known := r, page := c.addr, tries := 0, checked := false, badLines := [] })
  if r.isSome then s1
  else if c.op = 3 then s1.eraseStart c.addr
  else if c.op = 2 then s1.dropLines c.addr (c.addr + c.len)
  else if c.op = 6 then (s1.enqueueUnit { who := .unit .image, tenant := none, op := 17, prio := 7 }).keygenGrant
  else s1

/-- A write of XSPI_CMD word 0 (R365). In START and RECOVERY a command may run nested in a suspended erase, and one that
only reads may wait for that suspension (R368, R369). -/
def State.xspiGo (s : State) (w0 : Nat) : State :=
  let c : FlashCmd :=
    { op := bitsN w0 31 28, tag := bitsN w0 15 0, addr := s.fget fXSPI_CMD_addr, buf := s.fget fXSPI_CMD_buf
      len := s.fget fXSPI_CMD_length, start := s.mono }
  match s.flash.cmd with
  | none => s.flashStart c
  | some r =>
    if s.fget fXSPI_CTRL_mode ≠ 2 && r.op = 3 && s.flash.outer.isNone && s.flash.known.isNone && c.op ≠ 3
        && (s.flash.susp.isSome || c.op ≠ 2) then
      (s.modFlash (fun f => { f with outer := some r, outerTries := f.tries })).flashStart c
    else (s.fset fXSPI_STATUS_go_refused 1).finc fXSPI_COUNT_busy

/-- A command completes; an erase it was nested in is the running command again, with its own op and tries (R369, R370). -/
def State.flashDone (s : State) (c : FlashCmd) (status code detail : Nat) : State :=
  let s1 := (((s.fset fXSPI_RESULT_status status).fset fXSPI_RESULT_boot_code code).fset fXSPI_RESULT_tag c.tag).fset
    fXSPI_RESULT2_detail detail
  let s2 := match status with
    | 1 => s1.finc fXSPI_COUNT_not_blank
    | 2 => s1.finc fXSPI_COUNT_protected
    | 6 => s1.finc fXSPI_COUNT_fails
    | _ => s1
  let o := s2.flash.outer
  let s3 := s2.modFlash (fun f => { f with
    cmd := o, outer := none, known := none, checked := false, badLines := [], dqsLine := 0, dqs := 0
    tries := f.outerTries, outerTries := 0 })
  match o with
  | some e => s3.fset fXSPI_STATUS_op e.op
  | none => s3.fset fXSPI_STATUS_busy 0

/-- The bytes [a, a + n) as a READ command brings them: zeros for lines whose strobe failed, free values in a block whose
erase is suspended. -/
def State.flashRead (s : State) (a n : Nat) : List Byte × State :=
  let r := s.freeList n
  ((List.range n).map (fun i =>
    if s.flash.badLines.contains ((a + i) / lineBytes) then 0#8
    else if s.flashHeld (a + i) then r.1.getD i 0#8 else s.byte (flashKey (a + i))), r.2)

/-- VERIFY of the bank at offset a: checks 1–11 in order, check 9 for lines that could not be read (R376). -/
def State.verifyBank (s : State) (a : Nat) : Nat :=
  let k := flashKey a
  let c := s.headerCheck (s.header k)
  if c ≠ 1 then c
  else if !s.manifestCheck (s.header k) k then 10
  else if !s.flash.badLines.isEmpty then 11
  else s.imageCheck (s.header k) k

/-- A command's buffer meets a granule that is being cleared: the flash's copy waits (R355). -/
def State.flashBufWaits (s : State) (buf n : Nat) : Bool := s.clearMeets ((s.dmaKey 128 buf).getD 0) n

/-- The end of a program's blank check: NOT_BLANK with the first byte that is not 0xFF, or the first page starts (R366);
INTERRUPTED where no page may start any more, with the record naming its first page (R373). -/
def State.blankEnd (s : State) (c : FlashCmd) : State :=
  let r := s.flashRead c.addr c.len
  match (List.range c.len).find? (fun i => r.1.getD i 0#8 != 0xFF#8) with
  | some i => r.2.flashDone c 1 0 (c.addr + i)
  | none =>
    let s1 := r.2.modFlash (fun f => { f with checked := true, badLines := [], dqsLine := 0, dqs := 0 })
    if s1.flash.stop then (s1.putRecord 2 false c.addr).flashDone c 8 0 0 else s1.pageStart

/-- The ECC engine serves the VERIFY (R376). -/
def State.imageGranted (s : State) : Bool := s.cipher.running.any (fun r => r.job.op == 17)

/-- The ECC engine lets the VERIFY go. -/
def State.imageEnd (s : State) : State :=
  ({ s with cipher := { s.cipher with running := s.cipher.running.filter (fun r => r.job.op != 17) } } : State).keygenGrant

/-- The end of a command that reads. -/
def State.flashReads (s : State) (c : FlashCmd) : State :=
  match c.op with
  | 1 =>
    let r := s.flashRead c.addr c.len
    (r.2.dmaPut none 128 c.buf r.1).flashDone c 0 0 0
  | 4 =>
    let r := s.flashRead c.addr c.len
    (match (List.range c.len).find? (fun i => r.1.getD i 0#8 != 0xFF#8) with
      | some i => r.2.flashDone c 1 0 (c.addr + i)
      | none => r.2.flashDone c 0 0 0)
  | 5 =>
    let b := s.readBytes ((s.dmaKey 128 c.buf).getD 0) 256 0x7F
    let r := if b.2.1 then (b.1, b.2.2) else b.2.2.freeList 256
    let code := r.2.headerCheck r.1
    if code = 1 then r.2.flashDone c 0 0 0 else r.2.flashDone c 7 code 0
  | _ =>
    let code := s.verifyBank c.addr
    let h := s.header (flashKey c.addr)
    if !s.imageGranted then s
    else if code = 1 then
      s.imageEnd.flashDone c 0 0 (refusedMask (s.manifest h (flashKey c.addr)) (fieldLe h 0x28 1) * 65536)
    else s.imageEnd.flashDone c 7 code 0

/-- A write of XSPI_CMD word 0 with an op. -/
def State.xspiWrite (s : State) (m : Master) (op : Nat) (tag : BitVec 16) : State :=
  s.regGate m aXSPI_CMD_w0 (fun t => t.xspiGo (op * 2 ^ 28 + tag.toNat))

/-- FLASH_READ (R365). -/
def execFlashRead (m : Master) (tag : BitVec 16) (s : State) : Host.Outcome State Fault Refusal :=
  .next (s.xspiWrite m 1 tag)

/-- FLASH_PROGRAM (R366). -/
def execFlashProgram (m : Master) (tag : BitVec 16) (s : State) : Host.Outcome State Fault Refusal :=
  .next (s.xspiWrite m 2 tag)

/-- FLASH_ERASE (R367). -/
def execFlashErase (m : Master) (tag : BitVec 16) (s : State) : Host.Outcome State Fault Refusal :=
  .next (s.xspiWrite m 3 tag)

/-- BLANK (R365). -/
def execBlank (m : Master) (tag : BitVec 16) (s : State) : Host.Outcome State Fault Refusal := .next (s.xspiWrite m 4 tag)

/-- HCHECK (R376). -/
def execHcheck (m : Master) (tag : BitVec 16) (s : State) : Host.Outcome State Fault Refusal := .next (s.xspiWrite m 5 tag)

/-- VERIFY (R376). -/
def execVerify (m : Master) (tag : BitVec 16) (s : State) : Host.Outcome State Fault Refusal := .next (s.xspiWrite m 6 tag)

/-- The end of an erase of the block at a, good or failed (R370, R371). What a failed block holds is not stated, so its
bytes are free. -/
def State.eraseEnd (s : State) (c : FlashCmd) (a : Nat) (ok : Bool) : State :=
  if ok then
    (((s.fill (flashKey a) (flashKey (a + 0x10000))).putRecord 0 false 0).modFlash (fun f => { f with act := none })).flashDone
      c 0 0 0
  else if s.flash.tries < s.fget fXSPI_CTRL_erase_retry && s.retryFits c (s.fget fXSPI_DEV1_terase_ms * 1000) then
    ((s.finc fXSPI_COUNT_retries).modFlash (fun f => { f with tries := f.tries + 1 })).eraseStart a
  else
    let r := s.freeList 0x10000
    (((r.2.setBytes (flashKey a) r.1).putRecord 0 false 0).modFlash (fun f => { f with act := none })).flashDone c 6 0 a

/-- The running command c, which nothing has refused, ends, or its blank check does. A command that reads the flash waits
until the flash is free; HCHECK needs only its buffer. -/
def State.flashCmdEnd (s : State) (c : FlashCmd) (ok : Bool) : State :=
  match s.flash.act with
  | some (.erase a) => if c.op = 3 then s.eraseEnd c a ok else s.iff (c.op == 5 && !s.flashBufWaits c.buf 256) (fun t => t.flashReads c)
  | some (.program _) => s
  | none =>
    if c.op = 3 then s
    else if c.op = 2 then s.iff (!s.flash.checked) (fun t => t.blankEnd c)
    else
      s.iff (!(c.op == 1 && s.flashBufWaits c.buf c.len || c.op == 5 && s.flashBufWaits c.buf 256)) (fun t => t.flashReads c)

/-- FLASH_CMD_DONE: the running command ends, or the blank check of a PROGRAM; `ok`: the flash reported no error for an
erase (R365, R366). A VERIFY waits for the ECC engine (R376). -/
def execFlashCmdDone (ok : Bool) (s : State) : Host.Outcome State Fault Refusal :=
  .next (match s.flash.cmd, s.flash.known with
    | some c, some r => s.flashDone c r.1 r.2.1 r.2.2
    | some c, none => s.flashCmdEnd c ok
    | _, _ => s)

/-- The page at the front of a program ends, good or failed (R366, R370, R373). What a failed page holds is not stated. -/
def State.pageDone (s : State) (c : FlashCmd) (a : Nat) (ok : Bool) : State :=
  let stop := c.addr + c.len
  let b := pageEnd a stop
  if ok then
    let src := s.readBytes ((s.dmaKey 128 (c.buf + (a - c.addr))).getD 0) (b - a) 0x7F
    let fr := src.2.2.freeList (b - a)
    let s1 := ((fr.2.setBytes (flashKey a) (if src.2.1 then src.1 else fr.1)).finc fXSPI_COUNT_programs).modFlash
      (fun f => { f with act := none, tries := 0, page := b })
    if b = stop then (s1.putRecord 0 false 0).flashDone c 0 0 0
    else if s1.flash.stop then (s1.putRecord 2 false b).flashDone c 8 0 0
    else s1.pageStart
  else if s.flash.tries < s.fget fXSPI_CTRL_prog_retry && s.retryFits c (s.fget fXSPI_DEV1_tpp_us) then
    (s.finc fXSPI_COUNT_retries).modFlash (fun f => { f with tries := f.tries + 1 })
  else
    let r := s.freeList (b - a)
    (((r.2.setBytes (flashKey a) r.1).putRecord 0 false 0).modFlash (fun f => { f with act := none })).flashDone c 6 0 a

/-- The page being programmed ends, unless its source waits for a clear (R355). -/
def State.pageEnds (s : State) (ok : Bool) : State :=
  match s.flash.cmd, s.flash.act with
  | some c, some (.program a) =>
    s.iff (!s.flashBufWaits (c.buf + (a - c.addr)) (pageEnd a (c.addr + c.len) - a)) (fun t => t.pageDone c a ok)
  | _, _ => s

/-! ## Suspend, resume, line reads (R363, R368) -/

/-- An access needs the flash while an erase runs: missed lines, or a nested command that reads or programs it. -/
def State.flashWanted (s : State) : Bool :=
  !s.flash.miss.isEmpty || (s.flash.outer.isSome && s.flash.known.isNone && s.flash.cmd.any (fun c =>
    c.op == 1 || c.op == 2 || c.op == 4 || c.op == 6))

/-- ERASE_SUSPEND: the running erase is suspended for the accesses that wait (R368). -/
def execEraseSuspend (s : State) : Host.Outcome State Fault Refusal :=
  .next (match s.flash.act with
    | some (.erase b) => s.iff s.flashWanted (fun t =>
        ((t.fset fXSPI_STATUS_suspended 1).finc fXSPI_COUNT_suspends).modFlash (fun f => { f with act := none, susp := some b }))
    | _ => s)

/-- A suspended erase goes on. -/
def State.eraseResume (s : State) : State :=
  match s.flash.susp with
  | some b => (s.fset fXSPI_STATUS_suspended 0).modFlash (fun f => { f with susp := none, act := some (.erase b) })
  | none => s

/-- ERASE_RESUME: the waiting accesses are served and the suspended erase goes on (R368). -/
def execEraseResume (s : State) : Host.Outcome State Fault Refusal :=
  .next (s.iff (!s.flashWanted && s.flash.act.isNone) State.eraseResume)

/-- WINDOW_LINE_FILL: the oldest missed line is read and its waiting reads are answered; a line that an operation took
meanwhile answers zeros (R363, R364). -/
def execWindowLineFill (s : State) : Host.Outcome State Fault Refusal :=
  .next (match s.flash.miss, s.flash.act with
    | line :: _, none =>
      if s.flashHeld (line * lineBytes) then
        ((s.fadd fXSPI_COUNT_busy_read (s.waitCount line)).answerLine line []).pageStart
      else
        let bs := s.bytes (flashKey (line * lineBytes)) lineBytes
        ((s.answerLine line bs).modFlash (fun f => { f with
          lines := (if f.lines.length < 16 then f.lines else f.lines.drop 1) ++ [(line, bs)]
          dqs := if f.dqsLine = line then 0 else f.dqs })).pageStart
    | _, _ => s)

/-- The line is one that the running command reads. -/
def State.lineInCmd (s : State) (line : Nat) : Bool :=
  match s.flash.cmd with
  | some c =>
    s.flash.known.isNone && (c.op == 1 || c.op == 4 || c.op == 6 || (c.op == 2 && !s.flash.checked))
      && decide (c.addr < (line + 1) * lineBytes)
      && decide (line * lineBytes < c.addr + (if c.op = 6 then bankBytes else c.len))
  | none => false

/-- DQS_TIMEOUT: the strobe of a line read does not come within 1 µs: the line is read again up to 3 times, then counts
as zeros and in fails (R370). -/
def execDqsTimeout (line : BitVec 22) (s : State) : Host.Outcome State Fault Refusal :=
  let n := line.toNat
  let missed := s.flash.miss.head? == some n
  .next (if s.flash.act.isSome || !(missed || s.lineInCmd n) then s
    else
      let again := if s.flash.dqsLine = n then s.flash.dqs else 0
      if again < 3 then (s.finc fXSPI_COUNT_retries).modFlash (fun f => { f with dqsLine := n, dqs := again + 1 })
      else
        let s1 := (s.finc fXSPI_COUNT_fails).modFlash (fun f => { f with dqsLine := 0, dqs := 0 })
        if missed then (s1.answerLine n []).pageStart
        else s1.modFlash (fun f => { f with badLines := n :: f.badLines }))

/-! ## Power states (R373) and start-up (R372) -/

/-- Step 2 of Table 13-8: no further page starts; a program between two pages, or before its first, completes
INTERRUPTED. -/
def State.flashHalt (s : State) : State :=
  let s1 := s.modFlash (fun f => { f with stop := true })
  match s1.flash.cmd, s1.flash.act with
  | some c, none =>
    if c.op = 2 && s1.flash.known.isNone then (s1.putRecord 2 false s1.flash.page).flashDone c 8 0 0 else s1
  | _, _ => s1

/-- A running or suspended erase waits through the power state: the record says so. -/
def State.flashPause (s : State) : State :=
  match s.flash.act, s.flash.susp with
  | some (.erase b), _ =>
    (((s.fset fXSPI_STATUS_suspended 1).finc fXSPI_COUNT_suspends).putRecord 3 true b).modFlash (fun f => { f with act := none, susp := some b })
  | _, some b => s.putRecord 3 true b
  | _, _ => s

/-- SLEEP exit: a suspended erase goes on and the record clears `suspended`. -/
def State.flashWake (s : State) : State :=
  let s1 := s.modFlash (fun f => { f with stop := false })
  match s1.flash.susp with
  | some b => (s1.putRecord 3 false b).eraseResume
  | none => s1

/-- Bytes of a page whose programming a reset cut off: what they hold is not stated. -/
def State.flashCut (s : State) : State :=
  match s.flash.act with
  | some (.program a) =>
    let b := (a / 256 + 1) * 256
    let stop := match s.flash.cmd with
      | some c => c.addr + c.len
      | none => b
    let r := s.freeList (min b stop - a)
    r.2.setBytes (flashKey a) r.1
  | _ => s

end Sys2Proof.Machine
end

