-- ==== Sys2Proof/Machine/Girth.lean ====
section
/-!
DEFINITION. Girth: the meter, the ledger and its latches, the cost model, the close with the planner's choice, the
frequency clamps and GIRTH_NACC (R319–R331, R339). What a change of plan does to the units is in Plan.lean.
-/

namespace Sys2Proof.Machine

/-- The Girth record changed. -/
def State.modGirth (s : State) (f : GirthSt → GirthSt) : State := { s with girth := f s.girth }

/-! ## The meter (R319–R321) -/

/-- The meter is powered: in RUN, IDLE and SLEEP, after hand-over (R324). -/
def State.meterOn (s : State) : Bool := s.pkg.stage == .run && s.pkg.power != .deepSleep && s.pkg.power != .off

/-- An amount in 0.1 pJ added to the fraction of counter k: the whole µJ it makes. -/
def State.meterTake (s : State) (k x : Nat) : Nat × State :=
  let y := tabGet 0 s.girth.frac k + x
  (y / 10000000, s.modGirth (fun g => { g with frac := tabSet 0 g.frac k (y % 10000000) }))

/-- Own energy added to counter k of Table 13-1 and to OWN. -/
def State.meterOwn (s : State) (k x : Nat) : State :=
  let r := s.meterTake k x
  (r.2.setLedger k (r.2.ledger k + r.1)).setLedger 0 (r.2.ledger 0 + r.1)

/-- METER_SAMPLE: one sample of 100 µs of a rail of counter k, in µA and mV (R319, log entry 42). -/
def execMeterSample (k : BitVec 3) (ua mv : Word) (s : State) : Host.Outcome State Fault Refusal :=
  .next (s.iff (s.meterOn && decide (1 ≤ k.toNat) && decide (k.toNat ≤ 5)) (fun t =>
    t.meterOwn k.toNat (ua.toNat * mv.toNat)))

/-- Energy into the pack (`charge`) or out of it, in 0.1 pJ (R320, R321). -/
def State.packMove (s : State) (charge : Bool) (x : Nat) : State :=
  let k := if charge then 6 else 7
  let r := s.meterTake k x
  let s1 := r.2.setLedger k (r.2.ledger k + r.1)
  s1.setLedger 8 (if charge then s1.ledger 8 + r.1 else s1.ledger 8 - r.1)

/-- PACK_SAMPLE: one sample of 1 ms of the shunt voltage and of VBUS_SENSE, in µV (R320, log entry 42). -/
def execPackSample (shunt vbus : Word) (s : State) : Host.Outcome State Fault Refusal :=
  let v := signedN 32 shunt.toNat
  let x := v.natAbs * vbus.toNat * s.fget fGIRTH_PACK_CFG_vbus_div * 10000 / (256 * s.fget fGIRTH_PACK_CFG_shunt_uohm)
  .next (s.iff (s.meterOn && decide (v ≠ 0)) (fun t => t.packMove (decide (0 < v)) x))

/-- MAINS_OK_EDGE: the ball changes and its debounce of 10 ms starts again (R320). -/
def execMainsOkEdge (level : Bool) (s : State) : Host.Outcome State Fault Refusal :=
  .next (s.iff (s.pkg.mains != level) (fun t =>
    ({ t with pkg := { t.pkg with mains := level } } : State).modGirth (fun g => { g with debounce := true })))

/-! ## The ledger (R322, R323) -/

/-- Counter `sel` of the latched reads: 0–10 of Table 13-1, 16 + t of tenant t. -/
def State.counter (s : State) (sel : Nat) : Nat := if sel < 16 then s.ledger sel else s.tledger (sel - 16)

/-- The register at which a master reads a counter: its tenant page for an engine. -/
def counterAddr (m : Master) (sel : Nat) : Nat :=
  match m with
  | .core (.eng _) => if sel < 16 then aGIRTH_LEDGER sel 0 else 0x10018000 + (sel - 16) * 0x100
  | _ => if sel < 16 then aGIRTH_LEDGER sel 0 else aGIRTH_TLEDGER (sel - 16) 0

/-- The key of a master's latch of a counter. -/
def latchKey (m : Master) (sel : Nat) : Nat := shadowOf m * 32 + sel

/-- A read of the low word: the high word is latched for that master. -/
def State.ledgerLow (s : State) (m : Master) (sel : Nat) : Word × State :=
  let v := s.counter sel
  (BitVec.ofNat 32 v, s.modGirth (fun g => { g with latch := tabSet none g.latch (latchKey m sel) (some (v / 2 ^ 32)) }))

/-- A read of the high word: the latched one, which is released, or the live one. -/
def State.ledgerHigh (s : State) (m : Master) (sel : Nat) : Word × State :=
  match tabGet none s.girth.latch (latchKey m sel) with
  | some v => (BitVec.ofNat 32 v, s.modGirth (fun g => { g with latch := tabSet none g.latch (latchKey m sel) none }))
  | none => (BitVec.ofNat 32 (s.counter sel / 2 ^ 32), s)

/-- A counter that has this number. -/
def counterIs (sel : Nat) : Bool := decide (sel ≤ 10) || decide (16 ≤ sel)

/-- LEDGER_LOW_READ (R323). -/
def execLedgerLowRead (m : Master) (sel : BitVec 5) (s : State) : Host.Outcome State Fault Refusal :=
  .next (s.iff (counterIs sel.toNat) (fun t =>
    t.regGateRead m (counterAddr m sel.toNat) (fun u => (u.ledgerLow m sel.toNat).2)))

/-- LEDGER_HIGH_READ (R323). -/
def execLedgerHighRead (m : Master) (sel : BitVec 5) (s : State) : Host.Outcome State Fault Refusal :=
  .next (s.iff (counterIs sel.toNat) (fun t =>
    t.regGateRead m (counterAddr m sel.toNat + 4) (fun u => (u.ledgerHigh m sel.toNat).2)))

/-- A write of the low word of PACK_EST: it waits for the high word (R323). -/
def State.packEstLo (s : State) (v : Nat) : State := s.modGirth (fun g => { g with estLo := some v })

/-- A write of the high word of PACK_EST: the estimate is set (R321, R323). -/
def State.packEstHi (s : State) (v : Nat) : State :=
  let lo := s.girth.estLo.getD (s.ledger 8 % 2 ^ 32)
  (s.setLedger 8 (v * 2 ^ 32 + lo)).modGirth (fun g => { g with estLo := none })

/-- PACK_EST_WRITE (R321, R323). -/
def execPackEstWrite (m : Master) (v : Word) (s : State) : Host.Outcome State Fault Refusal :=
  .next (s.regGate m (aGIRTH_LEDGER 8 1) (fun t => t.packEstHi v.toNat))

/-- Address of the persistent copy of the ledger (R322; its layout is log entry 47). -/
def ledgerCopy : Nat := 0x05020000

/-- The persistent copy written: counters, tenants' counters, residency (R322). -/
def State.ledgerPersist (s : State) : State :=
  let s1 := (List.range 11).foldl (fun t k => t.writeBytes (ledgerCopy + 8 * k) (leBytes 8 (t.ledger k))) s
  let s2 := (List.range 16).foldl (fun t k => t.writeBytes (ledgerCopy + 0x80 + 8 * k) (leBytes 8 (t.tledger k))) s1
  (List.range 4).foldl (fun t k =>
    t.writeBytes (ledgerCopy + 0x100 + 4 * k) (leBytes 4 (t.fget (fPWR_RESID_seconds k)))) s2

/-- GIRTH_CTRL (R329): a write whose best plan is worse than its worst is ignored whole; up_hold 0 is not taken. -/
def State.girthCtrlWrite (s : State) (v : Nat) : State :=
  if bitsN v 25 24 < bitsN v 27 26 then s
  else
    let w := s.setReg aGIRTH_CTRL (BitVec.ofNat 32 (bitsN v 31 24 * 2 ^ 24 + s.fget fGIRTH_CTRL_up_hold))
    if v % 65536 = 0 then w else w.fset fGIRTH_CTRL_up_hold v

/-- GIRTH_CTRL_WRITE (R329). -/
def execGirthCtrlWrite (m : Master) (v : Word) (s : State) : Host.Outcome State Fault Refusal :=
  .next (s.regGate m aGIRTH_CTRL (fun t => t.girthCtrlWrite v.toNat))

/-! ## The cost model (R325, Table 13-2) -/

/-- The plan in force: 0 FULL, 1 LEAN, 2 FRUGAL, 3 SURVIVAL, whose units are those of FRUGAL in a window. -/
def State.plan (s : State) : Nat := s.fget fGIRTH_STATUS_plan

/-- Cost of the converter of path p under plan q, mW; FULL has the rate that the image set (log entry 44). -/
def State.adcMw (s : State) (q p : Nat) : Nat :=
  let rate := if s.plan = 0 then s.fget (fRADIO_PATH_CTRL_rate p) else tabGet 0 s.girth.fullRate p
  if !s.hasPath p || s.fget (fRADIO_PATH_CTRL_state_req p) = 0 || (p = 1 && 2 ≤ q) then 0
  else if 1 ≤ q || rate = 1 then 455 else 900

/-- Tuner t lies below 1,000 MHz (R84). -/
def State.tunerLow (s : State) (t : Nat) : Bool :=
  decide (2 * s.fget (fRADIO_TUNER_CFG_centre_khz t) + spanKhz (s.fget (fRADIO_TUNER_CFG_span t)) ≤ 2000000)

/-- Tuners that plan q leaves enabled. -/
def State.tunersOf (s : State) (q : Nat) : Nat :=
  ((List.range 16).filter (fun t =>
    (s.fon (fRADIO_TUNER_CFG_en t) || (s.plan ≠ 0 && s.girth.fullTuners.contains t))
      && (q == 0 || s.tunerLow t) && (decide (q < 2) || decide (t < 8)))).length

/-- Receivers that a plan keeps: every one, the LEAN set, the FRUGAL set (R332). -/
def State.rxKept (s : State) (q n : Nat) : Bool :=
  match q with
  | 0 => true
  | 1 => s.girth.leanSet.contains n
  | _ => s.girth.frugalSet.contains n

/-- Base(p) in mW (R325): the units of Table 13-2 in the running configuration; sixteenths of a mW are dropped (log
entry 48). -/
def State.baseMw (s : State) (q : Nat) : Nat :=
  let regions := Config.regions s.variant
  let kept := if q = 0 then regions else min regions (if q = 1 then 2 else 1)
  let rx := (s.rxOn.filter (fun n => s.rxKept q n)).length
  let cores := if q = 0 then 2 * regions else if q = 1 then min 4 (2 * regions) else 1
  let sram := 50 + 75 * kept + (if 2 ≤ q && 2 ≤ regions then 24 else 0)
  let chain (c : Nat) : Nat := if (c = 0 || Config.hasB s.variant) && s.fget (fRADIO_TX_CTRL_state_req c) ≠ 0 then 40 else 0
  let chains := (if q ≤ 1 then chain 0 else 0) + (if q = 0 then chain 1 else 0)
  let eth := 125 * ((List.range 2).filter (fun p => s.fget (fETH_CFG_mode p) ≠ 0 && (q < 2 || bitN s.girth.ethFrugal p))).length
  let whole := s.adcMw q 0 + s.adcMw q 1 + 50 * s.tunersOf q + 50 * cores + sram + chains + eth + 80 + 130 + 40 * kept
    + (if q = 0 && Config.hasDie1 s.variant then 10 else 0) + 80
  whole + 25 * rx / 16

/-- GIRTH_PLAN_COST as it reads. -/
def State.planCost (s : State) (q : Nat) : Word := BitVec.ofNat 32 (s.baseMw (min q 2) % 65536)

/-! ## The close (R324, R326–R331) -/

/-- What tenant t is charged in the frame that ends: its TX charges and its ENGINE charge in whole µJ (R326). -/
def State.txOf (s : State) (t : Nat) : Nat := tabGet 0 s.radio.agent.used t

/-- The ENGINE charge of tenant t in whole µJ, rounded down (R326). -/
def State.engOf (s : State) (t : Nat) : Nat := tabGet 0 s.girth.engPj t / 1000000

/-- The sum of f over the tenants. -/
def sumT (f : Nat → Nat) : Nat := (List.range 16).foldl (fun a t => a + f t) 0

/-- The charges booked: TX, ENGINE, the tenants' counters and their last frames; less than 1 µJ stays (R326, R327). -/
def State.bookCharges (s : State) : State :=
  let tx := sumT s.txOf
  let eng := sumT s.engOf
  let s1 := (s.setLedger 9 (s.ledger 9 + tx)).setLedger 10 (s.ledger 10 + eng)
  let s2 := (List.range 16).foldl (fun u t => u.setTledger t (u.tledger t + s.txOf t + s.engOf t)) s1
  s2.modGirth (fun g => { g with
    lastUse := (List.range 16).foldl (fun a t => tabSet 0 a t (s.txOf t + s.engOf t)) []
    engPj := (List.range 16).foldl (fun a t => tabSet 0 a t (tabGet 0 s.girth.engPj t % 1000000)) [] })

/-- The mean of TX and ENGINE power over the last 60 closes, µJ per second (R328). -/
def workMean (xs : List WorkItem) : Nat :=
  (xs.foldl (fun a x => a + x.uj * 1000000000 / max 1 x.len) 0) / max 1 xs.length

/-- Energy available, µJ per second (R328). -/
def State.avail (s : State) : Int :=
  ((s.ledger 8 : Int) - s.fget fGIRTH_RESERVE_reserve_j * 1000000) / ((max (s.fget fGIRTH_HORIZON_horizon) 1 : Nat) : Int)

/-- base[p] of the planner, µJ per second. -/
def State.baseUw (s : State) (q : Nat) : Nat := s.baseMw (min q 2) * 1000

/-- ext_base, µJ per second. -/
def State.extUw (s : State) : Nat := s.fget fGIRTH_EXT_ext_base_mw * 1000

/-- Plan q fits the available energy with the margin (R328). -/
def State.planFits (s : State) (work : Nat) (r : Int) (q : Nat) : Bool :=
  decide (((s.baseUw q + s.extUw + work) * (1000 + s.fget fGIRTH_EXT_margin_pm) : Int) ≤ 1000 * r)

/-- The planner's target (R328). -/
def State.planTarget (s : State) (work : Nat) (r : Int) : Nat :=
  let best := s.fget fGIRTH_CTRL_plan_max
  let worst := s.fget fGIRTH_CTRL_plan_min
  if s.fon fGIRTH_CTRL_force then s.fget fGIRTH_CTRL_force_plan
  else if !s.fon fGIRTH_CTRL_auto then s.plan
  else if s.fon fGIRTH_STATUS_mains_ok then best
  else (((List.range 4).filter (fun q => decide (best ≤ q) && decide (q ≤ worst))).find? (s.planFits work r)).getD worst

/-- The plan set, with its counter and the ALARM to the supervisor (R328). -/
def State.setPlan (s : State) (q : Nat) : State :=
  let s1 := if s.plan < q then s.finc fGIRTH_COUNT_plan_down else s.finc fGIRTH_COUNT_plan_up
  ((s1.fset fGIRTH_STATUS_plan q).fset fGIRTH_STATUS_hold 0).alarm 4 q 0

/-- The planner follows its target: a worse plan at once, a better one after up_hold closes, a level at a time (R328). -/
def State.planFollow (s : State) (target : Nat) : State :=
  let s1 := s.fset fGIRTH_STATUS_target target
  let hold := s.fget fGIRTH_STATUS_hold + 1
  if s.plan < target then s1.setPlan target
  else if target < s.plan then
    if s.fget fGIRTH_CTRL_up_hold ≤ hold then s1.setPlan (s.plan - 1) else s1.fset fGIRTH_STATUS_hold hold
  else s1.fset fGIRTH_STATUS_hold 0

/-- The planner's step at a close. In SLEEP no plan changes; in SURVIVAL the target is only recorded, for the
end of the window (R335, R343; log entries 48 and 50). -/
def State.planStep (s : State) (work : Nat) (r : Int) : State :=
  let target := s.planTarget work r
  if s.plan = 3 then
    { (s.fset fGIRTH_STATUS_target target) with pkg := { s.pkg with
        winCloses := s.pkg.winCloses + 1, winBetter := s.pkg.winBetter && decide (target < 3) } }
  else if s.pkg.power = .sleep then (s.fset fGIRTH_STATUS_target s.plan).fset fGIRTH_STATUS_hold 0
  else s.planFollow target

/-- The allowance of the next frame under plan q, µJ, with the bases that the planner has tested; a computed one stays
below the value that means unlimited (R328, log entry 48). -/
def State.nextW (s : State) (r : Int) (q : Nat) : Nat :=
  if s.fon fGIRTH_STATUS_mains_ok then s.fget fGIRTH_MAINS_W_w_mains
  else min 0xFFFFFFFE (r - s.baseUw q - s.extUw).toNat

/-- GIRTH_FRAME of the frame that ends: `f` its number, `len` its length, `base` the mW of its plan, `own` and `net`
measured. -/
def State.frameRegs (s : State) (f len base own : Nat) (net : Int) (charged w : Nat) : State :=
  let err : Int := (own : Int) - ((base * len / 1000000 : Nat) : Int) - charged
  (((((s.fset fGIRTH_FRAME_frame f).fset fGIRTH_FRAME_own own).fset fGIRTH_FRAME_pack_net (unsignedN 32 net)).fset
    fGIRTH_FRAME_allowance w).fset fGIRTH_FRAME_charged charged).fset fGIRTH_FRAME_model_err (unsignedN 32 err)

/-! ## Frequencies (R22, R331) -/

/-- A cluster runs at the frequency of code v from now on; CYCLO goes on counting (R22, R226). -/
def State.setFreq (s : State) (c v : Nat) : State :=
  let half := (s.mono - (s.clu c).cycAt) * (s.mhz c / 20)
  (s.modClu c (fun x => { x with cyc2 := if x.released then x.cyc2 + half else x.cyc2, cycAt := s.mono })).fset
    (fENGCTL_CL_freq c) v

/-- The energy plan, SLEEP or a die without power holds the cluster (R29, R333, R343). -/
def State.cluHeld (s : State) (c : Nat) : Bool := (enginesOf c).all (fun i => (s.eng i).hold)

/-- R331 for a cluster of tenant t, from the use and allowance of the frame that ends. -/
def State.freqClamp (s : State) (a : AgentSt) (c : Nat) : State :=
  match s.clusterTenant c with
  | none => s
  | some t =>
    let k := tabGet 0 s.girth.clamp c
    let code := s.fget (fENGCTL_CL_freq c)
    let sh := tabGet (0, 0) a.share t
    let free := a.w == 0xFFFFFFFF
    if !s.started t then s
    else if !free && decide (sh.2 * a.w / 1000 < a.use t) then
      if code = 0 || !(s.clu c).released || s.cluHeld c then s
      else
        ((s.setFreq c (code - 1)).finc fGIRTH_COUNT_freq_clamp).modGirth (fun g => { g with
          clamp := tabSet 0 g.clamp c (k + 1), clampCount := tabSet 0 g.clampCount t (tabGet 0 g.clampCount t + 1) })
    else if (free || decide (a.use t ≤ sh.1 * a.w / 1000)) && decide (k ≠ 0) then
      (s.setFreq c (code + 1)).modGirth (fun g => { g with clamp := tabSet 0 g.clamp c (k - 1) })
    else s

/-- The planner's message for the next frame (R318, R330). -/
def State.planMessage (s : State) (w : Nat) (eng : List Nat) : State :=
  s.modAgent (fun a => { a with
    used := [], engine := []
    msg := some { w := w, urgPm := s.fget fGIRTH_URG_urg_res_pm
                  share := (List.range 16).map (fun t => (s.fget (fGIRTH_TSHARE_guar_pm t), s.fget (fGIRTH_TSHARE_ceil_pm t)))
                  engine := eng } })

/-- OWN, PACK_IN and PACK_OUT of the frame that opens now. -/
def State.openFrame (s : State) : State :=
  s.modGirth (fun g => { g with open0 := [0, 6, 7].foldl (fun a k => tabSet 0 a k (s.ledger k)) [] })

/-- Frame `f` of `len` ns closes (R328): the ledger is booked and copied, the plan and the allowance chosen, the message
sent, the frequencies clamped. -/
def State.closeFrame (s : State) (f len : Nat) : State :=
  let a := s.radio.agent
  let q := s.plan
  let eng := (List.range 16).map s.engOf
  let charged := sumT s.txOf + sumT s.engOf
  let own := s.ledger 0 - tabGet 0 s.girth.open0 0
  let net : Int := ((s.ledger 7 : Int) - tabGet 0 s.girth.open0 7) - ((s.ledger 6 : Int) - tabGet 0 s.girth.open0 6)
  let s1 := (s.bookCharges.modGirth (fun g => { g with
    work := ({ uj := charged, len := len } :: g.work).take 60 })).ledgerPersist
  let s2 := if s1.fon fGIRTH_STATUS_mains_ok then s1
    else s1.fset fGIRTH_HORIZON_horizon (s1.fget fGIRTH_HORIZON_horizon - 1)
  let r := s2.avail
  let s3 := s2.planStep (workMean s2.girth.work) r
  let w := s2.nextW r s3.plan
  let s4 := (s3.frameRegs f len (s2.baseMw (min q 2)) own net charged w).openFrame
  (List.range 16).foldl (fun t c => t.freqClamp a c) (s4.planMessage w eng)

/-- The partial frame closed before DEEP_SLEEP or OFF: the ledger booked and copied (Table 13-8). -/
def State.closePartial (s : State) : State :=
  (s.bookCharges.modAgent (fun a => { a with used := [], engine := [] })).ledgerPersist

/-! ## GIRTH_NACC (R336–R339) -/

/-- The answer of a GIRTH_NACC operation. -/
def State.naccStatus (s : State) (v : Nat) : State := s.fset fGIRTH_NACC_status v

/-- GIRTH_NACC started by a write of w0 (R339, log entry 53): one whole operation. -/
def State.naccWrite (s : State) (v : Nat) : State :=
  let n := bitsN v 16 0
  let op := bitsN v 31 28
  let arg := s.fget fGIRTH_NACC_arg
  let arg2 := s.fget fGIRTH_NACC_arg2
  if op = 0 || 4 < op then s
  else if (s.recTenant n 16).isNone then s.naccStatus 2
  else if op = 4 then (s.acctPut n {}).naccStatus 0
  else
    let r := s.acctTouch n
    let a := r.1
    match op with
    | 1 =>
      ((((r.2.acctPut n a).fset fGIRTH_NACC_arg a.allowance).fset fGIRTH_NACC_arg2 a.spent).fset fGIRTH_NACC_life_mj
        a.life).naccStatus 0
    | 2 => (r.2.acctPut n { a with allowance := arg, cls := bitsN arg2 3 0, enforce := bitN arg2 4, life := 0 }).naccStatus 0
    | _ =>
      if a.enforce && decide (a.allowance < a.spent + arg) then
        ((r.2.acctPut n { a with denied := true }).finc fGIRTH_COUNT_node_deny).naccStatus 1
      else (r.2.acctCharge n a arg).2.naccStatus 0

/-- The word of an operation on a record. -/
def naccWord (op : Nat) (n : BitVec 17) : Nat := op * 2 ^ 28 + n.toNat

/-- NACC_READ (R339). -/
def execNaccRead (m : Master) (n : BitVec 17) (s : State) : Host.Outcome State Fault Refusal :=
  .next (s.regGate m aGIRTH_NACC_w0 (fun t => t.naccWrite (naccWord 1 n)))

/-- NACC_SET (R339). -/
def execNaccSet (m : Master) (n : BitVec 17) (s : State) : Host.Outcome State Fault Refusal :=
  .next (s.regGate m aGIRTH_NACC_w0 (fun t => t.naccWrite (naccWord 2 n)))

/-- NACC_CHARGE (R337, R339). -/
def execNaccCharge (m : Master) (n : BitVec 17) (s : State) : Host.Outcome State Fault Refusal :=
  .next (s.regGate m aGIRTH_NACC_w0 (fun t => t.naccWrite (naccWord 3 n)))

/-- NACC_CLEAR (R339). -/
def execNaccClear (m : Master) (n : BitVec 17) (s : State) : Host.Outcome State Fault Refusal :=
  .next (s.regGate m aGIRTH_NACC_w0 (fun t => t.naccWrite (naccWord 4 n)))

end Sys2Proof.Machine
end

