-- ==== Sys2Proof/Machine/Latigo.lean ====
section
/-!
DEFINITION. The Latigo links: how the outstanding transactions of loads, stores, ports, coprocessors and MSG posts end, by
completion, by an error and its retraining, or by timeout (R39–R43; log entry 56).
-/

namespace Sys2Proof.Machine

/-- An access that loses its answer: what it would deliver is open (log entries 11 and 56). -/
def lostKind (k : OutKind) (x y : Word) : OutKind :=
  match k with
  | .load slot rd _ => .load slot rd x
  | .io slot rd _ => .io slot rd x
  | .loadPair slot rd _ _ => .loadPair slot rd x y
  | other => other

/-- The MSG of an access that is lost with its answer, by number. -/
def OutAcc.msgId (o : OutAcc) : Option Nat :=
  match o.kind with
  | .msg id => some id
  | _ => none

/-- The accesses of core n whose transaction on link l satisfies p, and the coprocessor answer it waits for through one, no
longer hold it; `lost`: without an answer. Whether a MSG so lost had reached its queue is open: a free bit says so, and one
that had not is never delivered (log entries 11 and 56). -/
def State.txnClose (s : State) (n l : Nat) (p : Nat → Bool) (lost : Bool) : State :=
  let a := s.free 32
  let b := a.2.free 32
  let hit (t : Option (Nat × Nat)) : Bool :=
    match t with
    | some (m, k) => m == l && p k
    | none => false
  let fix (o : OutAcc) : OutAcc :=
    if hit o.txn then { o with txn := none, kind := if lost then lostKind o.kind a.1 b.1 else o.kind } else o
  let gone (o : OutAcc) : Bool := lost && hit o.txn && o.msgId.isSome && a.1.getLsbD 0
  let e := s.eng n
  if e.outs.any (fun o => hit o.txn) || hit e.waitTxn then
    let ids := (e.outs.filter gone).filterMap OutAcc.msgId
    let s1 := b.2.modEng n (fun e => { e with
      outs := (e.outs.filter (fun o => !gone o)).map fix
      wait := if lost && hit e.waitTxn then e.wait.map (fun w => (w.1, a.1)) else e.wait
      waitTxn := if hit e.waitTxn then none else e.waitTxn })
    { s1 with flight := s1.flight.filter (fun f => match f.msg with
        | some (id, src) => !(src == n && ids.contains id)
        | none => true) }
  else s

/-- The transactions of link l that satisfy p end. -/
def State.txnsEnd (s : State) (l : Nat) (p : Nat → Bool) (lost : Bool) : State :=
  let s1 := s.setTxns l ((s.linkTxns l).filter (fun x => !p x.1))
  (List.range 129).foldl (fun t n => t.txnClose n l p lost) s1

/-- LATIGO_TRANSACTION_DONE: the transaction at place i of link l completes (R40). -/
def execLatigoTransactionDone (l : BitVec 3) (i : BitVec 7) (s : State) : Host.Outcome State Fault Refusal :=
  .next (match (s.linkTxns l.toNat)[i.toNat]? with
    | none => s
    | some (k, _) => s.txnsEnd l.toNat (fun j => j == k) false)

/-- LATIGO_TIMEOUT_EXPIRY: the transaction at place i of link l completes by its timeout (R43). -/
def execLatigoTimeoutExpiry (l : BitVec 3) (i : BitVec 7) (s : State) : Host.Outcome State Fault Refusal :=
  .next (match (s.linkTxns l.toNat)[i.toNat]? with
    | none => s
    | some (k, _) => (s.txnsEnd l.toNat (fun j => j == k) true).fsat (fLATIGO_ERRCNT_timeout_cnt l.toNat))

/-- LATIGO_CRC_ERROR: a flit sent for the `resend`-th time again fails its CRC; after the seventh the link retrains and
every outstanding transaction ends LINK_ERR (R42). -/
def execLatigoCrcError (l resend : BitVec 3) (s : State) : Host.Outcome State Fault Refusal :=
  let n := l.toNat
  .next (s.iff (s.hasLink n && s.linkState n == 2) (fun t =>
    let t1 := t.fsat (fLATIGO_ERRCNT_crc_err n)
    if resend = 7#3 then
      ((t1.txnsEnd n (fun _ => true) true).fset (fLATIGO_STATUS_state n) 3).fsat (fLATIGO_ERRCNT_resend_exh n)
    else t1))

/-- LATIGO_RETRAIN_END (R42). -/
def execLatigoRetrainEnd (l : BitVec 3) (s : State) : Host.Outcome State Fault Refusal :=
  .next (s.iff (s.linkState l.toNat == 3) (fun t => t.fset (fLATIGO_STATUS_state l.toNat) 2))

end Sys2Proof.Machine
end

