-- ==== Sys2Proof/Machine/Ports.lean ====
section
/-!
DEFINITION. The command ports of the node-table unit, the route table and the Ixtiern forwarder (R212–R224).
-/

namespace Sys2Proof.Machine

/-! ## Ports (R212, R213) -/

/-- Who asked: none for the supervisor (and the debug port), else the tenant of the engine. -/
def State.asker (s : State) (core : Nat) : Option Nat := if core = 128 then none else some (s.engTenant core)

/-- The command of port p. -/
def State.portCmd (s : State) (p : Nat) : Option PortCmd := tabGet none s.relay.ports p

/-- The command of port p set. -/
def State.setPort (s : State) (p : Nat) (x : Option PortCmd) : State :=
  s.modRelay (fun r => { r with ports := tabSet none r.ports p x })

/-- The counters of a status (TABLE_COUNT word 5). -/
def State.tableCount (s : State) (status : Nat) : State :=
  if status = 9 then s.finc fTABLE_COUNT_port_busy
  else if status = 7 || status = 8 || status = 10 then s.finc fTABLE_COUNT_bad_cmd else s

/-- A completion notice (Table 10-5). -/
def State.tableNotice (s : State) (core p op tag status addr : Nat) : State :=
  (s.tableCount status).post core 3 (op * 2 ^ 24 + status * 2 ^ 19 + p * 2 ^ 17 + tag) addr 0 0

/-- Word i of a command block. -/
def PortCmd.w (x : PortCmd) (i : Nat) : Nat := wordAt x.blk i

/-- Reserved ops, reserved bits and flags of another op (R213). -/
def PortCmd.malformed (x : PortCmd) : Bool :=
  let op := bitsN (x.w 0) 31 28
  op == 0 || decide (9 ≤ op) || bitsN (x.w 0) 27 19 != 0 || (op != 7 && bitsN (x.w 0) 18 17 != 0) || (op != 2 && bitN (x.w 0) 16)

/-- What a command answers: status, way, set, word 2, words 4–11. -/
structure PortAns where
  status : Nat
  way : Nat := 0
  set : Nat := 0
  arg2 : Nat
  entry : List Byte
  deriving DecidableEq, Repr

/-- The answer that changes nothing but the status. -/
def PortCmd.plain (x : PortCmd) (status : Nat) : PortAns := { status := status, arg2 := x.w 2, entry := x.blk.drop 16 }

/-- The result words go back into the block, which was checked at GO (R213, R281), the notice follows, and the port is free
(R212). -/
def State.portAnswer (s : State) (p : Nat) (x : PortCmd) (a : PortAns) : State :=
  let bs := leBytes 4 a.arg2 ++ leBytes 4 (a.status + a.way * 2 ^ 5 + a.set * 2 ^ 8) ++ a.entry
  let s1 := s.dmaPut (s.asker x.core) x.core (aliasAddr x.core x.addr + 8) bs
  (s1.setPort p none).tableNotice x.core p (bitsN (x.w 0) 31 28) (bitsN (x.w 0) 15 0) a.status x.addr

/-- Port p fetches the block at a for core n: an uncorrectable word is FENCE, a malformed command BAD_CMD (R213). -/
def State.portFetch (s : State) (core p a : Nat) : State :=
  match s.dmaRead (s.asker core) core (aliasAddr core a) 48 with
  | (none, s1) => (s1.setPort p none).tableNotice core p 0 0 10 a
  | (some b, s1) =>
    let x : PortCmd := { core := core, addr := a, blk := b }
    if x.malformed then s1.portAnswer p x (x.plain 8) else s1.setPort p (some x)

/-- A write of TABLE_PORT_GO by a core (R213, R292): refused, or the block fetched and the port busy; a block in a granule
that is being cleared is fetched once that has ended (R355). -/
def State.tableGo (s : State) (core p a : Nat) : State :=
  let t := s.asker core
  let refuse (st : Nat) (u : State) : State := u.tableNotice core p 0 0 st a
  let frozen := match t with
    | some u => s.suspended u
    | none => false
  let addr := aliasAddr core a
  if (s.portCmd p).isSome || frozen then refuse 9 s
  else if a % 8 ≠ 0 then refuse 8 s
  else if s.dmaOk t core addr 48 false && s.dmaOk t core addr 48 true then
    if s.dmaWaits core (addr, 48) then s.setPort p (some { core := core, addr := a, blk := [] }) else s.portFetch core p a
  else refuse 10 (s.dmaRefuse t addr (s.dmaOk t core addr 48 false))

/-- The relay unit asks for the pipeline: it can take its next entry, or a verification has ended (R211). -/
def State.relayAsks (s : State) : Bool :=
  s.fon fRELAY_CTRL_en && ((s.relayNext (fun _ => true)).isSome || (s.relay.job.isSome && !s.cipher.relayDone.isEmpty))

/-- The command of port p can run: its block is there, its result can be written, and the message that a FORWARD reads can
be read (R355, R363). -/
def State.portReady (s : State) (p : Nat) : Bool :=
  (s.portCmd p).any (fun x => !x.blk.isEmpty && !s.dmaWaits x.core (aliasAddr x.core x.addr, 48)
    && !(bitsN (x.w 0) 31 28 == 7 && s.dmaWaits x.core (aliasAddr x.core (x.w 1), bitsN (x.w 2) 8 0)))

/-- The port that the pipeline serves next: in rotation after the one served last (R211). -/
def State.portPick (s : State) : Option Nat :=
  ((List.range 4).map (fun i => (s.relay.lastPort + 1 + i) % 4)).find? s.portReady

/-- The command at port p asks for what it waits for: its block, or lines of the flash window. -/
def State.portAsk (s : State) (p : Nat) (x : PortCmd) : State :=
  if x.blk.isEmpty then s.iff (!s.dmaWaits x.core (aliasAddr x.core x.addr, 48)) (fun t => t.portFetch x.core p x.addr)
  else s.iff (bitsN (x.w 0) 31 28 == 7) (fun t => t.dmaAsk (aliasAddr x.core (x.w 1), bitsN (x.w 2) 8 0))

/-- The command of op at port p runs: its answer and its state. The relay unit goes first, then the ports in rotation
(R211). -/
def State.portRun (s : State) (p op : Nat) (k : PortCmd → Option Nat → State → PortAns × State) : State :=
  match s.portCmd p with
  | none => s
  | some x =>
    if !s.portReady p then s.portAsk p x
    else if bitsN (x.w 0) 31 28 ≠ op || s.relayAsks || s.portPick ≠ some p then s
    else
      let r := k x (s.asker x.core) (s.modRelay (fun y => { y with lastPort := p }))
      r.2.portAnswer p x r.1

/-- The tenant may see an entry. -/
def sees (q : Option Nat) (n : Node) : Bool :=
  match q with
  | none => true
  | some t => n.tenant == t

/-- Set and way of an entry's address. -/
def wayOf (a : Nat) : Nat × Nat := ((a - 0x04000000) / 0x100, (a - 0x04000000) / 0x20 % 8)

/-! ## Node commands (R208, R214, R215) -/

/-- LOOKUP. -/
def State.cmdLookup (x : PortCmd) (q : Option Nat) (s : State) : PortAns × State :=
  match s.nodeLookup (x.w 1) with
  | (some (a, n), s1) =>
    if sees q n then ({ x.plain 0 with way := (wayOf a).2, set := (wayOf a).1, entry := nodeBytes n }, s1)
    else (x.plain 3, s1)
  | (none, s1) => (x.plain 3, s1)

/-- LOOKUP (R215). -/
def execLookup (p : BitVec 2) (s : State) : Host.Outcome State Fault Refusal := .next (s.portRun p.toNat 1 State.cmdLookup)

/-- DELETE. -/
def State.cmdDelete (x : PortCmd) (q : Option Nat) (s : State) : PortAns × State :=
  match s.nodeLookup (x.w 1) with
  | (some (a, n), s1) =>
    if sees q n then ({ x.plain 0 with way := (wayOf a).2, set := (wayOf a).1 }, s1.nodeWrite a { n with valid := false })
    else (x.plain 3, s1)
  | (none, s1) => (x.plain 3, s1)

/-- DELETE (R215). -/
def execDelete (p : BitVec 2) (s : State) : Host.Outcome State Fault Refusal := .next (s.portRun p.toNat 3 State.cmdDelete)

/-- READ_WAY: the supervisor's. -/
def State.cmdReadWay (x : PortCmd) (q : Option Nat) (s : State) : PortAns × State :=
  if q.isSome then (x.plain 7, s)
  else if 2 ^ 17 ≤ x.w 1 then (x.plain 8, s)
  else
    let a := nodeAddr (bitsN (x.w 1) 16 3) (bitsN (x.w 1) 2 0)
    let r := s.nodeRead a
    ({ x.plain 0 with way := (wayOf a).2, set := (wayOf a).1, entry := nodeBytes r.1 }, r.2)

/-- READ_WAY (R208). -/
def execReadWay (p : BitVec 2) (s : State) : Host.Outcome State Fault Refusal := .next (s.portRun p.toNat 4 State.cmdReadWay)

/-- The stored entry with the firmware fields of e, its counter not lowered, and with restore its learned fields (R214). -/
def Node.updated (w e : Node) (restore : Bool) : Node :=
  let n : Node := { w with pinned := e.pinned, pend := e.pend, here := e.here, tenant := e.tenant, record := e.record
                           home := e.home, user := e.user, ctr := max w.ctr e.ctr }
  if restore then { n with hit := e.hit, clear1 := e.clear1, receiver := e.receiver, branch := e.branch, mode := e.mode
                           heard := e.heard, rssi := e.rssi, vcount := e.vcount }
  else n

/-- The way that a new entry takes: the lowest invalid one, else the unpinned one heard longest ago (R214). -/
def State.insertWay (s : State) (ws : List (Nat × Node)) : Option (Nat × Node) :=
  match ws.find? (fun e => !e.2.valid) with
  | some e => some e
  | none =>
    let age (n : Node) : Nat := (s.cinch.frame + 2 ^ 32 - n.heard) % 2 ^ 32
    (ws.filter (fun e => !e.2.pinned)).foldl (fun b e => match b with
      | none => some e
      | some y => if age y.2 < age e.2 then some e else some y) none

/-- INSERT (R214). -/
def State.cmdInsert (x : PortCmd) (q : Option Nat) (s : State) : PortAns × State :=
  let e : Node := { nodeOf (x.blk.drop 16) with valid := true }
  let id := x.w 1
  let t := e.tenant
  let restore := bitN (x.w 0) 16
  let b := s.fget (fTABLE_TQUOTA_rec_base t)
  let c := s.fget (fTABLE_TQUOTA_rec_count t)
  let pinFull := s.nodePinned t == s.fget (fTABLE_TQUOTA_max_pinned t)
  if !isNodeId id || e.id != id || e.here != (e.home == s.device) then (x.plain 8, s)
  else if q.isSome && (q != some t || restore) then (x.plain 7, s)
  else if e.record < b || b + c ≤ e.record then (x.plain 5, s)
  else
    match s.nodeLookup id with
    | (some (a, w), s1) =>
      if !sees q w then (x.plain 6, s1)
      else if e.pinned && !w.pinned && pinFull then (x.plain 5, s1)
      else ({ x.plain 0 with way := (wayOf a).2, set := (wayOf a).1 }, s1.nodeWrite a (w.updated e restore))
    | (none, s1) =>
      if s1.nodeEntries t == c || (e.pinned && pinFull) then (x.plain 5, s1)
      else
        let set := s1.nodeSet id
        let r := s1.nodeWays set 0 8
        match r.2.insertWay r.1 with
        | none => (x.plain 4, r.2.finc fTABLE_COUNT_set_pinned)
        | some (w, old) =>
          let n : Node := if restore then e
            else { e with heard := r.2.cinch.frame, hit := true, clear1 := false, receiver := 0, branch := 0, mode := 0
                          rssi := 0, vcount := 0 }
          let s2 := (if old.valid then r.2.finc fTABLE_COUNT_evicted else r.2).nodeWrite (nodeAddr set w) n
          ({ x.plain (if old.valid then 2 else 1) with
             way := w, set := set, arg2 := if old.valid && sees q old then old.id else 0 }, s2)

/-- INSERT (R214). -/
def execInsert (p : BitVec 2) (s : State) : Host.Outcome State Fault Refusal := .next (s.portRun p.toNat 2 State.cmdInsert)

/-! ## Routes (R218) -/

/-- Address of the route entry of a device. -/
def routeAddr (d : Nat) : Nat := 0x04520000 + d * 16

/-- The four words of a route entry; none when a word is uncorrectable (Table 14-2). -/
def State.route (s : State) (d : Nat) : Option (List Byte) × State :=
  let r := s.readWords (routeAddr d) 2 0x7F
  (if r.2.1 then some r.1 else none, r.2.2)

/-- Devices whose entry has nbr set. -/
def State.neighbours (s : State) : List Nat :=
  (List.range 4096).filter (fun d => bitsN (s.num (routeAddr d) 4) 31 30 == 3)

/-- Entries with nbr = 1, valid or not. -/
def State.nbrCount (s : State) : Nat :=
  (s.mem.filter (fun e => 0x04520000 ≤ e.1 && e.1 < 0x04530000 && e.1 % 16 == 3 && bitN e.2.toNat 6)).length

/-- ROUTE_SET: the supervisor's. -/
def State.cmdRouteSet (x : PortCmd) (q : Option Nat) (s : State) : PortAns × State :=
  let d := x.w 1
  let w0 := x.w 4
  let via := bitsN w0 29 27
  let old := b2n (bitN (s.num (routeAddr d) 4) 30)
  if q.isSome then (x.plain 7, s)
  else if 4096 ≤ d || 5 ≤ via || bitsN w0 26 24 == 7 || (d == s.device) != (via == 1)
      || decide (16 < s.nbrCount - old + b2n (bitN w0 30)) then (x.plain 8, s)
  else (x.plain 0, s.writeBytes (routeAddr d) ((x.blk.drop 16).take 16))

/-- ROUTE_SET (R218). -/
def execRouteSet (p : BitVec 2) (s : State) : Host.Outcome State Fault Refusal := .next (s.portRun p.toNat 5 State.cmdRouteSet)

/-- ROUTE_GET: the supervisor's. -/
def State.cmdRouteGet (x : PortCmd) (q : Option Nat) (s : State) : PortAns × State :=
  if q.isSome then (x.plain 7, s)
  else if 4096 ≤ x.w 1 then (x.plain 8, s)
  else
    match s.route (x.w 1) with
    | (some b, s1) => ({ x.plain 0 with entry := b ++ x.blk.drop 32 }, s1)
    | (none, s1) => (x.plain 11, s1)

/-- ROUTE_GET (R218). -/
def execRouteGet (p : BitVec 2) (s : State) : Host.Outcome State Fault Refusal := .next (s.portRun p.toNat 6 State.cmdRouteGet)

/-! ## Inboxes (R223) -/

/-- Size of tenant t's inbox. -/
def State.inboxSize (s : State) (t : Nat) : Nat := 1024 * 2 ^ s.fget (fTABLE_TINBOX_s t)

/-- INBOX_RD: the requester's inbox; a supervisor has none. -/
def State.cmdInboxRd (x : PortCmd) (q : Option Nat) (s : State) : PortAns × State :=
  match q with
  | none => (x.plain 8, s)
  | some t =>
    let rd := s.fget (fTABLE_TINBOX_rd t)
    if countDiff (x.w 1 % 2 ^ 24) rd ≤ countDiff (s.fget (fTABLE_TINBOX_wr t)) rd && decide (x.w 1 < 2 ^ 24) then
      (x.plain 0, s.fset (fTABLE_TINBOX_rd t) (x.w 1))
    else (x.plain 8, s)

/-- INBOX_RD (R223). -/
def execInboxRd (p : BitVec 2) (s : State) : Host.Outcome State Fault Refusal := .next (s.portRun p.toNat 8 State.cmdInboxRd)

/-- A message appended to the inbox of a tenant, or dropped (R223). -/
def State.inboxPut (s : State) (t : Nat) (m : List Byte) : Nat × State :=
  let size := s.inboxSize t
  let wr := s.fget (fTABLE_TINBOX_wr t)
  let n := (m.length + 7) / 8 * 8
  if !s.started t || !s.fon (fTABLE_TINBOX_valid t)
      || decide (size < countDiff wr (s.fget (fTABLE_TINBOX_rd t)) + n) then (15, s.finc fTABLE_COUNT_inbox_full)
  else
    let base := (s.reg (aTABLE_TINBOX_w0 t)).toNat
    let body := takePad n m
    let room := size - wr % size
    let s1 := s.writeBytes (base + wr % size) (body.take room)
    let s2 := if n ≤ room then s1 else s1.writeBytes base (body.drop room)
    let s3 := s2.fset (fTABLE_TINBOX_wr t) (wr + n)
    (13, (s3.post (s3.fget (fTABLE_TINBOX_target t)) 6 (s3.fget (fTABLE_TINBOX_wr t)) base 0 0).finc fTABLE_COUNT_fwd_sent)

/-! ## The forwarder (R219–R224) -/

/-- An Ixtiern message: header fields and body (Table 8-7). -/
structure Ixt where
  version : Nat
  kind : Nat
  hops : Nat
  tenant : Nat
  src : Nat
  byNode : Bool
  flooded : Bool
  dst : Nat
  length : Nat
  msgId : Nat
  node : Nat
  body : List Byte
  deriving DecidableEq, Repr

/-- The message of some bytes. -/
def ixtOf (b : List Byte) : Ixt :=
  let w0 := wordAt b 0
  let w1 := wordAt b 1
  { version := bitsN w0 7 4, kind := bitsN w0 3 0, hops := bitsN w0 15 12, tenant := bitsN w0 11 8, src := bitsN w0 27 16
    byNode := bitN w0 28, flooded := bitN w0 29, dst := bitsN w1 11 0, length := bitsN w1 24 16, msgId := wordAt b 2
    node := wordAt b 3, body := b.drop 16 }

/-- The bytes of a message. -/
def Ixt.bytes (m : Ixt) : List Byte :=
  leBytes 4 (m.version * 16 + m.kind + m.hops * 2 ^ 12 + m.tenant * 2 ^ 8 + m.src * 2 ^ 16 + b2n m.byNode * 2 ^ 28
      + b2n m.flooded * 2 ^ 29)
    ++ leBytes 4 (m.dst + m.length * 2 ^ 16) ++ leBytes 4 m.msgId ++ leBytes 4 m.node ++ m.body

/-- A BACKBONE frame for a next hop (R220); without a system key nothing is sent. -/
def State.airSend (s : State) (m : Ixt) (r : List Byte) : State :=
  let w0 := wordAt r 0
  let l2 := wordAt r 2
  let freq := wordAt r 1
  let mode := bitsN l2 31 28
  if !(s.keySlot 1).valid then s
  else
    let c := s.takeCtr
    let body := m.bytes
    let f : Frame := { fc := 5 + 2 ^ 7, seq := m.msgId % 65536, src := s.airAddr, dst := 0xFFFE0000 + bitsN w0 23 12
                       ctr := c.1, len := body.length + 28 }
    let sub := bitsN l2 23 20
    let x : TxCmd := { who := .relay { kind := .backbone }, freq := freq, power := bitsN l2 19 12, mode := mode, sub := sub
                       prio := bitsN w0 26 24, urgent := false, tenant := m.tenant, access := if s.subLbt sub then 0 else 2
                       code := bitsN l2 27 24, len := body.length + 28, startF := s.cinch.frame, startNs := s.nowNs
                       lateUs := 20000 }
    c.2.sealFrame false 1 7 f body ((c.2.chainFor freq (modeWidth mode)).getD 0) x

/-- An Ethernet port changed. -/
def State.modPort (s : State) (p : Nat) (f : EthPort → EthPort) : State :=
  { s with wired := { s.wired with ports := tabSet {} s.wired.ports p (f (tabGet {} s.wired.ports p)) } }

/-- A frame of the forwarder waits at a port; the port adds its EtherType (R398). -/
def State.ethQueue (s : State) (p : Nat) (x : EthOut) : State := s.modPort p (fun q => { q with fwd := q.fwd ++ [x] })

/-- A message sent through a route entry (R220, R221): to the air, or to an Ethernet port with the next hop's address. -/
def State.routeSend (s : State) (d : Nat) (r : List Byte) (m : Ixt) : State :=
  let via := bitsN (wordAt r 0) 29 27
  let s1 := s.writeBytes (routeAddr d + 12) (leBytes 4 (wordAt r 3 + 1))
  if via = 4 then s1.airSend m r
  else if via = 2 || via = 3 then
    let mac := wordAt r 1 + bitsN (wordAt r 2) 15 0 * 2 ^ 32
    s1.ethQueue (via - 2) { dst := mac, type := 0, prio := bitsN (wordAt r 0) 26 24, payload := m.bytes }
  else s1

/-- flood: one copy through each neighbour entry but the one of the origin (R222). -/
def State.ixtFlood (s : State) (m : Ixt) : Nat × State :=
  if m.hops = 0 then (11, s.finc fTABLE_COUNT_hop_exhaust)
  else
    let k : Ixt := { m with flooded := true, hops := m.hops - 1 }
    (12, (s.neighbours.filter (fun d => d != m.src)).foldl (fun t d =>
      match t.route d with
      | (some r, t1) => t1.routeSend d r k
      | (none, t1) => t1) (s.finc fTABLE_COUNT_flooded))

/-- A REIN_TX body submitted (R224). -/
def State.reinTx (s : State) (m : Ixt) : Nat × State :=
  let w1 := wordAt m.body 1
  let p := m.body.drop 16
  let fc := leNat (p.take 2)
  if m.body.length < 32 || bitsN fc 15 12 ≠ m.tenant then (8, s)
  else
    let fc1 := Nat.land fc 0xF0DF + bitsN w1 7 4 * 2 ^ 8 + b2n (bitN w1 3) * 2 ^ 5
    let freq := wordAt m.body 0
    let mode := bitsN w1 31 28
    let sub := bitsN w1 23 20
    let f := wordAt m.body 2
    let ns := bitsN (wordAt m.body 3) 29 0
    let now := f == 0 && ns == 0
    let x : TxCmd := { who := .relay { kind := .reinTx }, freq := freq, power := bitsN w1 19 12, mode := mode, sub := sub
                       prio := bitsN w1 11 9, urgent := bitN w1 8, tenant := m.tenant
                       access := if s.subLbt sub then 0 else 2, code := bitsN w1 27 24, len := p.length + 4
                       startF := if now then s.cinch.frame else f, startNs := if now then s.nowNs else ns, lateUs := 20000
                       inl := leBytes 2 fc1 ++ p.drop 2 }
    (13, ((s.txSubmit ((s.chainFor freq (modeWidth mode)).getD 0) x).2).finc fTABLE_COUNT_fwd_sent)

/-- forward (R221): the status and the state. -/
def State.forward (s0 : State) (m : Ixt) (ingress : Bool) : Nat × State :=
  let key := 0xFFFE1000 + m.src
  let s := if ingress then s0.seenCheck key m.msgId else s0
  if ingress && (s.seenLookup key m.msgId).isSome then (14, s.finc fTABLE_COUNT_fwd_dup)
  else
    let s1 := if ingress then (s.seenInsert key m.msgId m.tenant true).2 else s
    let route (u : State) (m : Ixt) : Nat × State :=
      if m.dst = u.device then (if m.kind = 0 then u.inboxPut m.tenant m.bytes else u.reinTx m)
      else if m.hops = 0 then (11, u.finc fTABLE_COUNT_hop_exhaust)
      else
        match u.route m.dst with
        | (some r, u1) =>
          if bitN (wordAt r 0) 31 && bitsN (wordAt r 0) 29 27 != 0 then
            (13, (u1.routeSend m.dst r { m with hops := m.hops - 1 }).finc fTABLE_COUNT_fwd_sent)
          else (11, u1.finc fTABLE_COUNT_no_route)
        | (none, u1) => (11, u1.finc fTABLE_COUNT_no_route)
    if m.byNode then
      match s1.nodeLookup m.node with
      | (some (_, n), s2) =>
        if n.tenant = m.tenant then route s2 { m with dst := if n.here then s2.device else n.home } else s2.ixtFlood m
      | (none, s2) => s2.ixtFlood m
    else route s1 m

/-- FORWARD: the message under the requester's fence, checked and stamped, and sent (R221). -/
def State.cmdForward (x : PortCmd) (q : Option Nat) (s : State) : PortAns × State :=
  let ingress := bitN (x.w 0) 18
  let len := bitsN (x.w 2) 8 0
  if ingress && q.isSome && q != some 0 then (x.plain 7, s)
  else if len < 16 || 483 < len then (x.plain 8, s)
  else
    match s.dmaRead q x.core (aliasAddr x.core (x.w 1)) len with
    | (none, s1) => (x.plain 10, s1)
    | (some b, s1) =>
      let m := ixtOf b
      if m.version ≠ 1 || 2 ≤ m.kind || len ≠ 16 + m.length then (x.plain 8, s1)
      else if ingress then
        let r := s1.forward m true
        (x.plain r.1, r.2)
      else if q.isSome && q != some m.tenant then (x.plain 7, s1)
      else
        let id := s1.fget fTABLE_MSG_ID_msg_id
        let r := (s1.finc fTABLE_MSG_ID_msg_id).forward
          { m with src := s1.device, msgId := id, flooded := false, byNode := bitN (x.w 0) 17 } false
        (x.plain r.1, r.2)

/-- FORWARD (R221). -/
def execForward (p : BitVec 2) (s : State) : Host.Outcome State Fault Refusal := .next (s.portRun p.toNat 7 State.cmdForward)

end Sys2Proof.Machine
end

