-- ==== Sys2Proof/Machine/Wired.lean ====
section
/-!
DEFINITION. Wired interfaces: Ethernet ports, IEEE 1588 clocks, management requests, pin functions, UARTs, SPI, I2C,
JTAG and the debug unlock (R395–R416). UART recovery is in Boot.lean.
-/

namespace Sys2Proof.Machine

/-! ## IEEE 1588 clocks (R399, R400) -/

/-- Ethernet port p. -/
def State.port (s : State) (p : Nat) : EthPort := tabGet {} s.wired.ports p

/-- Units of a port clock in a nanosecond. -/
def ptpUnit : Nat := 1024 * 1000000000

/-- Where a port clock wraps: 2^48 seconds. -/
def ptpWrap : Nat := 2 ^ 48 * (1000000000 * ptpUnit)

/-- The rate of port clock p in ppb. -/
def State.ptpRate (s : State) (p : Nat) : Int := signedN 32 (s.fget (fETH_PTP_rate_ppb p))

/-- The clock of port p now: 25 ns, changed by its rate, to a reference cycle. -/
def State.ptpNow (s : State) (p : Nat) : Nat :=
  (s.port p).ptp + (s.mono - (s.port p).ptpAt) * (25 * 1024 * (1000000000 + s.ptpRate p)).toNat

/-- The clock set. -/
def State.ptpSet (s : State) (p v : Nat) : State :=
  s.modPort p (fun q => { q with ptp := v % ptpWrap, ptpAt := s.mono })

/-- Seconds and nanoseconds of the clock. -/
def State.ptpTime (s : State) (p : Nat) : Nat × Nat :=
  let ns := s.ptpNow p % ptpWrap / ptpUnit
  (ns / 1000000000, ns % 1000000000)

/-- A write of rate_ppb: values outside ±100,000 are ignored (R399). -/
def State.ptpRateWrite (s : State) (p v : Nat) : State :=
  if 100000 < (signedN 32 v).natAbs then s else (s.ptpSet p (s.ptpNow p)).fset (fETH_PTP_rate_ppb p) v

/-- A write of step_ns: the signed value is added (R399). -/
def State.ptpStep (s : State) (p v : Nat) : State :=
  s.ptpSet p (((s.ptpNow p : Int) + signedN 32 v * ptpUnit) % ptpWrap).toNat

/-- PTP_STEP (R399). -/
def execPtpStep (m : Master) (p : Bool) (v : Word) (s : State) : Host.Outcome State Fault Refusal :=
  .next (s.regGate m (aETH_PTP_w4 (b2n p)) (fun t => t.ptpStep (b2n p) v.toNat))

/-- A read of ETH_PTP w0: w1 and w2 hold the rest of the same time (R399). -/
def State.ptpLatch (s : State) (p : Nat) : State :=
  let t := s.ptpTime p
  ((s.fset (fETH_PTP_sec_lo p) t.1).fset (fETH_PTP_sec_hi p) (t.1 / 2 ^ 32)).fset (fETH_PTP_ns p) t.2

/-- PTP_TIME_READ (R399). -/
def execPtpTimeRead (m : Master) (p : Bool) (s : State) : Host.Outcome State Fault Refusal :=
  .next (s.regGateRead m (aETH_PTP_w0 (b2n p)) (fun t => t.ptpLatch (b2n p)))

/-- PTP_ROLLOVER: the clock of port p rolls over a second at ns `x` of the current Cinch frame: an observation of Cinch,
and the rise of PPS_OUT (R190, R399, R406). -/
def execPtpRollover (p : Bool) (x : BitVec 30) (s : State) : Host.Outcome State Fault Refusal :=
  let n := b2n p
  let s1 := if s.cinch.started && decide (x.toNat < s.frameLen) then s.cinchTo x.toNat else s
  let sec := (s1.ptpTime n).1 + 1
  let s2 := (s1.ptpSet n (sec * (1000000000 * ptpUnit))).ptpObserve n (sec % 2 ^ 32)
  .next (s2.iff (s2.fon fPINMUX_PPS_en && s2.fget fPINMUX_PPS_pps_port == n)
    (fun t => { t with wired := { t.wired with ppsOut := true } }))

/-- PPS_OUT_FALL (R406). -/
def execPpsOutFall (s : State) : Host.Outcome State Fault Refusal :=
  .next { s with wired := { s.wired with ppsOut := false } }

/-- A transmit stamp pushed; a full FIFO of 16 loses its oldest (R400). -/
def State.stampPush (s : State) (p : Nat) (x : TxStamp) : State :=
  let q := (s.port p).stamps
  if q.length < 16 then s.modPort p (fun e => { e with stamps := q ++ [x] })
  else (s.modPort p (fun e => { e with stamps := q.drop 1 ++ [x] })).finc (fETH_COUNT_txts_lost p)

/-- TXTS_POP: a read of ETH_TXTS w2 (R400). -/
def State.stampPop (s : State) (p : Nat) : State := s.modPort p (fun e => { e with stamps := e.stamps.drop 1 })

/-- TXTS_POP (R400). -/
def execTxtsPop (m : Master) (p : Bool) (s : State) : Host.Outcome State Fault Refusal :=
  .next (s.regGateRead m (aETH_TXTS_w2 (b2n p)) (fun t => t.stampPop (b2n p)))

/-! ## Links (R395, R396) -/

/-- The link of port p goes down. -/
def State.linkDown (s : State) (p : Nat) : State :=
  if s.fon (fETH_STATUS_link p) then
    ((s.fset (fETH_STATUS_link p) 0).fset (fETH_STATUS_an_done p) 0).fsat (fETH_STATUS_changes p)
  else s

/-- A write of ETH_CFG: mode 3 is ignored, any other value restarts the link (R396). -/
def State.ethCfgWrite (s : State) (p v : Nat) : State :=
  let s1 := (((s.fset (fETH_CFG_an_en p) (bitsN v 29 29)).fset (fETH_CFG_vlan_en p) (bitsN v 28 28)).fset
    (fETH_CFG_accept_other p) (bitsN v 27 27)).fset (fETH_CFG_vid p) v
  if bitsN v 31 30 = 3 then s1 else (s1.fset (fETH_CFG_mode p) (bitsN v 31 30)).linkDown p

/-- ETH_MODE_WRITE (R396). -/
def execEthModeWrite (m : Master) (p : Bool) (v : Word) (s : State) : Host.Outcome State Fault Refusal :=
  .next (s.regGate m (aETH_CFG (b2n p)) (fun t => t.ethCfgWrite (b2n p) v.toNat))

/-- ETH_LINK_UP: the link comes up at `speed` (SGMII: what the PHY gives) (R395, R396). -/
def execEthLinkUp (p : Bool) (speed : BitVec 2) (s : State) : Host.Outcome State Fault Refusal :=
  let n := b2n p
  let mode := s.fget (fETH_CFG_mode n)
  .next (s.iff (mode != 0 && !(s.port n).held && !s.fon (fETH_STATUS_link n) && (mode == 1 || speed != 3#2)) (fun t =>
    (((t.fset (fETH_STATUS_link n) 1).fset (fETH_STATUS_an_done n) (t.fget (fETH_CFG_an_en n))).fset (fETH_STATUS_speed n)
      (if mode = 1 then 2 else speed.toNat)).fsat (fETH_STATUS_changes n)))

/-- ETH_LINK_DOWN (R396). -/
def execEthLinkDown (p : Bool) (s : State) : Host.Outcome State Fault Refusal := .next (s.linkDown (b2n p))

/-- A write of ETH_MDIO: fields, and with go a frame starts; a write while one runs is ignored. -/
def State.mdioWrite (s : State) (v : Nat) : State :=
  if s.fon fETH_MDIO_go then s else s.setReg aETH_MDIO (BitVec.ofNat 32 v &&& 0xFFF0FFFF#32)

/-- MDIO_READ: go with read = 1 (R395). -/
def execMdioRead (m : Master) (v : Word) (s : State) : Host.Outcome State Fault Refusal :=
  .next (s.regGate m aETH_MDIO (fun t => t.mdioWrite (v ||| 0xC0000000#32).toNat))

/-- MDIO_WRITE: go with read = 0 (R395). -/
def execMdioWrite (m : Master) (v : Word) (s : State) : Host.Outcome State Fault Refusal :=
  .next (s.regGate m aETH_MDIO (fun t => t.mdioWrite ((v ||| 0x80000000#32) &&& 0xBFFFFFFF#32).toNat))

/-- MDIO_DONE: the frame ends; a read returns `data` (R395). -/
def execMdioDone (data : BitVec 16) (s : State) : Host.Outcome State Fault Refusal :=
  .next (s.iff (s.fon fETH_MDIO_go) (fun t =>
    (t.fset fETH_MDIO_go 0).iff (t.fon fETH_MDIO_read) (fun u => u.fset fETH_MDIO_data data.toNat)))

/-! ## Rings -/

/-- The key of a D-space address in system SRAM or the supervisor's local SRAM. -/
def ethKey (a : Nat) : Option Nat :=
  if a < 0x40000 then some (supKey a) else if 0x04000000 ≤ a && a < 0x04800000 then some a else none

/-- Key of the base of a ring that lies in one memory as a whole, with its size: 1 KiB × 2^s. -/
def ethRing (base s : Nat) : Option (Nat × Nat) :=
  match ethKey base, ethKey (base + 1024 * 2 ^ s - 1) with
  | some k, some l => if l = k + 1024 * 2 ^ s - 1 then some (k, 1024 * 2 ^ s) else none
  | _, _ => none

/-- The receive ring of port p. -/
def State.rxRing (s : State) (p : Nat) : Option (Nat × Nat) :=
  ethRing (s.reg (aETH_RING_w0 p)).toNat (s.fget ⟨aETH_RING_w1 p, 0, 4⟩)

/-- The transmit ring of port p. -/
def State.txRing (s : State) (p : Nat) : Option (Nat × Nat) :=
  ethRing (s.reg (aETH_RING_w4 p)).toNat (s.fget ⟨aETH_RING_w5 p, 0, 4⟩)

/-- Bytes stored by a port or the management unit; only the node-table unit writes its own ranges (R208). -/
def State.ethStore (s : State) (k : Nat) (bs : List Byte) : State := if nodeOwned k bs.length then s else s.writeBytes k bs

/-- Bytes put at running count c of a ring; they wrap at its end. -/
def State.ringPut (s : State) (k size c : Nat) (bs : List Byte) : State :=
  let room := size - c % size
  let s1 := s.ethStore (k + c % size) (bs.take room)
  if bs.length ≤ room then s1 else s1.ethStore k (bs.drop room)

/-- n bytes at running count c of a ring, and whether every word was usable. -/
def State.ringGet (s : State) (k size c n : Nat) : List Byte × Bool × State :=
  let room := size - c % size
  let r := s.readBytes (k + c % size) (min n room) 0x7F
  if n ≤ room then r
  else
    let q := r.2.2.readBytes k (n - room) 0x7F
    (r.1 ++ q.1, r.2.1 && q.2.1, q.2.2)

/-- A received frame, without its FCS, put in the supervisor's receive ring; without room it is dropped (ETH_RING). -/
def State.rxToRing (s : State) (p : Nat) (b : List Byte) (stamped : Bool) : State :=
  let wr := s.fget (fETH_RING_w2_wr p)
  let n := 16 + (b.length + 7) / 8 * 8
  match s.rxRing p with
  | none => s.finc (fETH_COUNT_rx_err p)
  | some (k, size) =>
    if size < countDiff wr (s.fget (fETH_RING_w3_rd p)) + n then s.finc (fETH_COUNT_rx_err p)
    else
      let t := s.ptpTime p
      let d := if stamped then leBytes 4 (b.length + 2 ^ 11) ++ leBytes 4 t.2 ++ leBytes 4 t.1 ++ leBytes 4 (t.1 / 2 ^ 32)
        else leBytes 4 b.length ++ takePad 12 []
      ((s.ringPut k size wr (d ++ takePad (n - 16) b)).fset (fETH_RING_w2_wr p) (wr + n)).finc (fETH_COUNT_rx_ok p)

/-! ## Management requests (R401–R403) -/

/-- GCM encryption of a body: ciphertext and tag of 16 bytes. -/
def gcmSeal (key iv aad pt : List Byte) : List Byte :=
  let ct := (aesCtrRun key 4 (ctrInc 4 (gcmJ0 iv)) (blocksOf pt)).1
  ct ++ gcmTag key (ghash (gcmH key) (ghash (gcmH key) 0 (blocksOf aad)) (blocksOf ct)) aad.length pt.length (gcmJ0 iv) 16

/-- GCM decryption of a body: the plaintext, or none when the tag is wrong. -/
def gcmOpen (key iv aad ct tag : List Byte) : Option (List Byte) :=
  let t := gcmTag key (ghash (gcmH key) (ghash (gcmH key) 0 (blocksOf aad)) (blocksOf ct)) aad.length ct.length (gcmJ0 iv) 16
  if t = tag then some (aesCtrRun key 4 (ctrInc 4 (gcmJ0 iv)) (blocksOf ct)).1 else none

/-- 64 s in monotonic counts. -/
def mgmtAge : Nat := 2560000000

/-- Key of management slot k. -/
def State.mgmtSlot (s : State) (k : Nat) : Nat := (s.reg aETH_MGMT_BASE).toNat + 0x10000 + k * 0x400

/-- The operator slot of the management unit. -/
def State.mgmtKey (s : State) : Nat := s.fget fETH_MGMT_CFG_key_slot

/-- Requests taken in and not answered. -/
def State.mgmtInFlight (s : State) : Nat := (s.wired.ids.filter (fun e => e.st == .pending)).length

/-- A malformed request is counted and dropped (R402); no register shows the count. -/
def State.mgmtBad (s : State) : State := { s with wired := { s.wired with badReqs := s.wired.badReqs + 1 } }

/-- A frame of the management unit waits at port p. -/
def State.mgmtQueue (s : State) (p mac : Nat) (payload : List Byte) : State :=
  s.modPort p (fun q => { q with mgmt := q.mgmt ++
    [{ dst := mac, type := s.fget (fETH_TYPE_mg_type p), prio := 0, payload := payload }] })

/-- The sealing of a response of Table 17-2 to the request with header h, under the next response IV, begins (R401, R403):
a GCM_ENC of the unit. -/
def State.mgmtSeal (s : State) (u : List Byte → UnitJob) (h : List Byte) (status : Nat) (body : List Byte) : State :=
  let head := h.take 4 ++ [byteN (leNat ((h.drop 4).take 1) % 128 + 128) 0, byteN status 0] ++ leBytes 2 body.length
  let iv := leBytes 4 (0xFFFE0000 + s.device) ++ leBytes 8 s.wired.respCtr
  ({ s with wired := { s.wired with respCtr := s.wired.respCtr + 1 } } : State).enqueueUnit
    { who := .unit (u (head ++ iv)), tenant := none, op := 6, last := true, tlen := 8, key := s.mgmtKey, prio := 7
      aadLen := 8, dataLen := body.length, inl := (iv, head, body) }

/-- A reply without a body: BUSY or EXPIRED. -/
def State.mgmtReply (s : State) (p mac : Nat) (h : List Byte) (status : Nat) : State := s.mgmtSeal (.reply p mac) h status []

/-- The ID entry that stands in slot k. -/
def State.mgmtInSlot (s : State) (k : Nat) : Option MgmtId :=
  s.wired.ids.find? (fun e => e.slot == k && e.st != .expired)

/-- The slot a new request takes: the lowest free one, else that of the oldest DONE entry. -/
def State.mgmtFreeSlot (s : State) : Option Nat :=
  match (List.range 128).find? (fun k => (s.mgmtInSlot k).isNone) with
  | some k => some k
  | none => (s.wired.ids.find? (fun e => e.st == .done)).map (fun e => e.slot)

/-- The ID entries with room for one more: of 4,096 one that is 64 s old goes (R402). -/
def State.mgmtRoom (s : State) : Option (List MgmtId) :=
  if s.wired.ids.length < 4096 then some s.wired.ids
  else (takeFirst (fun e : MgmtId => decide (mgmtAge ≤ s.mono - e.since)) s.wired.ids).map (fun r => r.2)

/-- A request accepted: a new PENDING entry, its plaintext in a slot, the slot queued for the supervisor (R402). -/
def State.mgmtAccept (s : State) (p mac : Nat) (f pt : List Byte) : Option State :=
  match s.mgmtRoom with
  | none => none
  | some ids =>
    let s1 : State := { s with wired := { s.wired with ids := ids } }
    match s1.mgmtFreeSlot with
    | none => none
    | some k =>
      let old := ids.map (fun e => if e.slot = k && e.st == .done then { e with st := .expired } else e)
      let e : MgmtId := { req := fieldLe f 0 4, st := .pending, since := s.mono, slot := k, port := p, mac := mac }
      let s2 : State := { s1 with wired := { s1.wired with ids := old ++ [e], queue := s1.wired.queue ++ [k] } }
      some ((s2.ethStore (s2.mgmtSlot k) (f.take 20 ++ pt)).finc fETH_MGMT_COUNT_accepted)

/-- mgmt_rx of R402 for a payload f on port p from source `mac`, up to its decryption: the GCM_DEC is refused BUSY, or the
unit waits for its end. -/
def State.mgmtRx (s : State) (p mac : Nat) (f : List Byte) : State :=
  let n := fieldLe f 6 2
  let iv0 := fieldLe f 8 4
  if f.length < 36 + n || 512 < n || bitN (fieldLe f 4 1) 7 then s.mgmtBad
  else if 0xFFFE0000 ≤ iv0 && iv0 ≤ 0xFFFE0FFF then s.mgmtBad
  else if !s.queueAdmits none then s.finc fETH_MGMT_COUNT_busy
  else s.enqueueUnit { who := .unit (.request p mac f), tenant := none, op := 7, last := true, tlen := 8, key := s.mgmtKey
                       prio := 7, aadLen := 8, dataLen := n
                       inl := ((f.drop 8).take 12, f.take 8, (f.drop 20).take (n + 16)) }

/-- mgmt_rx after a good tag (R402): `pt` is the body. -/
def State.mgmtTake (s : State) (p mac : Nat) (f pt : List Byte) : State :=
  match s.wired.ids.find? (fun e => e.req == fieldLe f 0 4 && decide (s.mono - e.since < mgmtAge)) with
  | some e =>
    match e.st with
    | .done =>
      let r := s.readBytes (s.mgmtSlot e.slot) 548 0x7F
      (r.2.2.mgmtQueue p mac (r.1.take (36 + fieldLe r.1 6 2))).finc fETH_MGMT_COUNT_dup_resent
    | .pending => s.finc fETH_MGMT_COUNT_dup_pending
    | .expired => (s.mgmtReply p mac f 0x81).finc fETH_MGMT_COUNT_expired
  | none =>
    if s.mgmtInFlight = 16 then (s.mgmtReply p mac f 0x80).finc fETH_MGMT_COUNT_busy
    else
      match s.mgmtAccept p mac f pt with
      | none => (s.mgmtReply p mac f 0x80).finc fETH_MGMT_COUNT_busy
      | some t => t

/-- A read of ETH_MGMT_PEND: the next queued slot is taken (R403). -/
def State.mgmtPend (s : State) : Word × State :=
  match s.wired.queue with
  | [] => (0#32, s)
  | k :: rest => (BitVec.ofNat 32 (2 ^ 31 + k), { s with wired := { s.wired with queue := rest } })

/-- MGMT_PEND_READ (R403). -/
def execMgmtPendRead (m : Master) (s : State) : Host.Outcome State Fault Refusal :=
  .next (s.regGateRead m aETH_MGMT_PEND (fun t => t.mgmtPend.2))

/-- The PENDING entry of slot k takes another state. -/
def State.mgmtSet (s : State) (k : Nat) (st : MgmtSt) : State :=
  { s with wired := { s.wired with
      queue := s.wired.queue.filter (fun j => j != k)
      ids := s.wired.ids.map (fun e => if e.slot = k && e.st == .pending then { e with st := st } else e) } }

/-- The answer of slot k is being sealed: its DONE has come. -/
def State.mgmtSealing (s : State) (k : Nat) : Bool :=
  let mine (j : Job) : Bool := match j.who with
    | .unit (.answer i _) => i == k
    | _ => false
  s.cipher.queue.any mine || s.cipher.waiting.any mine || s.cipher.running.any (fun r => mine r.job)

/-- The sealed answer of slot k: stored, sent to the first copy's port and source, and the entry DONE (R403). -/
def State.mgmtAnswer (s : State) (k : Nat) (payload : List Byte) : State :=
  match s.mgmtInSlot k with
  | none => s
  | some e => ((s.ethStore (s.mgmtSlot k) payload).mgmtQueue e.port e.mac payload).mgmtSet k .done

/-- A write of ETH_MGMT_DONE: the response is encrypted, then stored and sent (R403). -/
def State.mgmtDone (s : State) (v : Nat) : State :=
  let k := bitsN v 6 0
  let n := bitsN v 23 14
  match s.mgmtInSlot k with
  | none => s
  | some e =>
    if e.st != .pending || s.mgmtSealing k || 0x80 ≤ bitsN v 31 24 || 512 < n then s
    else
      let r := s.readBytes (s.mgmtSlot k) (20 + n) 0x7F
      r.2.2.mgmtSeal (.answer k) r.1 (bitsN v 31 24) (r.1.drop 20)

/-- MGMT_SLOT_EXPIRY: 64 s without a DONE write (R403). -/
def execMgmtSlotExpiry (k : BitVec 7) (s : State) : Host.Outcome State Fault Refusal := .next (s.iff (!s.mgmtSealing k.toNat) (fun t => t.mgmtSet k.toNat .expired))

/-- The memory that the ports and the management unit use is not being cleared: their accesses would wait (R355). -/
def State.ethFree (s : State) : Bool :=
  s.upkeep.clearing.isNone || (s.ringsFree && !s.clearMeets (s.reg aETH_MGMT_BASE).toNat 0x30000
    && [0, 1].all (fun p => ((s.rxRing p).all (fun r => !s.clearMeets r.1 r.2)) && ((s.txRing p).all (fun r => !s.clearMeets r.1 r.2))))

/-- MGMT_DONE (R403); it waits while its slot's memory is being cleared (R355). -/
def execMgmtDone (m : Master) (v : Word) (s : State) : Host.Outcome State Fault Refusal :=
  .next (s.regGate m aETH_MGMT_DONE (fun t => t.iff t.ethFree (fun u => u.mgmtDone v.toNat)))

/-! ## Received frames (R397) -/

/-- A frame from its destination address on, without its FCS: tagged, and its EtherType and payload. -/
structure EthIn where
  dst : Nat
  src : Nat
  tagged : Bool
  vid : Nat
  type : Nat
  payload : List Byte
  deriving DecidableEq, Repr

/-- The fields of a received frame. -/
def ethIn (b : List Byte) : EthIn :=
  let t := beNat ((b.drop 12).take 2)
  if t = 0x8100 then
    { dst := beNat (b.take 6), src := beNat ((b.drop 6).take 6), tagged := true, vid := beNat ((b.drop 14).take 2) % 4096
      type := beNat ((b.drop 16).take 2), payload := b.drop 18 }
  else { dst := beNat (b.take 6), src := beNat ((b.drop 6).take 6), tagged := false, vid := 0, type := t, payload := b.drop 14 }

/-- The MAC address of port p. -/
def State.ethMac (s : State) (p : Nat) : Nat := s.fget (fETH_MAC0_mac_lo p) + s.fget (fETH_MAC1_mac_hi p) * 2 ^ 32

/-- The frame of row 5 of Table 17-1 goes to the forwarder as a FORWARD with ingress set (R398). -/
def State.ethForward (s : State) (x : List Byte) : State :=
  let n := bitsN (wordAt x 1) 24 16
  let m := ixtOf (x.take (16 + n))
  if x.length < 16 || x.length < 16 + n || 483 < 16 + n || m.version ≠ 1 || 2 ≤ m.kind then s.finc fTABLE_COUNT_bad_cmd
  else (s.forward m true).2

/-- Table 17-1 for a frame of good FCS and length. -/
def State.ethSort (s : State) (p : Nat) (b : List Byte) : State :=
  let f := ethIn b
  let ptp := f.type == 0x88F7 && (f.dst == 0x011B19000000 || f.dst == 0x0180C200000E)
  let vlanOk := if s.fon (fETH_CFG_vlan_en p) then f.tagged && f.vid == s.fget (fETH_CFG_vid p) else !f.tagged
  if !(f.dst == s.ethMac p || f.dst == 0xFFFFFFFFFFFF || ptp) || !vlanOk then s.finc (fETH_COUNT_drop_addr p)
  else if f.type = 0x8808 then s.finc (fETH_COUNT_pause p)
  else if f.type = s.fget (fETH_TYPE_ix_type p) then (s.finc (fETH_COUNT_rx_ok p)).ethForward f.payload
  else if f.type = s.fget (fETH_TYPE_mg_type p) then
    if s.fon fETH_MGMT_CFG_en && bitN (s.fget fETH_MGMT_CFG_ports) p then
      (s.finc (fETH_COUNT_rx_ok p)).mgmtRx p f.src f.payload
    else s
  else if f.type = 0x88F7 then s.rxToRing p b true
  else if s.fon (fETH_CFG_accept_other p) then s.rxToRing p b false
  else s.finc (fETH_COUNT_drop_type p)

/-- ETH_FRAME_RX: a frame from its destination address to the end of its payload, with the verdict on its FCS
(R397). -/
def execEthFrameRx (p fcsOk : Bool) (b : List Byte) (s : State) : Host.Outcome State Fault Refusal :=
  let n := b2n p
  .next (s.iff (s.fon (fETH_STATUS_link n) && s.ethFree) (fun t =>
    if !fcsOk || b.length < 60 || 1518 < b.length then t.finc (fETH_COUNT_rx_err n) else t.ethSort n b))

/-! ## Frames sent (R398, R400) -/

/-- A frame leaves port p: the bytes and their FCS. -/
def State.ethSend (s : State) (p : Nat) (b : List Byte) : State :=
  (s.modPort p (fun q => { q with sent := b ++ leBytes 4 (crc32 b) })).finc (fETH_COUNT_tx_ok p)

/-- The bytes of a frame that hardware makes: source address, VLAN tag, EtherType, payload of at least 46 bytes (R398). -/
def State.ethBuild (s : State) (p : Nat) (x : EthOut) : List Byte :=
  let tag := if s.fon (fETH_CFG_vlan_en p) then beBytes 2 0x8100 ++ beBytes 2 (x.prio * 2 ^ 13 + s.fget (fETH_CFG_vid p))
    else []
  beBytes 6 x.dst ++ beBytes 6 (s.ethMac p) ++ tag
    ++ beBytes 2 (if x.type = 0 then s.fget (fETH_TYPE_ix_type p) else x.type) ++ takePad (max 46 x.payload.length) x.payload

/-- The transmit time in the originTimestamp of a Sync message (R400). -/
def State.oneStep (s : State) (p : Nat) (b : List Byte) : List Byte :=
  let o := (if beNat ((b.drop 12).take 2) = 0x8100 then 18 else 14) + 34
  let t := s.ptpTime p
  if b.length < o + 10 then b else b.take o ++ beBytes 6 t.1 ++ beBytes 4 t.2 ++ b.drop (o + 10)

/-- The head of the supervisor's transmit ring is sent; its rd passes it. A frame above 1,522 bytes, or one with an
unusable word, is not sent. -/
def State.txFromRing (s : State) (p : Nat) : State :=
  match s.txRing p with
  | none => s
  | some (k, size) =>
    let rd := s.fget (fETH_RING_w7_rd p)
    let d := s.ringGet k size rd 16
    let w := leNat (d.1.take 4)
    let len := bitsN w 10 0
    let r := d.2.2.ringGet k size (rd + 16) len
    let s1 := r.2.2.fset (fETH_RING_w7_rd p) (rd + 16 + (len + 7) / 8 * 8)
    if !d.2.1 || !r.2.1 || 1518 < len then s1
    else
      let t := s.ptpTime p
      let s2 := if bitN w 11 then s1.stampPush p { tag := bitsN w 31 16, sec := t.1, ns := t.2 } else s1
      s2.ethSend p (if bitN w 12 then s.oneStep p r.1 else r.1)

/-- ETH_FRAME_TX: the port sends its next frame: supervisor ring, then management unit, then forwarder (R398). -/
def execEthFrameTx (p : Bool) (s : State) : Host.Outcome State Fault Refusal :=
  let n := b2n p
  .next (s.iff (s.fon (fETH_STATUS_link n) && s.ethFree) (fun t =>
    if t.fget (fETH_RING_w6_wr n) ≠ t.fget (fETH_RING_w7_rd n) then t.txFromRing n
    else
      match (t.port n).mgmt, (t.port n).fwd with
      | x :: rest, _ => (t.modPort n (fun q => { q with mgmt := rest })).ethSend n (t.ethBuild n x)
      | [], x :: rest => (t.modPort n (fun q => { q with fwd := rest })).ethSend n (t.ethBuild n x)
      | [], [] => t))

/-! ## Pin functions (R413–R416) -/

/-- Code c has a signal on ball g (Table 17-4). -/
def pinHas (g c : Nat) : Bool :=
  match c with
  | 0 => true
  | 1 => decide (g ≤ 7)
  | 2 => decide (8 ≤ g) && decide (g ≤ 14)
  | 3 => g == 15 || g == 16
  | 4 => decide (17 ≤ g) && decide (g ≤ 20)
  | 5 => decide (17 ≤ g) && decide (g ≤ 25)
  | 6 => decide (26 ≤ g) && decide (g ≤ 31)
  | _ => decide (g ≤ 8)

/-- The chain or path that FE spare ball g follows is out of SLEEP. -/
def State.feAwake (s : State) (g : Nat) : Bool :=
  if g = 26 || g = 27 then s.chainState 0 != 0
  else if g = 28 || g = 29 then s.chainState 1 != 0
  else if g = 30 then s.pathState 0 != 0
  else if g = 31 then s.pathState 1 != 0
  else false

/-- The cause for which a change of ball g from code c to code d is refused (R414): 1 FE_ACTIVE, 2 LOCKED, 3 NO_FUNC. -/
def State.pinRefusal (s : State) (g c d : Nat) : Option Nat :=
  if (c = 6 || d = 6) && c ≠ d && s.feAwake g then some 1
  else if d = 7 && s.fget fSYS_DBG_scope ≠ 2 then some 2
  else if !pinHas g d then some 3 else none

/-- The peripheral input that ball g feeds with code c (Table 17-4): 0 U0_RX, 1 U0_CTS_N, 2 U1_RX, 3 U1_CTS_N, 4 MISO, 5 SCL,
6 SDA. -/
def pinInput (g c : Nat) : Option Nat :=
  match c, g with
  | 1, 1 => some 0
  | 1, 3 => some 1
  | 1, 5 => some 2
  | 1, 7 => some 3
  | 2, 10 => some 4
  | 3, 15 => some 5
  | 3, 16 => some 6
  | _, _ => none

/-- Another ball selects the input that ball g feeds with code d (R416). -/
def State.pinClash (s : State) (g d : Nat) : Bool :=
  (pinInput g d).any (fun i => (List.range 32).any (fun h => h != g && pinInput h (s.fget (fPINMUX_SEL_func h)) == some i))

/-- A write of PINMUX_SEL of ball g (R414–R416). -/
def State.pinWrite (s : State) (g v : Nat) : State :=
  let c := s.fget (fPINMUX_SEL_func g)
  let d := v % 8
  match s.pinRefusal g c d with
  | some w => ((s.fset fPINMUX_STATUS_refused 1).fset fPINMUX_STATUS_ball g).fset fPINMUX_STATUS_cause w
  | none =>
    let s0 := ((s.fset (fPINMUX_SEL_pull g) (bitsN v 7 6)).fset (fPINMUX_SEL_drive g) (bitsN v 5 4)).fset
      (fPINMUX_SEL_func g) d
    let s1 := s0.iff (s0.pinClash g d) (fun t => t.fset fPINMUX_STATUS_conflict 1)
    if c ≠ d && !s1.wired.parked.contains g then { s1 with wired := { s1.wired with parked := s1.wired.parked ++ [g] } }
    else s1

/-- PINMUX_SEL_WRITE (R414–R416). -/
def execPinmuxSelWrite (m : Master) (g : BitVec 5) (v : Word) (s : State) : Host.Outcome State Fault Refusal :=
  .next (s.regGate m (aPINMUX_SEL g.toNat) (fun t => t.pinWrite g.toNat v.toNat))

/-- PARK_END: the new function takes the ball (R415). -/
def execParkEnd (g : BitVec 5) (s : State) : Host.Outcome State Fault Refusal :=
  .next { s with wired := { s.wired with parked := s.wired.parked.filter (fun b => b != g.toNat) } }

/-- The ball that drives peripheral input i: the lowest that selects it (R416). -/
def State.inputBall (s : State) (i : Nat) : Option Nat :=
  (List.range 32).find? (fun g => pinInput g (s.fget (fPINMUX_SEL_func g)) == some i && !s.wired.parked.contains g)

/-- The level that the block drives on ball g where the spec fixes it: GPIO, PPS_OUT, SLOT_STROBE, FE spare. Before step
12 every ball is an input (R53); with compute die 0 off, PWR_IOHOLD keeps what it held (Table 13-9). -/
def State.pinLevel (s : State) (g : Nat) : Option Bool :=
  if s.pkg.power = .deepSleep || s.pkg.power = .off then tabGet none s.pkg.ioHeld g
  else if s.wired.parked.contains g || s.pkg.stage != .run then none
  else
    match s.fget (fPINMUX_SEL_func g) with
    | 0 => if bitN (s.fget fGPIO_OE_oe) g then some (bitN (s.fget fGPIO_OUT_out) g) else none
    | 4 => some s.wired.ppsOut
    | 5 => some s.wired.strobe
    | 6 =>
      if g = 26 then some (s.chain 0).paEn
      else if g = 27 then some (s.chain 0).trsw
      else if g = 28 then some (s.chain 1).paEn
      else if g = 29 then some (s.chain 1).trsw
      else if g = 30 then some (s.path 0).lnaEn
      else if g = 31 then some (s.path 1).lnaEn else none
    | _ => none

/-- A read of GPIO_IN: every ball's level; one that the block does not fix is free (R413, log entry 55). -/
def State.gpioIn (s : State) : Word × State :=
  let r := s.free 32
  (BitVec.ofNat 32 ((List.range 32).foldl (fun a g =>
    a + b2n ((s.pinLevel g).getD (bitN r.1.toNat g)) * 2 ^ g) 0), r.2)

/-! ## UARTs -/

/-- UART u. -/
def State.uart (s : State) (u : Nat) : Uart := tabGet {} s.wired.uarts u

/-- A UART changed. -/
def State.modUart (s : State) (u : Nat) (f : Uart → Uart) : State :=
  { s with wired := { s.wired with uarts := tabSet {} s.wired.uarts u (f (s.uart u)) } }

/-- A write of UART_DATA: a full FIFO of 64 discards the byte. -/
def State.uartPush (s : State) (u v : Nat) : State :=
  if (s.uart u).tx.length < 64 then s.modUart u (fun x => { x with tx := x.tx ++ [byteN v 0] }) else s

/-- UART_TX_WRITE (R413). -/
def execUartTxWrite (m : Master) (u : Bool) (v : Word) (s : State) : Host.Outcome State Fault Refusal :=
  .next (s.regGate m (aUART_DATA (b2n u)) (fun t => t.uartPush (b2n u) v.toNat))

/-- A read of UART_DATA: the byte popped, if there is one. -/
def State.uartPop (s : State) (u : Nat) : Word × State :=
  match (s.uart u).rx with
  | [] => (0#32, s)
  | (b, e) :: rest => (BitVec.ofNat 32 (2 ^ 31 + b2n e * 2 ^ 8 + b.toNat), s.modUart u (fun x => { x with rx := rest }))

/-- UART_RX_POP (R413). -/
def execUartRxPop (m : Master) (u : Bool) (s : State) : Host.Outcome State Fault Refusal :=
  .next (s.regGateRead m (aUART_DATA (b2n u)) (fun t => (t.uartPop (b2n u)).2))

/-- UART_RX_BYTE: a byte with its frame error arrives on the ball of a UART that is on; a full FIFO of 64 loses it
(R413). -/
def execUartRxByte (u : Bool) (b : Byte) (frameErr : Bool) (s : State) : Host.Outcome State Fault Refusal :=
  let n := b2n u
  .next (s.iff (s.fon (fUART_CFG_en n) && (s.inputBall (2 * n)).isSome) (fun t =>
    if (t.uart n).rx.length < 64 then t.modUart n (fun x => { x with rx := x.rx ++ [(b, frameErr)] })
    else t.fsat (fUART_STATUS_overrun n)))

/-- UART_TX_BYTE_SENT: the oldest byte has been shifted out (R413). -/
def execUartTxByteSent (u : Bool) (s : State) : Host.Outcome State Fault Refusal :=
  .next (s.iff (s.fon (fUART_CFG_en (b2n u))) (fun t => t.modUart (b2n u) (fun x => { x with tx := x.tx.drop 1 })))

/-! ## SPI and I2C -/

/-- A write of SPI_DATA: an exchange starts, unless one runs or the unit is off. -/
def State.spiWrite (s : State) (v : Nat) : State :=
  if s.fon fSPI_DATA_busy || !s.fon fSPI_CFG_en then s else (s.fset fSPI_DATA_busy 1).fset fSPI_DATA_byte v

/-- SPI_EXCHANGE (R413). -/
def execSpiExchange (m : Master) (v : Word) (s : State) : Host.Outcome State Fault Refusal :=
  .next (s.regGate m aSPI_DATA (fun t => t.spiWrite v.toNat))

/-- SPI_EXCHANGE_DONE: `b` is what came on MISO; without the ball the peripheral sees 0 (Table 17-5). -/
def execSpiExchangeDone (b : Byte) (s : State) : Host.Outcome State Fault Refusal :=
  .next (s.iff (s.fon fSPI_DATA_busy) (fun t =>
    (t.fset fSPI_DATA_busy 0).fset fSPI_DATA_byte (if (t.inputBall 4).isSome then b.toNat else 0)))

/-- A write of I2C_CMD: an operation starts, unless one runs. -/
def State.i2cWrite (s : State) (v : Nat) : State :=
  if s.fon fI2C_CMD_busy then s
  else
    let s1 := (s.fset fI2C_CMD_busy 1).fset fI2C_CMD_byte v
    { s1 with wired := { s1.wired with i2c := some (bitsN v 31 30, v % 256, bitN v 27) } }

/-- The command word of an I2C operation. -/
def i2cWord (op : Nat) (v : Word) : Nat := op * 2 ^ 30 + v.toNat % 2 ^ 30

/-- I2C_START: a start and the address byte (R413). -/
def execI2cStart (m : Master) (v : Word) (s : State) : Host.Outcome State Fault Refusal :=
  .next (s.regGate m aI2C_CMD (fun t => t.i2cWrite (i2cWord 0 v)))

/-- I2C_WRITE (R413). -/
def execI2cWrite (m : Master) (v : Word) (s : State) : Host.Outcome State Fault Refusal :=
  .next (s.regGate m aI2C_CMD (fun t => t.i2cWrite (i2cWord 1 v)))

/-- I2C_READ (R413). -/
def execI2cRead (m : Master) (v : Word) (s : State) : Host.Outcome State Fault Refusal :=
  .next (s.regGate m aI2C_CMD (fun t => t.i2cWrite (i2cWord 2 v)))

/-- I2C_STOP (R413). -/
def execI2cStop (m : Master) (v : Word) (s : State) : Host.Outcome State Fault Refusal :=
  .next (s.regGate m aI2C_CMD (fun t => t.i2cWrite (i2cWord 3 v)))

/-- I2C_OP_DONE: `b` was read, `ack` says that the byte sent was acknowledged; without its balls the peripheral sees both
lines at 1 (R413, Table 17-5). -/
def execI2cOpDone (b : Byte) (ack : Bool) (s : State) : Host.Outcome State Fault Refusal :=
  .next (match s.wired.i2c with
    | none => s
    | some (op, _, last) =>
      let here := (s.inputBall 5).isSome && (s.inputBall 6).isSome
      let s1 : State := ({ s with wired := { s.wired with i2c := none } } : State).fset fI2C_CMD_busy 0
      match op with
      | 2 => (s1.fset fI2C_CMD_byte (if here then b.toNat else 0xFF)).fset fI2C_CMD_nack (b2n last)
      | 3 => s1
      | _ => s1.fset fI2C_CMD_nack (b2n (!(ack && here))))

/-! ## JTAG (R410) -/

/-- Codes of the JTAG instructions in State: 0 none, 1 IDCODE, 2 BYPASS, 3 SAMPLE/PRELOAD, 4 EXTEST, 5 CLAMP, 6 HIGHZ. -/
def jtagHolds (i : Nat) : Bool := decide (4 ≤ i)

/-- The chain is asked to rest in SLEEP: at once, or after its carriers (Table 3-4). -/
def State.chainRest (s : State) (c : Nat) : State :=
  if s.chainState c = 0 then s
  else if (s.chain c).air.isEmpty && (s.chain c).feStep == 0 then s.chainSleep c
  else (s.unstart c).modChain c (fun k => { k with sleepDue := true })

/-- A chain that nothing holds any more follows its state_req again. -/
def State.chainFollow (s : State) (c : Nat) : State :=
  let h := s.chain c
  if h.off || h.planSleep || h.jtagHold || s.fon (fRADIO_TX_STATUS_pa_gain_fault c) || s.fget (fRADIO_TX_CTRL_state_req c) = 0
  then s
  else if s.chainState c = 0 then s.modChain c (fun k => { k with waking := true, sleepDue := false })
  else s.modChain c (fun k => { k with sleepDue := false })

/-- A JTAG instruction is loaded: EXTEST, CLAMP and HIGHZ hold both chains in SLEEP while it stays. -/
def State.jtagLoad (s : State) (i : Nat) (out : List Byte) : State :=
  let s1 : State := { s with pkg := { s.pkg with jtag := i, jtagOut := out } }
  let held := jtagHolds i
  [0, 1].foldl (fun t c =>
    if (t.chain c).jtagHold == held then t
    else
      let t1 := t.modChain c (fun k => { k with jtagHold := held })
      if held then t1.chainRest c else t1.chainFollow c) s1

/-- The port gives boundary scan: scope BSCAN or FULL. -/
def State.bscan (s : State) : Bool := s.fget fSYS_DBG_scope != 0

/-- The identity code (R410). -/
def idcode (v : Variant) : Nat :=
  match v with
  | .sln4512 => 0xB4512F3D
  | .sln4256 => 0xB4256F3D
  | .sln4128 => 0xB4128F3D

/-- IDCODE (R410). -/
def execIdcode (s : State) : Host.Outcome State Fault Refusal := .next (s.jtagLoad 1 (leBytes 4 (idcode s.variant)))

/-- BYPASS (R410). -/
def execBypass (s : State) : Host.Outcome State Fault Refusal := .next (s.jtagLoad 2 [])

/-- SAMPLE_PRELOAD (R410). -/
def execSamplePreload (s : State) : Host.Outcome State Fault Refusal := .next (s.iff s.bscan (fun t => t.jtagLoad 3 []))

/-- EXTEST (R410). -/
def execExtest (s : State) : Host.Outcome State Fault Refusal := .next (s.iff s.bscan (fun t => t.jtagLoad 4 []))

/-- CLAMP (R410). -/
def execClamp (s : State) : Host.Outcome State Fault Refusal := .next (s.iff s.bscan (fun t => t.jtagLoad 5 []))

/-- HIGHZ (R410). -/
def execHighz (s : State) : Host.Outcome State Fault Refusal := .next (s.iff s.bscan (fun t => t.jtagLoad 6 []))

/-! ## Debug unlock (R411, R412) -/

/-- The third failure locked the port. -/
def State.dbgLocked (s : State) : Bool := s.fget fSYS_DBG_fails == 3

/-- DEBUG_CHALLENGE_READ: a fresh nonce from the TRNG, then the serial; zeros while the TRNG is failed (R411). -/
def execDebugChallengeRead (draw : BitVec 128) (s : State) : Host.Outcome State Fault Refusal :=
  .next (s.iff (!s.dbgLocked) (fun t =>
    let c := if t.cipher.failed then takePad 32 [] else leBytes 16 draw.toNat ++ leBytes 16 t.fuses.uid
    { t with pkg := { t.pkg with nonce := some c, jtagOut := c } }))

/-- DEBUG_UNLOCK: scope, public key and signature over the SHA-256 of challenge and scope (R411). -/
def execDebugUnlock (scope : Byte) (key sig : List Byte) (s : State) : Host.Outcome State Fault Refusal :=
  .next (s.iff (!s.dbgLocked) (fun t =>
    let ok := match t.pkg.nonce with
      | none => false
      | some c => !t.cipher.failed && (scope == 1#8 || scope == 2#8) && key.length == 64 && sig.length == 64
          && beNat (sha256 key) == t.fuses.debugKey && ecdsaVerify key (sha256 (c ++ [scope])) sig
    let t1 : State := { t with pkg := { t.pkg with nonce := none } }
    if ok then
      ((t1.fset fSYS_DBG_scope scope.toNat).fset fSYS_DBG_attached (b2n (scope == 2#8))).logHw 0x0041 scope.toNat 0 0
    else
      let t2 := if t.cipher.failed then t1 else t1.fsat fSYS_DBG_fails
      t2.logHw 0x0042 (t2.fget fSYS_DBG_fails) 0 0))

/-- DEBUG_STOP: the core stops, its halter pauses (R412). -/
def execDebugStop (c : CoreId) (s : State) : Host.Outcome State Fault Refusal :=
  .next (s.iff s.dbgFull (fun t => t.dbgHold (coreNum c) true))

/-- DEBUG_STEP: a core that the debugger holds does one instruction (R412). -/
def execDebugStep (c : CoreId) (s : State) : Host.Outcome State Fault Refusal :=
  .next (s.iff (s.dbgFull && (s.eng (coreNum c)).dbgStop) (fun t => t.modEng (coreNum c) (fun e => { e with stepOne := true })))

/-- DEBUG_RESUME (R412). -/
def execDebugResume (c : CoreId) (s : State) : Host.Outcome State Fault Refusal :=
  .next (s.iff s.dbgFull (fun t => t.dbgHold (coreNum c) false))

end Sys2Proof.Machine
end

