-- ==== Sys2Proof/Machine/Plan.lean ====
section
/-!
DEFINITION. What the energy plans turn off and on, in the order of R334: receivers, compute die 1 and retention,
clusters and frequencies, paths, chains, Ethernet ports (R29, R332–R334). The same operations serve SLEEP.
-/

namespace Sys2Proof.Machine

/-- The units that run: those of FULL, LEAN or FRUGAL; SURVIVAL is FRUGAL in its window (R332). -/
def State.units (s : State) : Nat := min s.plan 2

/-- The package is in SLEEP or on its way to a power state: admissions have stopped (Tables 13-7, 13-8). -/
def State.leaving (s : State) : Bool :=
  s.pkg.power == .toSleep || s.pkg.power == .sleep || s.pkg.power == .toDeep || s.pkg.power == .toOff
    || s.pkg.power == .armed

/-! ## Receivers (R29, R334 step 2) -/

/-- A receiver may run: the plan keeps it, its home region's die is there and reloaded, no power state is entered. -/
def State.rxMay (s : State) (n : Nat) : Bool :=
  s.rxKept s.units n && !s.leaving
    && !(decide (2 ≤ s.fget (fRADIO_RX_CFG_home n)) && Config.hasDie1 s.variant && (s.girth.die1Wait || s.units != 0))

/-- plan_off of one receiver follows, and an enabled one is turned off or on with it (R120, log entry 43). -/
def State.rxPlanOne (s : State) (n : Nat) : State :=
  let off := s.fon (fRADIO_RX_STATUS_plan_off n)
  let en := s.fon (fRADIO_RX_CFG_en n)
  if s.rxMay n then
    if off then (s.fset (fRADIO_RX_STATUS_plan_off n) 0).iff en (fun t => t.rxEnable n) else s
  else if off then s
  else (s.iff en (fun t => t.rxDisable n)).fset (fRADIO_RX_STATUS_plan_off n) 1

/-- plan_off of every receiver follows. -/
def State.rxPlan (s : State) : State := (List.range (Config.receivers s.variant)).foldl (fun t n => t.rxPlanOne n) s

/-! ## Compute die 1 (R29) -/

/-- An engine of a die whose power is removed: all its state is lost, and it does not run until it is restarted. Its ENGCTL
I-SRAM window is lost with it, though the registers lie in the die service island of compute die 0 (DESIGN CHOICE, log
entry 60). -/
def Engine.lost (e : Engine) : Engine := { run := if e.run = .gated then .gated else .stopped }

/-- What the decoder pool and the region services of compute die 1 held is lost: frames, contexts, held codewords,
ingress states, reports on their way, command blocks being fetched. -/
def State.die1Decoders (s : State) : State :=
  let homed (n : Nat) : Bool := decide (2 ≤ (s.rx n).home)
  let s1 := s.modDec (fun d => { d with
    frames := d.frames.filter (fun e => decide (e.2.region < 2))
    ctxs := d.ctxs.filter (fun e => decide (e.1 < 48))
    holds := d.holds.filter (fun h => decide (h.region < 2))
    ingress := d.ingress.filter (fun e => decide (e.2.region < 2)) })
  { s1 with radio := { s1.radio with
      reports := s1.radio.reports.filter (fun r => match r with
        | .sync _ _ _ h _ => decide (h < 2)
        | .ended n _ _ _ => !homed n)
      submits := s1.radio.submits.filter (fun x => decide (x.1 < 64) || x.1 == 128) } }

/-- The memories of compute die 1 without content: regions 2 and 3, the SRAMs of engines 64–127, the decode tables of
clusters 8–15. -/
def State.die1Memory (s : State) : State :=
  ((((s.fill 0x03000000 0x04000000).fill (dKey 64 0) (dKey 128 0)).fill (iKey 64 0) (iKey 128 0)).fill (dtabKey 8 0)
    (dtabKey 16 0))

/-- Links 2, 3 and 4 set to a state (0 DOWN, 1 TRAIN). -/
def State.die1Links (s : State) (v : Nat) : State := [2, 3, 4].foldl (fun t l => t.fset (fLATIGO_STATUS_state l) v) s

/-- Compute die 1 powers down in the order of R29, after its receivers. Outstanding transactions complete normally.
The fence tables of its regions are lost with it (log entry 60). -/
def State.die1Down (s : State) : State :=
  if !Config.hasDie1 s.variant || s.pkg.die1 == .down then s
  else
    let s1 := [2, 3, 4].foldl (fun t l => t.txnsEnd l (fun _ => true) false) s
    let s2 := ((List.range 64).foldl (fun t i => t.modEng (64 + i) Engine.lost) s1).die1Links 0
    let s3 := (List.range 8).foldl (fun t i => t.modClu (8 + i) (fun _ => {})) s2.die1Decoders.die1Memory
    let s4 := (List.range 128).foldl (fun t e => t.setReg (aTENANT_RFENCE (2 + e / 64) (e % 64)) 0#32) s3
    let s5 : State := { s4 with
      faults := s4.faults.filter (fun f => decide (f.1 < 64) || f.1 == 128)
      flight := s4.flight.filter (fun f => decide (f.target < 64) || f.target == 128), pkg := { s4.pkg with die1 := .down } }
    (s5.modGirth (fun g => { g with die1Wait := false })).fset fGIRTH_STATUS_die1_ready 0

/-- Compute die 1 powers up: links 2–4 train and its memories fill (R29). -/
def State.die1Rise (s : State) : State :=
  if s.pkg.die1 == .down && Config.hasDie1 s.variant then
    (({ s with pkg := { s.pkg with die1 := .rising false } } : State).die1Links 1).modGirth (fun g => { g with die1Wait := true })
  else s

/-- A cluster of an owned, started tenant is released from now on. -/
def State.cluRelease (s : State) (c : Nat) : State :=
  match s.clusterTenant c with
  | some t => s.iff (s.started t) (fun u => u.modClu c (fun x => { x with released := true, cyc2 := 0, cycAt := u.mono }))
  | none => s

/-- Compute die 1 is back once its memories are filled and links 2, 3 and 4 are UP. Its engines wait for the supervisor
to reload and restart them. -/
def State.die1Settle (s : State) : State :=
  if s.pkg.die1 == .rising true && [2, 3, 4].all (fun l => s.linkState l == 2) then
    (List.range 8).foldl (fun t i => t.cluRelease (8 + i)) { s with pkg := { s.pkg with die1 := .up } }
  else s

/-! ## Clusters (R22, R333, R334 step 4) -/

/-- The plan stops cluster c of compute die 0 (R332). -/
def State.planHeld (s : State) (c : Nat) : Bool := s.units == 2 && decide (c < 8) && !s.girth.frugalPair.contains c

/-- The cluster is held: by the plan, or by SLEEP, which holds the supervisor too (R333, R343). -/
def State.cluStop (s : State) (c : Nat) : Bool := s.pkg.power == .sleep || (c != 16 && s.planHeld c)

/-- The cores of a cluster are held at their instruction boundaries, or run on where they stopped; the halter pauses or
runs on (R333). -/
def State.cluHold (s : State) (c : Nat) : State :=
  let on := s.cluStop c
  let s1 := (coresOf c).foldl (fun t n =>
    if (t.eng n).hold == on then t else t.modEng n (fun e => ({ e with hold := on } : Engine).wake)) s
  s1.haltSync c

/-- Every cluster and the supervisor held or not. -/
def State.cluHolds (s : State) : State := (List.range 17).foldl (fun t c => t.cluHold c) s

/-- The frequency code of a cluster without clamps: of the CONFIG section, or frugal_mhz (R332). -/
def State.baseFreq (s : State) (c : Nat) : Nat :=
  if s.units = 2 && s.girth.frugalPair.contains c then s.girth.frugalFreq else tabGet 0 s.girth.cfgFreq c

/-- The frequency of a cluster follows the plan, less its clamp (R331). -/
def State.planFreq (s : State) (c : Nat) : State :=
  let k := min (tabGet 0 s.girth.clamp c) (s.baseFreq c)
  let s1 := s.modGirth (fun g => { g with clamp := tabSet 0 g.clamp c k })
  if s.fget (fENGCTL_CL_freq c) = s.baseFreq c - k then s1 else s1.setFreq c (s.baseFreq c - k)

/-- Frequencies of every cluster. -/
def State.planFreqs (s : State) : State := (List.range (Config.clusters s.variant)).foldl (fun t c => t.planFreq c) s

/-- Region 1 in retention, or out of it; contexts that now are powered serve what waits (R333). -/
def State.planRegions (s : State) : State :=
  let mask := if s.units = 2 && s.hasRegion 1 then 2 else 0
  (List.range 4).foldl (fun t r => t.giveContexts r (t.decoder.holds.length + 1))
    { s with pkg := { s.pkg with retained := mask } }

/-! ## Paths and tuners (R334 step 5) -/

/-- Rates and enabled tuners recorded when the plan leaves FULL: what "as the image" restores (log entry 44). -/
def State.recordFull (s : State) : State :=
  s.modGirth (fun g => { g with
    fullRate := [0, 1].foldl (fun t p => tabSet 0 t p (s.fget (fRADIO_PATH_CTRL_rate p))) []
    fullTuners := (List.range 16).filter (fun t => s.fon (fRADIO_TUNER_CFG_en t)) })

/-- The rate of path p under the plan: reduced, except in FULL. -/
def State.planRateOf (s : State) (p : Nat) : Nat := if s.units = 0 then tabGet 0 s.girth.fullRate p else 1

/-- Path p put in SLEEP whatever state_req says. -/
def State.pathOff (s : State) (p : Nat) : State :=
  let s1 := if s.pathState p = 2 then s.leaveReceive p else s
  (s1.setPathState p 0).modPath p (fun x => { x with move := .rest, lnaEn := false, off := true, cycling := none })

/-- Path p follows its state_req again. -/
def State.pathOn (s : State) (p : Nat) : State :=
  if (s.path p).off then
    (s.modPath p (fun x => { x with off := false })).pathWant p (s.fget (fRADIO_PATH_CTRL_state_req p))
  else s

/-- The rate of path p changed to that of the plan; a tuner that the plan had disabled comes back where it fits. -/
def State.pathPlan (s : State) (p : Nat) : State :=
  if s.fget (fRADIO_PATH_CTRL_rate p) = s.planRateOf p then s.tunersBack p else s.planRate p (s.planRateOf p)

/-- Path A, then path B: B cycles once A is back in RECEIVE, and is off in FRUGAL (Table 13-3). -/
def State.planPaths (s : State) : State :=
  let cycles := s.pathState 0 == 2 && s.fget (fRADIO_PATH_CTRL_rate 0) != s.planRateOf 0
  let s1 := s.pathPlan 0
  if !s.hasPath 1 then s1
  else if s.units = 2 then
    (List.range 8).foldl (fun t i => if t.fon (fRADIO_TUNER_CFG_en (8 + i)) then t.tunerOff (8 + i) else t) (s1.pathOff 1)
  else
    let s2 := if cycles && s1.fget (fRADIO_PATH_CTRL_rate 1) ≠ s1.planRateOf 1 then
        s1.modPath 1 (fun x => { x with cycling := some (s1.planRateOf 1) })
      else s1.pathPlan 1
    s2.pathOn 1

/-! ## Chains and ports (R334 step 6) -/

/-- The plan turns chain c off: TXH outside FULL. -/
def State.chainPlanOff (s : State) (c : Nat) : Bool := c == 1 && s.units != 0

/-- The plan holds chain c in SLEEP with auto_wake: TXL in FRUGAL. -/
def State.chainPlanSleep (s : State) (c : Nat) : Bool := c == 0 && s.units == 2

/-- A chain turned off completes its queue CHAIN_OFF and goes to SLEEP after its carriers; one put in SLEEP keeps its
queue; one that is released follows its state_req again (R334, R92). -/
def State.planChain (s : State) (c : Nat) : State :=
  let off := s.chainPlanOff c
  let slp := s.chainPlanSleep c
  let h := s.chain c
  if h.off == off && h.planSleep == slp then s
  else
    let s1 := s.modChain c (fun k => { k with off := off, planSleep := slp })
    if off then
      let s2 := s1.unstart c
      (s2.failAll c 0xC (s2.chain c).queue).chainRest c
    else if slp then s1.chainRest c
    else s1.chainFollow c

/-- An Ethernet port is held down: by FRUGAL, unless eth_frugal keeps it, or by SLEEP. -/
def State.ethHeld (s : State) (p : Nat) : Bool :=
  s.pkg.power == .sleep || (s.units == 2 && !bitN s.girth.ethFrugal p)

/-- An Ethernet port goes down, or may come up again. -/
def State.planEth (s : State) (p : Nat) : State :=
  let on := s.ethHeld p
  if (s.port p).held == on then s
  else (s.iff on (fun t => t.linkDown p)).modPort p (fun x => { x with held := on })

/-! ## A change of plan (R334) -/

/-- The units of a worse plan, in the order of R334. -/
def State.unitsDown (s : State) : State :=
  let s1 := s.rxPlan
  let s2 := (s1.iff (s1.units != 0) State.die1Down).planRegions
  let s3 := s2.cluHolds.planFreqs.planPaths
  ((s3.planChain 0).planChain 1).planEth 0 |>.planEth 1

/-- The units of a better plan: the same steps in reverse. -/
def State.unitsUp (s : State) : State :=
  let s1 := (((s.planEth 1).planEth 0).planChain 1).planChain 0
  let s2 := s1.planPaths.planFreqs.cluHolds.planRegions
  (s2.iff (s2.units == 0) State.die1Rise).rxPlan

/-- A change of plan starts: `old` is the plan that is left. -/
def State.planChange (s : State) (old : Nat) : State :=
  let s1 := (s.iff (old == 0) State.recordFull).fset fGIRTH_STATUS_changing 1
  if old < s.plan then s1.unitsDown else s1.unitsUp

/-- The change is complete: no path cycles, no chain still owes its SLEEP, compute die 1 does not wait. -/
def State.changeOver (s : State) : Bool :=
  [0, 1].all (fun p => (s.path p).move == .rest && (s.path p).cycling.isNone)
    && [0, 1].all (fun c => !((s.chain c).off || (s.chain c).planSleep) || !(s.chain c).sleepDue)
    && !s.girth.die1Wait

end Sys2Proof.Machine
end

