-- ==== Sys2Proof/Machine/Power.lean ====
section
/-!
DEFINITION. The package power states (R340–R348), SURVIVAL (R335), the end of a plan change, and the suspension of a
tenant (R292). What a reset clears, and the start after it, are in Reset.lean and Boot.lean; a wake from DEEP_SLEEP
leads there through `stage`.
-/

namespace Sys2Proof.Machine

/-- The package record changed. -/
def State.modPkg (s : State) (f : PkgSt → PkgSt) : State := { s with pkg := f s.pkg }

/-- No carrier is on air and both front ends rest. -/
def State.airSilent (s : State) : Bool :=
  [0, 1].all (fun c => (s.chain c).air.isEmpty && (s.chain c).feStep == 0)

/-- A page is being programmed (R373). -/
def State.flashWrites (s : State) : Bool :=
  match s.flash.act with
  | some (.program _) => true
  | _ => false

/-! ## Wake record (R348) -/

/-- The states that a wake source wakes from (Table 13-10). -/
def wakesFrom (k : Nat) (p : PowerSt) : Bool :=
  match p with
  | .toSleep | .sleep => decide (1 ≤ k) && decide (k ≤ 5)
  | .toDeep | .deepSleep => decide (1 ≤ k) && decide (k ≤ 4)
  | .toOff | .armed | .off => k == 1 || k == 2 || k == 6
  | .run => false

/-- Source k is enabled: by PWR_CTRL, whose value at entry counts once the register has no power; 6 always. -/
def State.wakeEnabled (s : State) (k : Nat) : Bool :=
  k == 6 || bitN (if s.pkg.power = .deepSleep || s.pkg.power = .off then s.pkg.wakeEn else s.fget fPWR_CTRL_wake_en) (k - 1)

/-- The lowest source of a mask. -/
def lowestSource (m : Nat) : Nat := ((List.range 6).find? (fun i => bitN m i)).getD 0 + 1

/-- The wake record written: every source that fired, the lowest, the count and the RTC time. -/
def State.wakeRecord (s : State) : State :=
  ((((s.fset fPWR_WAKE_SET_fired s.pkg.fired).fset fPWR_WAKE_SRC_source (lowestSource s.pkg.fired)).fsat
    fPWR_WAKE_SRC_wakes).fset fPWR_WAKE_TIME_rtc_s s.rtcLow).modPkg (fun p => { p with fired := 0 })

/-! ## SLEEP (R343, Table 13-7) -/

/-- The front-end balls of the paths while the radio die has no power: LNA_A_BYP is high while the Stirrup listens
(Table 13-9). -/
def State.clampPath (s : State) (p : Nat) : State :=
  (s.pathOff p).modPath p (fun x => { x with lnaByp := p == 0 && s.fon fSTIRRUP_CFG_en })

/-- Paths and chains in SLEEP with their balls clamped (Table 13-7 step 5, Table 13-9). -/
def State.radioOff (s : State) : State := (((s.clampPath 0).clampPath 1).chainSleep 0).chainSleep 1

/-- The island cycles of a cluster that is held stop, or go on from now. -/
def State.cycleStop (s : State) (c : Nat) : State :=
  s.modClu c (fun x => { x with
    cyc2 := if x.released then x.cyc2 + (s.mono - x.cycAt) * (s.mhz c / 20) else x.cyc2, cycAt := s.mono })

/-- The island cycles of a cluster go on from now. -/
def State.cycleGo (s : State) (c : Nat) : State := s.modClu c (fun x => { x with cycAt := s.mono })

/-- SLEEP left at a wake (Table 13-7 steps 7–11): the record, ports, paths, receivers, chains, clusters, the flash. -/
def State.sleepExit (s : State) : State :=
  let s1 := (s.wakeRecord.modPkg (fun p => { p with power := .run })).fset fPWR_STATUS_state 0
  let s2 := (((List.range 17).foldl State.cycleGo s1).cluHolds.planEth 0).planEth 1
  let s3 := [0, 1].foldl (fun t p => t.modPath p (fun x => { x with lnaByp := t.fon (fRADIO_PATH_CTRL_lna_byp p) })) s2
  let s4 := (s3.pathOn 0).iff (s3.units != 2) (fun t => t.pathOn 1)
  ((s4.rxPlan.chainFollow 0).chainFollow 1).flashWake

/-- SLEEP entered (Table 13-7 steps 3–6), with the plan at entry in the wake record. A source that has fired since the request wakes at once. -/
def State.sleepEnter (s : State) : State :=
  let s1 := ((s.modPkg (fun p => { p with power := .sleep })).fset fPWR_STATUS_state 2).fset fPWR_WAKE_SRC_plan s.plan
  let s2 := (((List.range 17).foldl State.cycleStop s1).cluHolds.planEth 0).planEth 1
  let s3 := s2.radioOff.flashPause
  if s3.pkg.fired = 0 then s3 else s3.sleepExit

/-! ## DEEP_SLEEP and OFF (R344, Table 13-8) -/

/-- The air is silent: step 2 of Tables 13-7 and 13-8 runs, and what is left of the entry once no page is being programmed
(R373). -/
def State.entryGo (s : State) (f : State → State) : State :=
  if s.airSilent then
    let s1 := s.flashHalt
    if s1.flashWrites then s1 else f s1
  else s

/-- Steps 2–4 of Table 13-8: the flash, the ledger, the entry record. -/
def State.entrySteps (s : State) : State :=
  let s1 := s.flashPause.closePartial
  (s1.fset fPWR_WAKE_SRC_plan s.plan).modPkg (fun p => { p with
    sleptAt := s.rtc.sec, callId := 0xFE0000 + s.fget fRELAY_DEVADDR_device
    wakeEn := s.fget fPWR_CTRL_wake_en + (if s.fon fPWR_WAKE_SRC_surv_active && !bitN (s.fget fPWR_CTRL_wake_en) 0 then 1 else 0) })

/-- Steps 1–5 of Table 13-8 for OFF: the package runs on with off_armed until its supplies fall (R342). -/
def State.offArm (s : State) : State :=
  let s1 := s.entrySteps.radioOff
  ((((s1.linkDown 0).linkDown 1).modCinch (fun c => { c with out := false, outRise := none })).modPkg (fun p => { p with power := .armed })).fset
    fPWR_STATUS_off_armed 1

/-- Step 1 of Tables 13-7 and 13-8: admissions stop, receivers go off, start sequences return to their queues. -/
def State.startReq (s : State) (k : Nat) : State :=
  let p : PowerSt := if k = 2 then .toSleep else if k = 3 then .toDeep else .toOff
  let s1 := (s.modPkg (fun x => { x with power := p, fired := 0, reqWait := 0 })).rxPlan
  ((s1.unstart 0).settle 0 |>.unstart 1).settle 1

/-- What waits for the end of a change goes on: `changing` clears, a waiting request starts (R342), and OFF arms once
the air is silent. -/
def State.powerNext (s : State) : State :=
  let s1 := if s.fon fGIRTH_STATUS_changing && s.changeOver then s.fset fGIRTH_STATUS_changing 0 else s
  let s2 := if s1.pkg.power = .run && s1.pkg.reqWait ≠ 0 && !s1.fon fGIRTH_STATUS_changing && s1.pkg.stage = .run then
      s1.startReq s1.pkg.reqWait
    else s1
  if s2.pkg.power = .toOff then s2.entryGo State.offArm else s2

/-- A request of state 2 SLEEP, 3 DEEP_SLEEP or 4 OFF; others are ignored (R342). -/
def State.powerReq (s : State) (k : Nat) : State :=
  if k < 2 || 4 < k then s else (s.modPkg (fun p => { p with reqWait := k })).powerNext

/-- A write of PWR_CTRL. -/
def State.pwrCtrlWrite (s : State) (v : Nat) : State := (s.fset fPWR_CTRL_wake_en (bitsN v 15 8)).powerReq (v % 8)

/-- The word of a write with its state_req replaced. -/
def pwrWord (v : Word) (k : Nat) : Nat := v.toNat / 8 * 8 + k

/-- SLEEP_REQUEST (R342). -/
def execSleepRequest (m : Master) (v : Word) (s : State) : Host.Outcome State Fault Refusal :=
  .next (s.regGate m aPWR_CTRL (fun t => t.pwrCtrlWrite (pwrWord v 2)))

/-- DEEP_SLEEP_REQUEST (R342). -/
def execDeepSleepRequest (m : Master) (v : Word) (s : State) : Host.Outcome State Fault Refusal :=
  .next (s.regGate m aPWR_CTRL (fun t => t.pwrCtrlWrite (pwrWord v 3)))

/-- OFF_REQUEST (R342). -/
def execOffRequest (m : Master) (v : Word) (s : State) : Host.Outcome State Fault Refusal :=
  .next (s.regGate m aPWR_CTRL (fun t => t.pwrCtrlWrite (pwrWord v 4)))

/-- SLEEP_ENTRY: the carriers on air have ended and no page is being programmed (R343, R373). -/
def execSleepEntry (s : State) : Host.Outcome State Fault Refusal :=
  .next (s.iff (s.pkg.power == .toSleep) (fun t => t.entryGo State.sleepEnter))

/-- PAGE_PROGRAM_DONE: the page being programmed ends; `ok`: the flash reported no error (R366). OFF may wait for it. -/
def execPageProgramDone (ok : Bool) (s : State) : Host.Outcome State Fault Refusal := .next (s.pageEnds ok).powerNext

/-! ## SURVIVAL (R335) -/

/-- The plan falls to SURVIVAL: the entry counted, surv_active, the alarm, and the request of DEEP_SLEEP. -/
def State.survEnter (s : State) : State :=
  (((s.finc fGIRTH_COUNT_survival).fset fPWR_WAKE_SRC_surv_active 1).fset fPWR_WAKE_AT_alarm_s
    (s.rtcLow + s.fget fSURV_CFG_period_s)).powerReq 3

/-- SURVIVAL_WINDOW_END (R335): to FRUGAL with mains or when every close of the window chose better, else to
DEEP_SLEEP until the wake time plus period_s. -/
def execSurvivalWindowEnd (s : State) : Host.Outcome State Fault Refusal :=
  .next (s.iff s.pkg.window (fun t =>
    let t1 := t.modPkg (fun p => { p with window := false })
    if t.fon fGIRTH_STATUS_mains_ok || (decide (0 < t.pkg.winCloses) && t.pkg.winBetter) then
      (t1.setPlan 2).fset fPWR_WAKE_SRC_surv_active 0
    else
      (t1.fset fPWR_WAKE_AT_alarm_s (t1.fget fPWR_WAKE_TIME_rtc_s + t1.fget fSURV_CFG_period_s)).powerReq 3))

/-! ## Steps that end a change (R334) -/

/-- PATH_RECEIVE_REACHED (R83, R334). -/
def execPathReceiveReached (p : Bool) (s : State) : Host.Outcome State Fault Refusal :=
  .next (s.iff ((s.path (b2n p)).move == .toReceive) (fun t => (t.pathReceive (b2n p)).powerNext))

/-- FRONT_END_STEP: step k of Table 3-5 (R102). -/
def execFrontEndStep (txh : Bool) (k : BitVec 4) (s : State) : Host.Outcome State Fault Refusal :=
  .next (s.frontEnd (b2n txh) k.toNat).powerNext

/-- TX_CARRIER_END (R91). -/
def execTxCarrierEnd (txh : Bool) (i : BitVec 2) (s : State) : Host.Outcome State Fault Refusal :=
  .next (s.carrierEnd (b2n txh) i.toNat).powerNext

/-- A write of die1_ready: receivers homed on compute die 1 run again and its halters count (R334, log entry 45). -/
def State.die1Ready (s : State) : State :=
  if !s.die1Up then s
  else if s.girth.die1Wait then
    let s1 := ((s.fset fGIRTH_STATUS_die1_ready 1).modGirth (fun g => { g with die1Wait := false })).rxPlan
    ((List.range 8).foldl (fun t i => (t.haltLoad (8 + i) (t.fget (fENGCTL_CL_halt_us (8 + i)))).haltSync (8 + i)) s1).powerNext
  else s.fset fGIRTH_STATUS_die1_ready 1

/-- DIE1_READY (R334). -/
def execDie1Ready (m : Master) (s : State) : Host.Outcome State Fault Refusal :=
  .next (s.regGate m aGIRTH_STATUS State.die1Ready)

/-! ## Suspension of a tenant (R292) -/

/-- The clusters of tenant t whose die has power. -/
def State.clustersOf (s : State) (t : Nat) : List Nat :=
  (List.range (Config.clusters s.variant)).filter (fun c => s.clusterTenant c == some t && (decide (c < 8) || s.die1Up))

/-- Tenant t suspended: engines stop and halters pause, receivers are disabled, queued commands of its engines complete
CANCELLED; running ones go on. Its new submissions are answered BUSY from then on. -/
def State.suspendTenant (s : State) (t : Nat) : State :=
  let s1 := s.fset (fTENANT_CFG_suspend t) 1
  let s2 := (s1.clustersOf t).foldl (fun u c => ((enginesOf c).foldl State.stopEng u).haltSync c) s1
  let s3 := (s2.rxOn.filter (fun n => s2.fget (fRADIO_RX_CFG_tenant n) == t)).foldl (fun u n =>
    (u.rxDisable n).fset (fRADIO_RX_CFG_en n) 0) s2
  let mine (x : TxCmd) : Bool := x.tenant == t && (match x.who with
    | .engine _ => true
    | _ => false)
  [0, 1].foldl (fun u c =>
    let u1 := u.failAll c 0xD ((u.chain c).queue.filter mine)
    match (u1.chain c).start with
    | some x => if mine x.cmd then u1.startFail c x 0xD else u1
    | none => u1) s3

/-- Tenant t resumed: every engine of it restarts (R19). -/
def State.resumeTenant (s : State) (t : Nat) : State :=
  let s1 := s.fset (fTENANT_CFG_suspend t) 0
  if s1.started t then
    (s1.clustersOf t).foldl (fun u c => (u.restartEngs (enginesOf c)).haltSync c) s1
  else s1

/-- The suspend bit written: for a declared tenant, on a change of the bit. -/
def State.suspendWrite (s : State) (t : Nat) (on : Bool) : State :=
  if !s.declared t || s.suspended t == on then s
  else if on then s.suspendTenant t else s.resumeTenant t

/-- TENANT_SUSPEND (R292). -/
def execTenantSuspend (m : Master) (t : BitVec 4) (s : State) : Host.Outcome State Fault Refusal :=
  .next (s.regGate m (aTENANT_CFG t.toNat) (fun u => u.suspendWrite t.toNat true))

/-- TENANT_RESUME (R292). -/
def execTenantResume (m : Master) (t : BitVec 4) (s : State) : Host.Outcome State Fault Refusal :=
  .next (s.regGate m (aTENANT_CFG t.toNat) (fun u => u.suspendWrite t.toNat false))

end Sys2Proof.Machine
end

