-- ==== Sys2Proof/Machine/Upkeep.lean ====
section
/-!
DEFINITION. Upkeep of memory (chapter 14): write-backs, flip masks, granule clears, the Burnisher; and the writer of the
operator log (R76–R78).
-/

namespace Sys2Proof.Machine

/-- ECC_WRITEBACK: the oldest corrected word that waits is written back with right check bits (R350). -/
def execEccWriteback (s : State) : Host.Outcome State Fault Refusal :=
  .next (match s.upkeep.wback with
    | [] => s
    | k :: rest => ({ s with upkeep := { s.upkeep with wback := rest } } : State).setFlip k 0#72)

/-- MEM_FLIP_ARM: a write of MEM_FLIP word 2; memory codes 2–8 arm, others are ignored (R356). -/
def State.memFlipArm (s : State) (v : Nat) : State :=
  let m := bitsN v 11 8
  let s1 := (s.fset fMEM_FLIP_mem m).fset fMEM_FLIP_check (bitsN v 7 0)
  if bitN v 31 && decide (2 ≤ m) && decide (m ≤ 8) then s1.fset fMEM_FLIP_armed 1 else s1

/-- MEM_FLIP_ARM (R356). -/
def execMemFlipArm (v : Word) (s : State) : Host.Outcome State Fault Refusal := .next (s.memFlipArm v.toNat)

/-- A valid fence window of the space holds a granule of [f, l]. -/
def State.windowMeets (s : State) (sys : Bool) (r f l : Nat) : Bool :=
  if sys then
    (List.range 32).any (fun i => s.fon (fTENANT_SFENCE_valid i) && s.fget (fTENANT_SFENCE_space i) == 0
      && decide (s.fget (fTENANT_SFENCE_first i) ≤ l) && decide (f ≤ s.fget (fTENANT_SFENCE_last i)))
  else
    (List.range 64).any (fun i => s.fon (fTENANT_RFENCE_valid r i)
      && decide (s.fget (fTENANT_RFENCE_first r i) ≤ l) && decide (f ≤ s.fget (fTENANT_RFENCE_last r i)))

/-- A write of MEM_CLEAR: its fields are set, W1C err clears, and go starts the clear or is refused with err (R355). -/
def State.memClear (s : State) (v : Nat) : State :=
  let sys := bitN v 28
  let r := bitsN v 27 26
  let f := bitsN v 6 0
  let l := bitsN v 18 12
  let s0 := if bitN v 29 then s.fset fMEM_CLEAR_err 0 else s
  let s1 := (((s0.fset fMEM_CLEAR_space (b2n sys)).fset fMEM_CLEAR_region r).fset fMEM_CLEAR_last l).fset fMEM_CLEAR_first f
  if !bitN v 31 || s.fon fMEM_CLEAR_busy then s1
  else if l < f || (sys && decide (f < 96)) || s.windowMeets sys r f l then s1.fset fMEM_CLEAR_err 1
  else
    let base := if sys then 0x04000000 else 0x02000000 + r * 0x800000
    let s2 := s1.fset fMEM_CLEAR_busy 1
    { s2 with upkeep := { s2.upkeep with clearing := some (base + f * 0x10000, base + (l + 1) * 0x10000) } }

/-- MEM_CLEAR (R355). -/
def execMemClear (v : Word) (s : State) : Host.Outcome State Fault Refusal := .next (s.memClear v.toNat)

/-- MEM_CLEAR_DONE: the granules hold zeros and busy clears (R355). -/
def execMemClearDone (s : State) : Host.Outcome State Fault Refusal :=
  .next (match s.upkeep.clearing with
    | none => s
    | some (lo, hi) =>
      let s1 := (s.fill lo hi).fset fMEM_CLEAR_busy 0
      { s1 with upkeep := { s1.upkeep with clearing := none } })

/-! ## The Burnisher (R357, R358) -/

/-- Groups of 64 words of each memory code. -/
def burnGroups (m : Nat) : Nat := if m = 7 then 512 else 16384

/-- The memory code and the first word of a group, walking the memories in the order of their codes. -/
def burnPlace (m fuel g : Nat) : Nat × Nat :=
  match fuel with
  | 0 => (m, g * 64)
  | k + 1 => if g < burnGroups m then (m, g * 64) else burnPlace (m + 1) k (g - burnGroups m)

/-- Key of word w of a memory. -/
def burnKey (m w : Nat) : Nat :=
  match m with
  | 0 => iKey (w / 8192) (w % 8192 * 8)
  | 1 => dKey (w / 8192) (w % 8192 * 8)
  | 6 => 0x04000000 + w * 8
  | 7 => supKey (w * 8)
  | 8 => 0x05000000 + w * 8
  | _ => 0x02000000 + (m - 2) * 0x800000 + w * 8

/-- The Burnisher visits a memory word: not one that is absent, powered down or in retention (R357). -/
def State.burnReach (s : State) (m w : Nat) : Bool :=
  match m with
  | 0 | 1 =>
    let e := w / 8192
    decide (e < Config.engines s.variant) && (decide (e < 64) || s.die1Up)
  | 6 | 7 | 8 => true
  | _ => s.regionUp (m - 2)

/-- One word checked: corrected in place, or reported (R358). -/
def State.burnWord (s : State) (k : Nat) : State :=
  match s.word64 k with
  | (_, .ok) => s
  | (_, .corrected) => (s.setFlip k 0#72).finc (fMEM_CNT_corrected (memCode k))
  | (_, .bad) => s.noteBad k (memAddr k) 0x7F false

/-- n words from key k on. -/
def State.burnWords (s : State) (k n : Nat) : State :=
  match n with
  | 0 => s
  | m + 1 => (s.burnWord k).burnWords (k + 8) m

/-- The Burnisher may read the words of a group now: not in a granule that is being cleared, where it waits (R355). -/
def State.burnFree (s : State) : Bool :=
  let p := burnPlace 0 9 s.upkeep.burnGroup
  !s.clearMeets (burnKey p.1 p.2) 512

/-- The package is in SLEEP or below, where the Burnisher pauses (R357). -/
def PowerSt.asleep (p : PowerSt) : Bool := p == .sleep || p == .deepSleep || p == .off

/-- BURNISHER_GROUP: the next group of 64 words (R357, R358); not while off, or in SLEEP and below. -/
def execBurnisherGroup (s : State) : Host.Outcome State Fault Refusal :=
  .next (s.iff (s.fon fMEM_BURN_CFG_en && !s.pkg.power.asleep && s.burnFree) (fun t =>
    let g := t.upkeep.burnGroup
    let p := burnPlace 0 9 g
    let t1 := if t.burnReach p.1 p.2 then t.burnWords (burnKey p.1 p.2) 64 else t
    let g1 := (g + 1) % 131584
    let t2 := { t1 with upkeep := { t1.upkeep with burnGroup := g1 } }
    (t2.fset fMEM_BURN_STATUS_mem (burnPlace 0 9 g1).1).iff (g1 == 0) (fun u => u.finc fMEM_BURN_STATUS_passes)))

/-! ## The operator log -/

/-- Address of the entry with a sequence number (R76). -/
def logAddr (seq : Nat) : Nat := 0x05021000 + seq % 2048 * 0x20

/-- LOG_WRITE_STEP: the next of the three writes of the oldest entry; the third frees its place (R77). -/
def execLogWriteStep (s : State) : Host.Outcome State Fault Refusal :=
  .next (match s.log.buf with
    | [] => s
    | x :: rest =>
      let a := logAddr x.seq
      let head (code : Nat) : Nat := code + x.tenant * 2 ^ 16 + x.engine * 2 ^ 24 + x.seq % 2 ^ 32 * 2 ^ 32
      let put (t : State) (b : List LogItem) : State := { t with log := { t.log with buf := b } }
      match x.step with
      | 0 => put (s.setWord64 a (head 0) 0#72) ({ x with step := 1 } :: rest)
      | 1 =>
        put (((s.setWord64 (a + 8) (x.frame % 2 ^ 32 + x.rtc % 2 ^ 32 * 2 ^ 32) 0#72).setWord64 (a + 16)
          (x.d0 % 2 ^ 32 + x.d1 % 2 ^ 32 * 2 ^ 32) 0#72).setWord64 (a + 24)
          (x.d2 % 2 ^ 32 + x.d3 % 2 ^ 32 * 2 ^ 32) 0#72) ({ x with step := 2 } :: rest)
      | _ => put (s.setWord64 a (head x.code) 0#72) rest)

/-- A write of SYS_LOG_ADD0: queues the supervisor's entry; codes below 0x8000 are ignored (R78). With no_tenant set the
tenant byte is 0x80, whatever the tenant field holds (DESIGN CHOICE, log entry 71). -/
def State.logAddWrite (s : State) (v : Nat) : State :=
  if bitsN v 31 16 < 0x8000 then s
  else
    s.logAdd (bitsN v 31 16) (if bitN v 11 then 0x80 else bitsN v 15 12) (bitsN v 6 0) (s.reg aSYS_LOG_ADD_w1).toNat
      (s.reg aSYS_LOG_ADD_w2).toNat (s.reg aSYS_LOG_ADD_w3).toNat (s.reg aSYS_LOG_ADD_w4).toNat

/-- LOG_ADD (R78). -/
def execLogAdd (v : Word) (s : State) : Host.Outcome State Fault Refusal := .next (s.logAddWrite v.toNat)

end Sys2Proof.Machine
end

