-- ==== Sys2Proof/Machine/Reset.lean ====
section
/-!
DEFINITION. Package resets and what they clear (R30, R73–R75, R450, R451, R461), DEEP_SLEEP and OFF with the wakes that
end them (R344–R348), and the sources that wake the package. The start itself is in Boot.lean.
-/

namespace Sys2Proof.Machine

/-! ## What a reset keeps -/

/-- Registers of the always-on domain, the RTC among them, and the backbone counter whose place is unstated (log entry
40). -/
def alwaysOnReg (a : Nat) : Bool :=
  a == aSYS_RESET_REASON || a == aPWR_WAKE_SRC || a == aPWR_WAKE_TIME || a == aPWR_WAKE_SET || a == aPWR_WAKE_AT
    || a == aSTIRRUP_CFG || a == aSTIRRUP_COUNT || a == aSURV_CFG || a == aRTC_CTRL || a == aRTC_STATUS
    || a == aRTC_VBAT_TS0 || a == aRTC_VBAT_TS1 || a == aRTC_VBAT_STAT || a == aTABLE_BB_CTR

/-- Bytes that a reset keeps: the persistent store and the flash; `deep`: the retention SRAM too (Table 13-5). -/
def keptKey (deep : Bool) (k : Nat) : Bool :=
  (decide (0x05000000 ≤ k) && decide (k < 0x05800000)) || (decide (0x100000000 ≤ k) && decide (k < 0x200000000))
    || (deep && decide (0x04700000 ≤ k) && decide (k < 0x04800000))

/-- A settings block that start-up replaces, cut by a reset (R71, R360). -/
def State.settingsCut (s : State) : State :=
  if s.pkg.stage = .settings && !s.settingsGood s.settingsRead.1 then s.cutWrite settingsKey s.settingsNew else s

/-- Every domain but the always-on one, which holds the supervisor's fault record (R256), loses its state; `deep`: the
retention SRAM keeps its content and the Burnisher its place (R357). The monotonic count starts again (R189). -/
def State.powerCut (s : State) (deep : Bool) : State :=
  let t := s.flashCut.cipherCut.settingsCut
  { ({} : State) with
    pending := t.pending
    variant := t.variant
    regs := t.regs.filter (fun e => alwaysOnReg e.1)
    mem := t.mem.filter (fun e => keptKey deep e.1)
    upkeep := { flips := t.upkeep.flips.filter (fun e => keptKey deep e.1), burnGroup := if deep then t.upkeep.burnGroup else 0 }
    fuses := t.fuses
    rtc := { t.rtc with loading := false, shadows := [] }
    wired := { respCtr := t.wired.respCtr }
    girth := { debounce := t.pkg.mains }
    pkg := {
      supplies := t.pkg.supplies, resetLow := t.pkg.resetLow, hot := t.pkg.hot, bootSel := t.pkg.bootSel
      fired := t.pkg.fired, slept := t.pkg.slept, sleptAt := t.pkg.sleptAt, alarmPull := t.pkg.alarmPull
      mains := t.pkg.mains, mainsDeb := t.pkg.mainsDeb, wakeEn := t.pkg.wakeEn, callId := t.pkg.callId
      causes := t.pkg.causes, ioHeld := t.pkg.ioHeld, ioHigh := t.pkg.ioHigh }
    faults := t.faults.filter (fun e => e.1 == 128)
    age := t.age
    freeCount := t.freeCount }

/-- What PWR_IOHOLD keeps of the GPIO balls as the power goes (Table 13-9). -/
def State.ioHold (s : State) : State :=
  s.modPkg (fun p => { p with ioHeld := (List.range 32).foldl (fun t g =>
    tabSet none t g (if bitN (s.fget fPWR_IOHOLD_hold) g then s.pinLevel g else none)) [] })

/-- The Burnisher stands at group g (R357). -/
def State.burnAt (s : State) (g : Nat) : State :=
  ({ s with upkeep := { s.upkeep with burnGroup := g } } : State).fset fMEM_BURN_STATUS_mem (burnPlace 0 9 g).1

/-- A cause of Table 2-8 that the next start records. -/
def State.addCause (s : State) (c : Nat) : State := s.modPkg (fun p => { p with causes := Nat.lor p.causes (2 ^ c) })

/-- The lowest code of a mask of causes. -/
def lowestCause (m : Nat) : Nat := ((List.range 8).find? (fun c => bitN m c)).getD 0

/-- Nothing holds the package in reset: the supplies are in range, RESET_N is high and the die is cool. A start needs RUN:
DEEP_SLEEP and OFF end by a wake. -/
def State.canStart (s : State) : Bool :=
  s.pkg.stage == .hold && s.pkg.supplies && !s.pkg.resetLow && !s.pkg.hot && s.pkg.power == .run

/-- Reference time 0: the cause is latched and the reference starts (R51, R74); the GPIO balls are released. -/
def State.startIf (s : State) : State :=
  let p := s.pkg
  if s.canStart then
    (((s.fset fSYS_RESET_REASON_cause (lowestCause p.causes)).fset fSYS_RESET_REASON_history
      (Nat.lor (s.fget fSYS_RESET_REASON_history) p.causes)).fsat fSYS_RESET_REASON_count).modPkg (fun q =>
        { q with causes := 0, stage := .reference, ioHeld := [] })
  else s

/-- A start whose command does not name the boot-select balls: they are sampled at the release as at every other (R50),
and may have any level (log entry 52). -/
def State.startAgain (s : State) : State :=
  if s.canStart then
    let f := s.free 2
    (f.2.modPkg (fun p => { p with bootSel := f.1.toNat })).startIf
  else s

/-- A package reset with a cause of Table 2-8 (R30, R73): every state but the always-on domain and the persistent store
is lost, and the start begins again at step 1 (R54). -/
def State.packageReset (s : State) (c : Nat) : State :=
  (((s.powerCut false).modPkg (fun p => { p with fired := 0, slept := 0 })).addCause c).startAgain

/-! ## Supplies (R450, R451) -/

/-- A rail has failed: the package is held in reset, with a cause. -/
def State.supplyFall (s : State) (c : Nat) : State :=
  ((s.powerCut false).modPkg (fun p => { p with supplies := false, fired := 0, slept := 0 })).addCause c

/-- SUPPLIES_IN_RANGE: every monitor reports in range. In OFF that ends OFF: with the sources that fired, or as source 6
(R348). `bootSel` are the boot-select balls, sampled when RESET_N is high already; `io` the VDD_IO banks above 2.5 V
within 1 ms of crossing 0.5 V, which run in 3.3 V mode (R448). -/
def execSuppliesInRange (bootSel : BitVec 2) (io : BitVec 5) (s : State) : Host.Outcome State Fault Refusal :=
  .next (s.iff (!s.pkg.supplies) (fun t =>
    let t1 := t.modPkg (fun p => { p with supplies := true, bootSel := bootSel.toNat, ioHigh := io.toNat })
    if t1.pkg.power = .off then
      let t2 := t1.modPkg (fun p => { p with fired := if p.fired = 0 then 32 else p.fired, power := .run })
      (t2.wakeRecord.addCause 7).startIf
    else (t1.modPkg (fun p => { p with power := .run })).startIf))

/-- RAIL_FALL: a monitored rail other than VDD_CORE of compute die 0 falls; the start after it records POR. With
off_armed the package still goes to OFF when that rail falls too. -/
def execRailFall (s : State) : Host.Outcome State Fault Refusal :=
  .next (s.iff s.pkg.supplies (fun t =>
    let t1 := t.supplyFall 0
    if t.pkg.power = .armed then t1.modPkg (fun p => { p with power := .armed }) else t1))

/-- BROWNOUT: VDD_CORE of compute die 0 falls while the package runs; below the threshold during the hold or in
DEEP_SLEEP the start records POR. With off_armed the fall is OFF_ENTRY (R342). -/
def execBrownout (s : State) : Host.Outcome State Fault Refusal :=
  .next (s.iff (s.pkg.supplies && s.pkg.power != .armed) (fun t => t.supplyFall (if t.pkg.stage = .hold then 0 else 1)))

/-- VBAT_LOSS: VBAT is lost together with the core supplies; the always-on domain is cleared, and the next start records
POR with history 0x01 and count 1 (R75). -/
def execVbatLoss (s : State) : Host.Outcome State Fault Refusal :=
  .next (s.iff (!s.pkg.supplies) (fun t =>
    let u := t.powerCut false
    { u with
      regs := u.regs.filter (fun e => e.1 == aTABLE_BB_CTR)
      rtc := {}
      faults := []
      pkg := { ({} : PkgSt) with resetLow := t.pkg.resetLow, bootSel := t.pkg.bootSel, mains := t.pkg.mains } }))

/-! ## RESET_N, the debug port, software, the supervisor halter -/

/-- RESET_N_ASSERT: low for 1 µs (R73). -/
def execResetNAssert (s : State) : Host.Outcome State Fault Refusal :=
  .next (s.iff (!s.pkg.resetLow) (fun t =>
    let t1 := t.modPkg (fun p => { p with resetLow := true })
    if t.pkg.supplies then t1.packageReset 3 else t1))

/-- RESET_N_RELEASE: the boot-select balls are sampled, and with the supplies in range this is reference time 0 (R50,
R51). -/
def execResetNRelease (bootSel : BitVec 2) (s : State) : Host.Outcome State Fault Refusal :=
  .next (s.iff s.pkg.resetLow (fun t =>
    (t.modPkg (fun p => { p with resetLow := false, bootSel := bootSel.toNat })).startIf))

/-- The package runs or starts: it is out of the reset hold. -/
def State.outOfReset (s : State) : Bool := s.pkg.stage != .hold

/-- JTAG_RESET: needs scope FULL (R410). -/
def execJtagReset (s : State) : Host.Outcome State Fault Refusal :=
  .next (s.iff (s.outOfReset && s.dbgFull) (fun t => t.packageReset 4))

/-- A write of SYS_RESET_CTRL. -/
def State.softReset (s : State) (v : Nat) : State :=
  if bitsN v 31 16 = 0x0A5C && bitN v 0 then s.packageReset 6 else s

/-- SOFT_RESET (R73). -/
def execSoftReset (m : Master) (v : Word) (s : State) : Host.Outcome State Fault Refusal :=
  .next (s.regGate m aSYS_RESET_CTRL (fun t => t.softReset v.toNat))

/-- SUP_HALTER_EXPIRY: the supervisor halter has nothing left (R270). -/
def execSupHalterExpiry (s : State) : Host.Outcome State Fault Refusal :=
  .next (s.iff ((s.clu 16).halterOn && s.haltLeft 16 == 0) (fun t => t.packageReset 5))

/-! ## Temperature (R461) -/

/-- SENSOR_UPDATE: the junctions of compute die 0, compute die 1 and the radio die. -/
def execSensorUpdate (c0 c1 r : Byte) (s : State) : Host.Outcome State Fault Refusal :=
  let js : List Int := [signedN 8 c0.toNat, signedN 8 r.toNat] ++ (if s.die1Up then [signedN 8 c1.toNat] else [])
  .next (if s.pkg.hot then
      (if js.all (fun j => decide (j ≤ 105)) then (s.modPkg (fun p => { p with hot := false })).startAgain else s)
    else if !s.outOfReset then s
    else if js.any (fun j => decide (120 ≤ j)) then (s.modPkg (fun p => { p with hot := true })).packageReset 2
    else
      let s1 := ((s.fset fSYS_THERMAL_tj_c0 c0.toNat).fset fSYS_THERMAL_tj_r r.toNat).fset fSYS_THERMAL_tj_c1
        (if s.die1Up then c1.toNat else if Config.hasDie1 s.variant then 0x80 else 0)
      s1.iff (js.any (fun j => decide ((s.fget fSYS_THERMAL_CFG_warn_c : Int) ≤ j))) (fun t => t.fset fSYS_THERMAL_warn 1))

/-! ## DEEP_SLEEP, OFF and wakes (R344–R348) -/

/-- A wake from DEEP_SLEEP: the record, and a start with cause WAKE. PWR_STATUS shows the state left until hand-over. -/
def State.deepExit (s : State) : State :=
  ((((s.modPkg (fun p => { p with power := .run })).modPath 0 (fun x => { x with lnaByp := false })).wakeRecord.fset fPWR_STATUS_state 3).addCause 7).startAgain

/-- DEEP_SLEEP entered (Table 13-8): LNA_A_BYP is high while the Stirrup listens (Table 13-9, R347). A source that has
fired since the request wakes at once. -/
def State.deepEnter (s : State) : State :=
  let s1 := (((s.entrySteps.ioHold.powerCut true).burnAt s.upkeep.burnGroup).modPkg (fun p =>
    { p with power := .deepSleep, slept := 3 })).modPath 0 (fun x => { x with lnaByp := s.fon fSTIRRUP_CFG_en })
  if s1.pkg.fired = 0 then s1 else s1.deepExit

/-- DEEP_SLEEP_ENTRY: the carriers on air have ended and no page is being programmed (R344, R373). -/
def execDeepSleepEntry (s : State) : Host.Outcome State Fault Refusal :=
  .next (s.iff (s.pkg.power == .toDeep) (fun t => t.entryGo State.deepEnter))

/-- OFF_ENTRY: VDD_CORE of compute die 0 falls with off_armed (R342). -/
def execOffEntry (s : State) : Host.Outcome State Fault Refusal :=
  .next (s.iff (s.pkg.power == .armed) (fun t =>
    ((t.ioHold.powerCut false).burnAt t.upkeep.burnGroup).modPkg (fun p =>
      { p with power := .off, supplies := false, slept := 4, causes := 0 })))

/-- Source k counts now: it is enabled and wakes from the present state (Table 13-10). -/
def State.wakeCounts (s : State) (k : Nat) : Bool := wakesFrom k s.pkg.power && s.wakeEnabled k

/-- The sources of a mask (bit k − 1: source k) that count now, as a mask. -/
def State.wakeMask (s : State) (m : Nat) : Nat :=
  (List.range 6).foldl (fun a i => if bitN m i && s.wakeCounts (i + 1) then a + 2 ^ i else a) 0

/-- Wake source k fires (Table 13-10), and with it those of the mask `also` that fire in the same always-on cycle (R348).
From the request on the bits are kept; in SLEEP and DEEP_SLEEP they wake the package, in OFF they wait for the supplies. -/
def State.wakeFire (s : State) (k also : Nat) : State :=
  if s.wakeCounts k then
    let s1 := s.modPkg (fun p => { p with fired := Nat.lor p.fired (Nat.lor (2 ^ (k - 1)) (s.wakeMask also)) })
    match s1.pkg.power with
    | .sleep => s1.sleepExit.powerNext
    | .deepSleep => s1.deepExit
    | _ => s1
  else s

/-- WAKE_ALARM: the RTC has reached the alarm by a tick; `also` as in the other wake sources: the sources that fire in the
same always-on cycle. In OFF the alarm also pulls WAKE_N low for 10 ms (R345). -/
def execWakeAlarm (also : BitVec 6) (s : State) : Host.Outcome State Fault Refusal :=
  .next (s.iff (s.rtc.byTick && s.rtcLow == s.fget fPWR_WAKE_AT_alarm_s) (fun t =>
    let t1 := t.wakeFire 1 also.toNat
    if t1.pkg.power = .off && t1.wakeEnabled 1 then t1.modPkg (fun p => { p with alarmPull := true }) else t1))

/-- WAKE_N_LOW (R345). -/
def execWakeNLow (also : BitVec 6) (s : State) : Host.Outcome State Fault Refusal := .next (s.wakeFire 2 also.toNat)

/-- WAKE_N_RELEASE: 10 ms after the alarm pulled the ball (R345). -/
def execWakeNRelease (s : State) : Host.Outcome State Fault Refusal := .next (s.modPkg (fun p => { p with alarmPull := false }))

/-- MAINS_DEBOUNCE_EXPIRY: mains_ok takes the level of the ball; its rise is wake source 3 (R320, R348). -/
def execMainsDebounceExpiry (also : BitVec 6) (s : State) : Host.Outcome State Fault Refusal :=
  .next (s.iff s.girth.debounce (fun t =>
    let rise := t.pkg.mains && !t.pkg.mainsDeb
    let t1 := (t.modGirth (fun g => { g with debounce := false })).modPkg (fun p => { p with mainsDeb := p.mains })
    let t2 := if t1.pkg.power = .deepSleep || t1.pkg.power = .off then t1
      else t1.fset fGIRTH_STATUS_mains_ok (b2n t1.pkg.mains)
    if rise then t2.wakeFire 3 also.toNat else t2))

/-- The Stirrup listens (R347). -/
def State.stirrupOn (s : State) : Bool :=
  s.fon fSTIRRUP_CFG_en && (s.pkg.power == .sleep || s.pkg.power == .deepSleep)

/-- The ID that a wake call must carry: 0xFE_0000 + the device number. -/
def State.stirrupId (s : State) : Nat :=
  if s.pkg.power = .deepSleep then s.pkg.callId else 0xFE0000 + s.fget fRELAY_DEVADDR_device

/-- STIRRUP_MATCH: the Stirrup hears the 6 bytes of a wake call (R347, Table 6-8). -/
def execStirrupMatch (b : List Byte) (also : BitVec 6) (s : State) : Host.Outcome State Fault Refusal :=
  let id := (b.drop 2).take 3
  .next (s.iff (s.stirrupOn && b.length == 6 && fieldLe b 0 2 == 0xC355) (fun t =>
    if fieldLe b 5 1 ≠ id.foldl crc8Byte 0 then t.fsat fSTIRRUP_COUNT_crc_fail
    else if leNat id = t.stirrupId || (leNat id = 0xFFFFFF && t.fon fSTIRRUP_CFG_all_en) then
      (t.fsat fSTIRRUP_COUNT_matched).wakeFire 4 also.toNat
    else t))

/-- TIMER_STEP: a timer steps; an event of a timer of the supervisor wakes the package from SLEEP (R388–R391). -/
def execTimerStep (n : BitVec 4) (also : BitVec 6) (s : State) : Host.Outcome State Fault Refusal :=
  let r := s.timerStep n.toNat
  .next (if r.2 && s.fon (fTMR_CFG_sup n.toNat) then r.1.wakeFire 5 also.toNat else r.1)

end Sys2Proof.Machine
end

