-- ==== Sys2Proof/Machine/Boot.lean ====
section
/-!
DEFINITION. The start (chapter 2, Table 2-2): reference, fill and links, boot ROM, flash discovery, the banks with the
boot record, the checks, hand-over; the boot record at run time (R58); UART recovery (R407–R409).
-/

namespace Sys2Proof.Machine

/-- The start-up stage set. -/
def State.toStage (s : State) (x : Stage) : State := s.modPkg (fun p => { p with stage := x })

/-! ## The boot record (R57, R58; its layout is log entry 61) -/

/-- Key of the boot record. -/
def bootRecord : Nat := 0x05000000

/-- The boot record written from SYS_BOOT_CTRL, as one word. -/
def State.putBootRecord (s : State) : State := s.setWord64 bootRecord (s.reg aSYS_BOOT_CTRL).toNat 0#72

/-- The boot record read into SYS_BOOT_CTRL; an uncorrectable one is rewritten as NORMAL, bank A, floor 0 (Table 14-2). -/
def State.readBootRecord (s : State) : State :=
  let r := s.readWord bootRecord bootRecord 0x7F
  if r.2.1 then r.2.2.setReg aSYS_BOOT_CTRL (r.1.extractLsb' 0 32 &&& 0xFFFF0312#32)
  else ((r.2.2.setReg aSYS_BOOT_CTRL 0#32).putBootRecord).logHw 0x0004 0 0 0

/-- Word of the operator-log ring that holds the sequence number of an entry. -/
def State.logSeqAt (s : State) (i : Nat) : Nat := s.num (logAddr i + 4) 4

/-- The next sequence number: after the highest of the ring (R77). -/
def State.nextSeq (s : State) : Nat := (List.range 2048).foldl (fun a i => max a (s.logSeqAt i)) 0 + 1

/-- The operation record of the flash (R372): a bank that holds its offset is refused; an erase is repeated after
hand-over, a program is reported; the record is cleared. -/
def State.checkOpRecord (s : State) : State :=
  let r := s.num opRecord 8
  let op := bitsN r 63 60
  let off := bitsN r 27 0
  if op = 0 then s
  else
    let s1 := s.modPkg (fun p => { p with opBank := if off < 0x800000 then 1 else if off < 0x1000000 then 2 else 0 })
    let s2 := if op = 3 then s1.modFlash (fun f => { f with redo := some off })
      else ((s1.fset fXSPI_STATUS_op_lost 1).fset fXSPI_LOST_op op).fset fXSPI_LOST_offset off
    s2.setWord64 opRecord 0 0#72

/-- The supervisor halter runs with a period of 250 ms (R55). -/
def State.supHalter (s : State) : State :=
  (s.modPkg (fun p => { p with supPeriodMs := 250 })).modClu 16 (fun x =>
    { x with released := true, halter := 250000, haltAt := s.mono, halterOn := true })

/-! ## UART recovery: entry (R407) -/

/-- Recovery begins: the UART on GPIO0 and GPIO1, the flash controller in mode RECOVERY; the ROM services the halter
while it waits. -/
def State.recoveryEnter (s : State) : State :=
  ((((((s.fset (fPINMUX_SEL_func 0) 1).fset (fPINMUX_SEL_func 1) 1).fset fXSPI_CTRL_mode 1).fset fSYS_BOOT_STATUS_bank 0).toStage
    .recovery).haltRun 16 false)

/-- The stage after the fill begins. -/
def State.afterFill (s : State) : State :=
  match s.pkg.afterFill with
  | .recovery => s.recoveryEnter
  | x => s.toStage x

/-- Step 5 of Table 2-2: the boot ROM arms the halter, reads boot record, log head and operation record (R55). -/
def State.bootRomEntry (s : State) : State :=
  let s1 := (s.supHalter.fset fSYS_LOG_SEQ_seq s.nextSeq).readBootRecord.checkOpRecord
  ((s1.setReg aSYS_DEVICE_ID (Config.deviceId s1.variant)).fset fSYS_BOOT_STATUS_rom_ver 0x21).afterFill

/-! ## Steps 3–5 -/

/-- Links of the variant. -/
def State.linksOf (s : State) : List Nat := (List.range 5).filter (fun l => s.hasLink l)

/-- The boot ROM is entered once the fill is done and the links are UP; after a wipe only the fill counts. -/
def State.fillCheck (s : State) : State :=
  if s.pkg.stage = .fill && s.pkg.filled then
    if (s.clu 16).released then s.afterFill
    else if s.linksOf.all (fun l => s.linkState l == 2) then s.bootRomEntry else s
  else s

/-- REFERENCE_STABLE: the PLLs lock, the fill and the training of the links start (R51). -/
def execReferenceStable (s : State) : Host.Outcome State Fault Refusal :=
  .next (s.iff (s.pkg.stage == .reference) (fun t =>
    let t1 := t.linksOf.foldl (fun u l => u.fset (fLATIGO_STATUS_state l) 1) t
    t1.modPkg (fun p => { p with
      stage := .fill, filled := false, afterFill := if p.bootSel = 1 then .recovery else .flash })))

/-- LATIGO_TRAIN_DONE: a link in training is UP (R51, R29). -/
def execLatigoTrainDone (l : BitVec 3) (s : State) : Host.Outcome State Fault Refusal :=
  .next (s.iff (s.hasLink l.toNat && s.linkState l.toNat == 1) (fun t =>
    (t.fset (fLATIGO_STATUS_state l.toNat) 2).die1Settle.fillCheck))

/-- Every memory that the fill covers holds zeros; the retention SRAM keeps its content at a wake from DEEP_SLEEP
(R354). -/
def State.fillAll (s : State) (keep : Bool) : State :=
  ((((s.fill 0x02000000 0x04000000).fill 0x04000000 (if keep then 0x04700000 else 0x04800000)).fill (dKey 0 0) (dKey 128 0)).fill
    (iKey 0 0) (iKey 128 0)).fill (supKey 0) (supKey 0x100000)

/-- SRAM_FILL_DONE: the fill of a start or a wipe, or of compute die 1 (R354, R29). -/
def execSramFillDone (s : State) : Host.Outcome State Fault Refusal :=
  .next (if s.pkg.stage = .fill && !s.pkg.filled then
      ((s.fillAll (s.pkg.slept == 3 && !(s.clu 16).released)).modPkg (fun p => { p with filled := true })).fillCheck
    else if s.pkg.die1 = .rising false then (s.die1Memory.modPkg (fun p => { p with die1 := .rising true })).die1Settle
    else s)

/-! ## Banks (R58, Table 2-3) -/

/-- The fail code of bank b recorded. -/
def State.setFail (s : State) (b code : Nat) : State :=
  if b = 0 then s.fset fSYS_BOOT_STATUS_fail_a code else s.fset fSYS_BOOT_STATUS_fail_b code

/-- The loaded memories wiped (R65): the fill runs again, the decode-table and microcode stores clear; `next` follows. -/
def State.wipe (s : State) (next : Stage) : State :=
  (((s.fill (dtabKey 0 0) (dtabKey 16 0)).fill (seqKey 0) (seqKey 0x10000000)).fill (initKey 0 0) (initKey 128 0)).modPkg
    (fun p => { p with stage := .fill, filled := false, afterFill := next, img := {} })

/-- The stage `next` begins, after a wipe where one is due. -/
def State.goOn (s : State) (wiped : Bool) (next : Stage) : State :=
  if wiped then s.wipe next else ((s.modPkg (fun p => { p with afterFill := next })).afterFill)

/-- The other bank fails: NO_IMAGE and UART recovery. -/
def State.otherFails (s : State) (code : Nat) (wiped : Bool) : State := (s.setFail s.pkg.bank code).goOn wiped .recovery

/-- A bank that is refused without being read: discovery has failed, or the operation record names it. -/
def State.bankRefused (s : State) (b : Nat) : Bool := !s.fon fXSPI_STATUS_dev_ok || bitN s.pkg.opBank b

/-- The bank tried fails with a code (Table 2-3); `wiped`: check 8 or a later one, after which the memories are wiped. -/
def State.bankFail (s : State) (code : Nat) (wiped : Bool) : State :=
  if s.pkg.other then s.otherFails code wiped
  else
    let b := s.pkg.bank
    let s1 := s.setFail b code
    let s2 := if s1.fon fSYS_BOOT_CTRL_trial then
        (((s1.fset fSYS_BOOT_CTRL_pref_bank (1 - b)).fset fSYS_BOOT_CTRL_trial 0).putBootRecord).logHw 0x0002 (b + 1) code 0
      else s1
    let s3 := s2.modPkg (fun p => { p with bank := 1 - b, other := true })
    if s3.bankRefused (1 - b) then s3.otherFails 11 wiped else s3.goOn wiped .header

/-- The bank of a start chosen and the record written (Table 2-3). -/
def State.bankSelect (s : State) : State :=
  let b := s.fget fSYS_BOOT_CTRL_pref_bank
  let left := s.fget fSYS_BOOT_CTRL_trials_left
  let s1 :=
    if !s.fon fSYS_BOOT_CTRL_trial then s.modPkg (fun p => { p with bank := b, other := false })
    else if left = 0 then
      (((((s.setFail b 12).fset fSYS_BOOT_CTRL_pref_bank (1 - b)).fset fSYS_BOOT_CTRL_trial 0).putBootRecord).logHw 0x0002
        (b + 1) 12 0).modPkg (fun p => { p with bank := 1 - b, other := false })
    else ((s.fset fSYS_BOOT_CTRL_trials_left (left - 1)).putBootRecord).modPkg (fun p => { p with bank := b, other := false })
  if s1.bankRefused s1.pkg.bank then s1.bankFail 11 false else s1.toStage .header

/-- FLASH_DISCOVERY: the flash is reset and its tables are read; `dev0` and `dev1` are what XSPI_DEV0 and XSPI_DEV1 take
from them once every feature of Table 15-1 is there: a density of 16–256 MiB and a suspend latency of 100 µs at most are
read here, the others are `ok`. A flash that lacks one fails both banks with FLASH (R56, R361). -/
def execFlashDiscovery (ok : Bool) (dev0 dev1 : Word) (s : State) : Host.Outcome State Fault Refusal :=
  .next (s.iff (s.pkg.stage == .flash) (fun t =>
    let size := bitsN dev0.toNat 31 27
    if ok && decide (24 ≤ size) && decide (size ≤ 28) && decide (bitsN dev0.toNat 15 8 ≤ 100) then
      (((t.setReg aXSPI_DEV0 dev0).setReg aXSPI_DEV1 dev1).fset fXSPI_STATUS_dev_ok 1).bankSelect
    else (t.fset fXSPI_STATUS_dev_ok 0).bankSelect))

/-! ## The checks (Table 2-7) -/

/-- HEADER_CHECK: checks 1–7 on the header of the bank tried (R64). -/
def execHeaderCheck (s : State) : Host.Outcome State Fault Refusal :=
  .next (s.iff (s.pkg.stage == .header) (fun t =>
    let h := t.header (bankKey t.pkg.bank)
    let code := t.headerCheck h
    if code = 1 then (t.modPkg (fun p => { p with img := { header := h } })).toStage .load else t.bankFail code false))

/-- The clusters of a section's mask. -/
def maskClusters (target : Nat) : List Nat := (List.range 16).filter (fun c => bitN (target / 65536) c)

/-- The engines of a section's target. -/
def maskEngines (target : Nat) : List Nat :=
  (maskClusters target).flatMap (fun c => (enginesOf c).filter (fun e => bitN (target / 256) (e % 8)))

/-- Bytes put at a key with right check bits. -/
def State.loadBytes (s : State) (k : Nat) (bs : List Byte) : State :=
  { (s.setBytes k bs) with upkeep := { s.upkeep with flips := tabClear s.upkeep.flips (k / 8 * 8) (k + bs.length) } }

/-- One section loaded into its destination (Table 2-6); `k`: key of the image's first byte. -/
def State.loadSection (s : State) (k : Nat) (e : SecEntry) : State :=
  let bs := s.bytes (k + e.off) e.len
  match e.type with
  | 1 => s.loadBytes (supKey 0) bs
  | 2 => s.loadBytes (seqKey 0) bs
  | 3 => (maskClusters e.target).foldl (fun t c => t.loadBytes (dtabKey c 0) bs) s
  | 4 => (maskEngines e.target).foldl (fun t n => t.loadBytes (iKey n 0) bs) s
  | 5 => (maskEngines e.target).foldl (fun t n => (t.loadBytes (dKey n 0) bs).loadBytes (initKey n 0) bs) s
  | 7 => s.modPkg (fun p => { p with img := { p.img with defaults := bs } })
  | 8 => s.modPkg (fun p => { p with img := { p.img with keys := bs } })
  | _ => s

/-- Every section of the image at key k with header h loaded while it is hashed, and what the later steps need kept: each
byte is read once (R65). -/
def State.loadImage (s : State) (h : List Byte) (k : Nat) : State :=
  let img : ImgSt :=
    { version := fieldLe h 8 4, format := fieldLe h 0xE 2, rollback := fieldLe h 0x12 2, tenants := fieldLe h 0x28 1
      refused := refusedMask (s.manifest h k) (fieldLe h 0x28 1)
      header := h, man := s.manBytes h k, digest := s.imageDigest h k, sig := s.imageSig h k }
  (s.sections h k).foldl (fun t e => t.loadSection k e) (s.modPkg (fun p => { p with img := img }))

/-- SECTION_LOAD: the single pass: check 8, then the load; `readErr`: the flash could not be read (check 9, R65). -/
def execSectionLoad (readErr : Bool) (s : State) : Host.Outcome State Fault Refusal :=
  .next (s.iff (s.pkg.stage == .load) (fun t =>
    let k := bankKey t.pkg.bank
    let h := t.pkg.img.header
    if !t.manifestCheck h k then t.bankFail 10 true
    else if readErr then t.bankFail 11 true
    else (t.loadImage h k).toStage .sign))

/-- TENANT_API entries for the tenants of an image that cannot start (R69). -/
def State.logRefused (s : State) (es : List ManEntry) (tenants : Nat) : State :=
  let sup := ((manFind es 1 0xFF).map (fun e => e.api)).getD 0
  (List.range tenants).foldl (fun t n =>
    if startable es n then t
    else t.logAdd 0x0001 n 0x7F n (((manFind es 4 n).map (fun e => e.api)).getD 0) sup 0) s

/-- SIGNATURE_CHECK: checks 10 and 11 on what the single pass has read (R60, R65, R67, R68). -/
def execSignatureCheck (s : State) : Host.Outcome State Fault Refusal :=
  .next (s.iff (s.pkg.stage == .sign) (fun t =>
    let img := t.pkg.img
    let es := manOfBytes img.header img.man
    if !signatureOk img.header img.digest img.sig then t.bankFail 9 true
    else if !versionsOk es then t.bankFail 10 true
    else ((t.setFail t.pkg.bank 1).logRefused es img.tenants).toStage .settings))

/-- SETTINGS_CHECK (R71). When the format and the CRC are both wrong the cause logged is FORMAT (DESIGN CHOICE, log entry
63). -/
def execSettingsCheck (s : State) : Host.Outcome State Fault Refusal :=
  .next (s.iff (s.pkg.stage == .settings) (fun t =>
    let b := t.settingsRead
    let old := fieldLe b.1 0 2
    let t1 := b.2.toStage .hand
    if t.settingsGood b.1 then t1
    else
      ((t1.writeBytes settingsKey t.settingsNew).fset fSYS_BOOT_STATUS_settings_reset 1).logHw 0x0003
        old (if old = t.pkg.img.format then 2 else 1) 0))

/-! ## Hand-over (R72) -/

/-- Fields that CONFIG settles although firmware only reads them (reset column "from CONFIG"). -/
def cfgMask (a : Nat) : Word :=
  if a = aGIRTH_STATUS then 0xC0000000#32
  else if a = aRELAY_DEVADDR then 0x00000FFF#32
  else if 0x10031000 ≤ a && a < 0x10032000 && a % 256 = 0 then 0x1F000000#32
  else if 0x10300000 ≤ a && a < 0x10301000 && a % 256 = 0 then 0xFF000000#32
  else if 0x10028000 ≤ a && a < 0x10030000 then 0x0003FFFF#32
  else 0#32

/-- A system-fence setting grants only what the fence may grant (Table 11-2a): never the boot record's granule (R57). -/
def cfgFenceOk (a : Nat) (v : Word) : Bool :=
  !within a (aTENANT_SFENCE 0) 32 4
    || grantable (bitsN v.toNat 25 24) (bitsN v.toNat 10 0) (bitsN v.toNat 22 12) (bitN v.toNat 30)

/-- A register setting of CONFIG: the fields that can be written and take their values, and those that CONFIG alone
settles; nothing where the unit is absent (R5) or a fence would grant what it never may. It is the first write of a WOL
field (Table 0-2). -/
def State.cfgPut (s : State) (a : Nat) (v : Word) : State :=
  if s.regAbsent a || !cfgFenceOk a v then s
  else
    match regDesc a with
    | none => s
    | some d =>
      let w := descTake d v 0#32 (s.reg a) false
      let s1 := s.setReg a ((w &&& ~~~(cfgMask a)) ||| (v &&& cfgMask a))
      if descHasWol d then { s1 with wol := tabSet false s1.wol a true } else s1

/-- A setting of a receiver's configuration, tuner or path, which take effect through their own rules. -/
def isRxCfg (a : Nat) : Bool := decide (0x10140000 ≤ a) && decide (a < 0x10160000) && a % 256 == 0

/-- RADIO_TUNER_CFG of a tuner. -/
def isTuner (a : Nat) : Bool := (List.range 16).any (fun t => a == aRADIO_TUNER_CFG t)

/-- RADIO_PATH_CTRL of a path. -/
def isPathCtrl (a : Nat) : Bool := a == aRADIO_PATH_CTRL 0 || a == aRADIO_PATH_CTRL 1

/-- CONFIG applied: plain settings first, then paths and tuners, then receivers, those of a tenant that was not started
without en (R69). -/
def State.cfgApply (s : State) (ws : List (Word × Word)) : State :=
  let plain (a : Nat) : Bool := !isRxCfg a && !isTuner a && !isPathCtrl a
  let s1 := ws.foldl (fun t w => if plain w.1.toNat then t.cfgPut w.1.toNat w.2 else t) s
  let s2 := ws.foldl (fun t w =>
    if isPathCtrl w.1.toNat then
      let p := if w.1.toNat = aRADIO_PATH_CTRL 0 then 0 else 1
      ((t.fset (fRADIO_PATH_CTRL_byp_step p) (bitsN w.2.toNat 15 8)).lnaBypass p (bitsN w.2.toNat 4 4)).pathRate p
        (bitsN w.2.toNat 3 3)
    else t) s1
  let s3 := ws.foldl (fun t w =>
    match (List.range 16).find? (fun i => w.1.toNat == aRADIO_TUNER_CFG i) with
    | some i => t.tunerWrite i w.2.toNat
    | none => t) s2
  ws.foldl (fun t w =>
    if isRxCfg w.1.toNat then
      t.rxCfgWrite (.core .sup) ((w.1.toNat - 0x10140000) / 0x100)
        (if t.started (rxCfgOf w.2.toNat).tenant then w.2.toNat else w.2.toNat % 2 ^ 31)
    else t) s3

/-- The ledger restored from its persistent copy; a counter whose copy is uncorrectable restarts at 0 (R322,
Table 14-2). -/
def State.ledgerRestore (s : State) : State :=
  let one (t : State) (a k : Nat) (put : State → Nat → State) : State :=
    let r := t.readWord a a 0x7F
    if r.2.1 then put r.2.2 r.1.toNat else (put r.2.2 0).logHw 0x0051 k 0 0
  let s1 := (List.range 11).foldl (fun t k => one t (ledgerCopy + 8 * k) k (fun u v => u.setLedger k v)) s
  let s2 := (List.range 16).foldl (fun t k => one t (ledgerCopy + 0x80 + 8 * k) (16 + k) (fun u v => u.setTledger k v)) s1
  (List.range 2).foldl (fun t k => one t (ledgerCopy + 0x100 + 8 * k) (32 + k) (fun u v =>
    (u.fset (fPWR_RESID_seconds (2 * k)) v).fset (fPWR_RESID_seconds (2 * k + 1)) (v / 2 ^ 32))) s2

/-- The cost of the time in DEEP_SLEEP or OFF charged (R321, R324): 3.5 mW with the Stirrup, 1.0 mW without, 20 µW in
OFF. -/
def State.sleepCost (s : State) : State :=
  if s.pkg.slept = 0 then s
  else
    let d := (s.fget fPWR_WAKE_TIME_rtc_s + 2 ^ 32 - s.pkg.sleptAt % 2 ^ 32) % 2 ^ 32
    let e := d * (if s.pkg.slept = 4 then 20 else if s.fon fSTIRRUP_CFG_en then 3500 else 1000)
    let s1 := ((s.setLedger 0 (s.ledger 0 + e)).setLedger 7 (s.ledger 7 + e)).setLedger 8 (s.ledger 8 - e)
    let s2 := if s.pkg.slept = 3 then
        s1.fset (fPWR_RESID_seconds 3) (min 0xFFFFFFFF (s1.fget (fPWR_RESID_seconds 3) + d))
      else s1
    s2.modPkg (fun p => { p with slept := 0 })

/-- KEYS_WRAPPED unwrapped into the fixed key slots (R298, Table 12-2). -/
def State.keysUnwrap (s : State) (bs : List Byte) : State :=
  (List.range (bs.length / 32)).foldl (fun t i =>
    let e := (bs.drop (32 * i)).take 32
    let k := fieldLe e 0 1
    match kwUnwrap (beBytes 16 s.fuses.imageKek) (e.drop 8) with
    | some key =>
      if k = 0 || 63 < k then t.logHw 0x0005 k 0 0
      else t.setKeySlot k { valid := true, key := key, owner := if 48 ≤ k then fieldLe e 1 1 % 16 else slotOwner k {}, clearCtx := bitN (fieldLe e 2 1) 0 }
    | none => t.logHw 0x0005 k 0 0) s

/-- Saved ECC keys that unwrap restored (R314). -/
def State.eccRestore (s : State) : State :=
  (List.range 4).foldl (fun t i =>
    let r := t.readBytes (0x0500F000 + i * 0x40) 40 0x7F
    match (if r.2.1 then kwUnwrap (beBytes 16 s.fuses.secret) r.1 else none) with
    | some key => r.2.2.setEccKey i (beNat key)
    | none => r.2.2) s

/-- A configured PA gain that differs from the fused one holds the chain in SLEEP (R105). -/
def State.paGain (s : State) (c cfg fused : Nat) : State :=
  if !s.hasChain c || cfg = fused then s
  else (s.fset (fRADIO_TX_STATUS_pa_gain_fault c) 1).logHw 0x0011 c cfg fused

/-- What CONFIG and the header settle of the plans and tenants, before anything runs (R332). -/
def State.handSets (s : State) (cfg : ConfigSec) : State :=
  let img := s.pkg.img
  let s1 := (List.range 16).foldl (fun t n => t.fset (fTENANT_CFG_declared n) (b2n (decide (n < img.tenants)))) s
  s1.modGirth (fun g => { g with
    leanSet := cfg.lean.map (fun n => n.toNat), frugalSet := cfg.frugal.map (fun n => n.toNat)
    frugalPair := cfg.pair.map (fun c => c.toNat), frugalFreq := cfg.frugalFreq.toNat, ethFrugal := cfg.eth.toNat })

/-- The clusters of started tenants are released in their order: their engines begin at 0x0000, and their halters run; not
those of a die that the start's plan has powered down (R72, R335). -/
def State.handClusters (s : State) : State :=
  (List.range (Config.clusters s.variant)).foldl (fun t c =>
    match t.clusterTenant c with
    | some n =>
      if t.started n && (decide (c < 8) || t.die1Up) then
        let t1 := (enginesOf c).foldl (fun u i => u.modEng i Engine.restarted) (t.cluRelease c)
        (t1.haltLoad c (t1.fget (fENGCTL_CL_halt_us c))).haltSync c
      else t
    | none => t) s

/-- Cinch time starts from INTERNAL at frame 0, and slot 0 of frame 0 runs; the duty bin of that frame opens (R189). -/
def State.handCinch (s : State) : State :=
  let s1 := ((s.modCinch (fun c => { c with started := true })).extStart).runSlot 0
  { s1 with radio := { s1.radio with duty := { s1.radio.duty with opened := tabSet 0 [] 0 s1.mono } } }

/-- The radio sequencer brings the paths to RECEIVE and the chains to STANDBY (R72). -/
def State.handRadio (s : State) : State :=
  let s1 := [0, 1].foldl (fun t p =>
    if t.hasPath p then
      let t1 := t.fset (fRADIO_PATH_CTRL_state_req p) 2
      if (t1.path p).off then t1 else t1.pathWant p 2
    else t) s
  [0, 1].foldl (fun t c => if t.hasChain c then (t.fset (fRADIO_TX_CTRL_state_req c) 1).chainFollow c else t) s1

/-- The plan of the start: SURVIVAL with a window while surv_active stands (R335), else that of CONFIG; its units are
turned off before the radio starts. -/
def State.handPlan (s : State) : State :=
  let s0 := if s.fon fPWR_WAKE_SRC_surv_active then
      ((s.fset fGIRTH_STATUS_plan 3).finc fGIRTH_COUNT_wakes).modPkg (fun p => { p with
        window := true, winCloses := 0, winBetter := true })
    else s
  let s1 := s0.modGirth (fun g => { g with
    cfgFreq := (List.range 16).foldl (fun t c => tabSet 0 t c (s0.fget (fENGCTL_CL_freq c))) [] })
  if s1.units = 0 then s1 else s1.planChange 0

/-- SYS_TENANT_RUN and SYS_IMAGE_VER written, with the bank and trial of SYS_BOOT_STATUS (R72): from here on the package
runs. -/
def State.handImage (s : State) (recovered : Bool) : State :=
  let img := s.pkg.img
  let s1 := (s.fset fSYS_TENANT_RUN_started (2 ^ img.tenants - 1 - img.refused)).fset fSYS_TENANT_RUN_refused img.refused
  let s2 := ((s1.fset fSYS_IMAGE_VER_version (if recovered then 0 else img.version)).fset fSYS_BOOT_STATUS_bank
    (if recovered then 0 else s.pkg.bank + 1)).fset fSYS_BOOT_STATUS_trial
    (b2n (!recovered && s.fon fSYS_BOOT_CTRL_trial && s.pkg.bank == s.fget fSYS_BOOT_CTRL_pref_bank))
  s2.toStage .run

/-- An erase that start-up found cut off is repeated as a command of its own, which nothing refuses; XSPI_RESULT.tag reads
0xFFFF meanwhile (R372). -/
def State.handErase (s : State) : State :=
  match s.flash.redo with
  | some off =>
    let a := off / 0x10000 * 0x10000
    (((((s.fset fXSPI_STATUS_busy 1).fset fXSPI_STATUS_op 3).fset fXSPI_RESULT_tag 0xFFFF).modFlash (fun f => { f with
      redo := none, known := none, page := a, tries := 0, badLines := []
      cmd := some { op := 3, addr := a, buf := 0, len := 0, tag := 0xFFFF, start := s.mono } }))).eraseStart a
  | none => s

/-- HANDOVER: step 12 of Table 2-2, in the order of R72: CONFIG with keys, ledger and plan; the radio; the clusters;
SYS_TENANT_RUN and SYS_IMAGE_VER; Cinch time; the supervisor. `cfg` is what the CONFIG section says, `bootTag` and `msgId`
the TRNG's draws. -/
def execHandover (cfg : ConfigSec) (bootTag : BitVec 64) (msgId : Word) (s : State) : Host.Outcome State Fault Refusal :=
  .next (s.iff (s.pkg.stage == .hand) (fun t =>
    let recovered := t.fget fXSPI_CTRL_mode == 1
    let t1 := (((t.handSets cfg).cfgApply cfg.writes).keysUnwrap t.pkg.img.keys).eccRestore
    let t2 := (((t1.paGain 0 cfg.gainL.toNat t.fuses.paGainL).paGain 1 cfg.gainH.toNat t.fuses.paGainH).setReg aTABLE_MSG_ID
      msgId)
    let t3 : State := { t2 with cipher := { t2.cipher with bootTag := bootTag.toNat } }
    let t4 := t3.ledgerRestore.sleepCost.openFrame
    let t5 := t4.handPlan.handRadio.handClusters.handImage recovered
    let t6 := (t5.handCinch.fset fPWR_STATUS_state 0).fset fXSPI_CTRL_mode (if recovered then 1 else 2)
    ((t6.modEng 128 Engine.restarted).supHalter.handErase).powerNext))

/-! ## SYS_BOOT_CTRL at run time (R58) -/

/-- A write of SYS_BOOT_CTRL: pref_bank, a trial of it, the confirmation of the running trial; the record follows. Writing
0 to trial leaves a trial that is set (DESIGN CHOICE, log entry 71). -/
def State.bootCtrlWrite (s : State) (v : Nat) : State :=
  let s1 := s.fset fSYS_BOOT_CTRL_pref_bank (bitsN v 1 1)
  let s2 := if bitN v 0 && s.fon fSYS_BOOT_STATUS_trial then
      ((s1.fset fSYS_BOOT_CTRL_trial 0).fset fSYS_BOOT_STATUS_trial 0).fset fSYS_BOOT_CTRL_rb_floor s.pkg.img.rollback
    else s1
  let s3 := if bitN v 4 then (s2.fset fSYS_BOOT_CTRL_trial 1).fset fSYS_BOOT_CTRL_trials_left 3 else s2
  s3.putBootRecord

/-- TRIAL_START: a write with trial set (R58). -/
def execTrialStart (m : Master) (pref : Bool) (s : State) : Host.Outcome State Fault Refusal :=
  .next (s.regGate m aSYS_BOOT_CTRL (fun t => t.bootCtrlWrite (16 + 2 * b2n pref)))

/-- PREF_BANK_WRITE (R58). -/
def execPrefBankWrite (m : Master) (pref : Bool) (s : State) : Host.Outcome State Fault Refusal :=
  .next (s.regGate m aSYS_BOOT_CTRL (fun t => t.bootCtrlWrite (2 * b2n pref)))

/-- CONFIRM: a write with confirm set; pref_bank is written with it (R58). -/
def execConfirm (m : Master) (pref : Bool) (s : State) : Host.Outcome State Fault Refusal :=
  .next (s.regGate m aSYS_BOOT_CTRL (fun t => t.bootCtrlWrite (1 + 2 * b2n pref)))

/-! ## UART recovery: commands (R407–R409) -/

/-- The recovery record changed. -/
def State.modRec (s : State) (f : RecSt → RecSt) : State := s.modPkg (fun p => { p with recover := f p.recover })

/-- A frame of R408. -/
def recFrame (type : Nat) (data : List Byte) : List Byte :=
  let b := leBytes 1 type ++ leBytes 2 data.length ++ data
  [0xA5#8, 0x5A#8] ++ b ++ leBytes 4 (crc32 b)

/-- The ROM sends a reply. -/
def State.recReply (s : State) (type : Nat) (data : List Byte) : State :=
  s.modRec (fun r => { r with reply := recFrame type data })

/-- ACK of a command. -/
def State.recAck (s : State) (type : Nat) (data : List Byte) : State := s.recReply 0x80 (leBytes 1 type ++ data)

/-- NAK of a command with a code. -/
def State.recNak (s : State) (type code : Nat) : State := s.recReply 0x81 (leBytes 1 type ++ leBytes 1 code)

/-- NAK with a code that the spec does not state (log entry 62). -/
def State.recNakFree (s : State) (type : Nat) : State :=
  let f := s.free 8
  f.2.recNak type f.1.toNat

/-- The answer to HELLO. -/
def State.recHello (s : State) : State :=
  s.recAck 1 (leBytes 4 (s.reg aSYS_DEVICE_ID).toNat ++ leBytes 4 (s.reg aSYS_BOOT_STATUS).toNat)

/-- RECOVERY_HELLO_TICK: a HELLO reply every second until a valid frame (R407). -/
def execRecoveryHelloTick (s : State) : Host.Outcome State Fault Refusal :=
  .next (s.iff (s.pkg.stage == .recovery && !s.pkg.recover.heard) State.recHello)

/-- The type and data of a frame with a right length and CRC. -/
def recParse (b : List Byte) : Option (Nat × List Byte) :=
  let n := fieldLe b 3 2
  if fieldLe b 0 2 == 0x5AA5 && decide (n ≤ 1024) && b.length == 9 + n
      && crc32 ((b.drop 2).take (3 + n)) == fieldLe b (5 + n) 4 then
    some (fieldLe b 2 1, (b.drop 5).take n)
  else none

/-- RECOVERY_FRAME: a bad CRC is answered NAK, code 1; a command of Table 17-3 waits to run (R408). -/
def execRecoveryFrame (b : List Byte) (s : State) : Host.Outcome State Fault Refusal :=
  .next (s.iff (s.pkg.stage == .recovery) (fun t =>
    match recParse b with
    | none => t.recNak (fieldLe b 2 1) 1
    | some (type, data) =>
      let t1 := t.modRec (fun r => { r with heard := true })
      if 1 ≤ type && type ≤ 4 then t1.modRec (fun r => { r with cmd := some (type, data) }) else t1.recNakFree type))

/-- The command that waits, if it has this type, runs. -/
def State.recRun (s : State) (type : Nat) (f : List Byte → State → State) : State :=
  if s.pkg.stage = .recovery then
    match s.pkg.recover.cmd with
    | some (k, data) => if k = type then f data (s.modRec (fun r => { r with cmd := none })) else s
    | none => s
  else s

/-- HELLO (Table 17-3). -/
def execHello (s : State) : Host.Outcome State Fault Refusal := .next (s.recRun 1 (fun _ t => t.recHello))

/-- BAUD: the ACK goes at the old rate (Table 17-3). -/
def execBaud (s : State) : Host.Outcome State Fault Refusal :=
  .next (s.recRun 2 (fun data t =>
    let rate := leNat data
    if data.length = 4 && 115200 ≤ rate && rate ≤ 3000000 then (t.recAck 2 []).modRec (fun r => { r with next := some rate })
    else t.recNakFree 2))

/-- RECOVERY_BAUD_APPLY: 1 ms after the ACK (R408). -/
def execRecoveryBaudApply (s : State) : Host.Outcome State Fault Refusal :=
  .next (match s.pkg.recover.next with
    | some r => s.modRec (fun x => { x with baud := r, next := none })
    | none => s)

/-- RECOVERY_LOAD: bytes into the staging area at an offset (R409). -/
def execRecoveryLoad (s : State) : Host.Outcome State Fault Refusal :=
  .next (s.recRun 3 (fun data t =>
    let off := leNat (data.take 4)
    let n := data.length - 4
    if data.length < 5 then t.recNakFree 3
    else if 0x800000 < off + n then t.recNak 3 2
    else (t.writeBytes (0x04000000 + off) (data.drop 4)).recAck 3 []))

/-- RUN: the staged image is checked and loaded, the staging area cleared, and step 12 follows; or the memories are
wiped and the ROM waits on (R409). -/
def execRun (s : State) : Host.Outcome State Fault Refusal :=
  .next (s.recRun 4 (fun data t =>
    let code := t.fullCheck 0x04000000
    if data.length ≠ 4 then t.recNakFree 4
    else if code ≠ 1 then (t.recNak 4 code).wipe .recovery
    else
      let h := t.header 0x04000000
      let es := t.manifest h 0x04000000
      let t1 := ((t.loadImage h 0x04000000).fill 0x04000000 0x04800000).recAck 4 []
      (((t1.logRefused es t1.pkg.img.tenants).fset (fPINMUX_SEL_func 0) 0).fset (fPINMUX_SEL_func 1) 0).toStage .hand))

end Sys2Proof.Machine
end

