-- ==== Sys2Proof/Machine/Boundary.lean ====
section
/-!
DEFINITION. The Cinch boundary: the ordered actions of Table 7-3 (R196–R200), the duty bins (R197), the close of the
ledger period with the plan it chooses (R328, R334, R335); and what passes while no command waits.
-/

namespace Sys2Proof.Machine

/-- Duty tables keyed by 60 n + bin, with every bin moved on by d places. -/
def rotBins {α : Type} [DecidableEq α] (z : α) (t : Tab α) (d : Nat) : Tab α :=
  t.foldl (fun a e => tabSet z a (e.1 / 60 * 60 + (e.1 % 60 + d) % 60) e.2) []

/-- The commands of a chain as its duty bins move on by d places: their charges stand in the same bins (R182, R197). -/
def ChainSt.rotate (h : ChainSt) (d : Nat) : ChainSt :=
  let mv (x : TxCmd) : TxCmd := { x with bin := (x.bin + d) % 60 }
  { h with queue := h.queue.map mv, start := h.start.map (fun x => { x with cmd := mv x.cmd })
           air := h.air.map (fun k => { k with cmd := mv k.cmd }) }

/-- Duty bins at a renumbering: all 60 rotate so that the current contents stand at the new index (R197), and the commands
that are charged follow their bins (R182, R198). -/
def State.dutyRotate (s : State) (old new : Nat) : State :=
  let d := (new + 60 - old) % 60
  let r := s.radio.duty
  (({ s with radio := { s.radio with duty := {
      used := rotBins [] r.used d, urg := rotBins 0 r.urg d, opened := rotBins 0 r.opened d } } } : State).modChain 0
    (·.rotate d)).modChain 1 (·.rotate d)

/-- At a renumbering to frame `new` where `next` would have been, carriers on air keep the time since their first symbol
(R198). -/
def State.airShift (s : State) (next new : Nat) : State :=
  let mv (h : ChainSt) : ChainSt :=
    { h with air := h.air.map (fun k => { k with shift := (k.shift + new + 2 ^ 32 - next) % 2 ^ 32 }) }
  (s.modChain 0 mv).modChain 1 mv

/-- Bin b becomes current with a new minute: it clears when it was opened at least 3,599.9 s ago, and records its
opening (R197). -/
def State.dutyOpen (s : State) (b : Nat) : State :=
  let r := s.radio.duty
  let aged := decide (143996000000 ≤ s.mono - tabGet 0 r.opened b)
  { s with radio := { s.radio with duty := {
      used := if aged then r.used.filter (fun e => e.1 % 60 != b) else r.used
      urg := if aged then r.urg.filter (fun e => e.1 % 60 != b) else r.urg
      opened := tabSet 0 r.opened b s.mono } } }

/-- Step 7 of Table 7-3, from the number of the frame that ended. -/
def State.dutyBoundary (s : State) (f : Nat) (renumbered : Bool) : State :=
  if renumbered then s.dutyRotate (f / 60 % 60) s.dutyBin
  else if f / 60 = s.cinch.frame / 60 then s else s.dutyOpen s.dutyBin

/-- Slots of a frame of `len` ns whose start never came (R186). -/
def slotsLost (len : Nat) : Nat := 4000 - (len + 249999) / 250000

/-- What the renumbering at the end of this frame adds to an earlier offset of source k, ns: the offset of a source that
gives a frame number is measured against the own frame number, which the SET has changed (R195; log entry 65). -/
def CinchSt.renumbering (c : CinchSt) (k : Nat) : Int :=
  match c.renumber with
  | some n => if k = 1 then 0 else signedN 32 (n + 2 ^ 32 - (c.frame + 1) % 2 ^ 32) * 1000000000
  | none => 0

/-- Steps 1–4 of Table 7-3: time, the rate, the plan banks, slot 0, the strobe. -/
def State.cinchBoundary (s : State) : State :=
  let a := s.cinch.adj
  let len := s.frameLen
  let s1 := s.modCinch (fun c => { c with
    frame := c.renumber.getD ((c.frame + 1) % 2 ^ 32), prev := c.frame, tu := c.tu - len * 8000000000
    lastAdj := a, adjs := (a :: c.adjs).take 40, rate := c.held
    holdFrames := if s.cinchState = 3 then c.holdFrames + 1 else c.holdFrames
    era := if c.stepDue then c.era + 1 else c.era, stepped := c.stepDue
    sources := c.sources.map (fun e => (e.1, { e.2 with
      last := e.2.last - a + c.renumbering e.1, taken := false
      offs := e.2.offs.map (fun o => o - a + c.renumbering e.1) }))
    adj := 0, decided := false, stepDue := false, renumber := none })
  let s2 := (s1.fset fCINCH_NOW_last_len (unsignedN 32 a)).fadd fCINCH_COUNT_slots_removed (slotsLost len)
  let s3 := s2.iff (s2.fon fCINCH_PLAN_CTRL_swap) (fun t =>
    ((t.fset fCINCH_PLAN_CTRL_active (1 - t.planBank)).fset fCINCH_PLAN_CTRL_swap 0).finc fCINCH_PLAN_CTRL_swaps)
  (s3.runSlot 0).outBoundary

/-- Step 5 of Table 7-3: the close, and the change of plan it decides (R328, R334, R335). -/
def State.girthBoundary (s : State) (f len : Nat) : State :=
  let old := s.plan
  let s1 := s.closeFrame f len
  if s1.plan = old then s1
  else
    let s2 := if min old 2 = s1.units then s1 else s1.planChange old
    if s1.plan = 3 then s2.survEnter else s2

/-- CINCH_BOUNDARY: frame F ends after its decision at D (R196). -/
def execCinchBoundary (s : State) : Host.Outcome State Fault Refusal :=
  .next (s.iff (s.cinch.started && s.cinch.decided) (fun t =>
    let f := t.cinch.frame
    let len := t.frameLen
    let step := t.cinch.stepDue
    let renumbered := t.cinch.renumber.isSome
    let t0 := t.cinchTo len
    let t1 := (t0.cinchBoundary).girthBoundary f len
    let t2 := (t1.iff step (fun u => u.ackCancel.reservesCancel t0)).iff renumbered (fun u =>
      (u.seenExpire t0.seenCount).airShift ((f + 1) % 2 ^ 32) u.cinch.frame)
    let t3 := (t2.dutyBoundary f renumbered).extBoundary len
    ({ t3 with log := { t3.log with fenceCount := [], eccCount := [] } } : State).powerNext))

/-! ## With no command waiting -/

/-- With no command waiting the block idles for one cycle of the 40 MHz reference, where the reference runs; else
nothing passes (DESIGN CHOICE, log entry 2: R51 starts the reference, R344 and R342 stop it). -/
def State.idle (s : State) : State :=
  s.iff (s.pkg.stage != .hold && s.pkg.stage != .reference && s.pkg.power != .deepSleep && s.pkg.power != .off)
    State.refTick

end Sys2Proof.Machine
end

