-- ==== Sys2Proof/Machine/Cops.lean ====
section
/-!
DEFINITION. Coprocessors 1, 2 and 3: decoder control, the CRC and bit engine, and the Cinch slot compare
(R243–R247). Each port is one function of operands A and B; the command of its row and IN, OUT call it.
-/

namespace Sys2Proof.Machine

/-! ## COP1: decoder control (Table 9-9) -/

/-- DECODER_TQ_STATUS of tenant t in region r as it reads. -/
def State.tqStatus (s : State) (r t : Nat) : Word :=
  fldPut 25 5 (s.ctxInUse r t) (fldPut 20 5 (s.ctxUrgent r t) (s.reg (aDECODER_TQ_STATUS t r)))

/-- A COP1 port for engine n: the answer and the state. -/
def cop1 (n port : Nat) (a : Word) (s : State) : Word × State :=
  let r := regionOf n
  let t := s.engTenant n
  match port with
  | 0 => (s.reg (aDECODER_RING_RD r t), s)
  | 1 => (s.reg (aDECODER_RING_WR r t), s)
  | 2 =>
    let w := s.ringRdWrite r t (bitsN a.toNat 23 0)
    (BitVec.ofNat 32 (b2n (!w.1)), w.2)
  | 3 => (s.tqStatus r t, s)
  | 4 | 5 | 6 | 7 => (s.reg (aDECODER_FCOUNT_w0 t r + 4 * (port - 4)), s)
  | _ => (0#32, s)

/-- A COP1 instruction; on the supervisor it is ILLEGAL (R255). -/
def copDec (c : CoreId) (p : Pred) (port : Nat) (rd rs1 rs2 : BitVec 5) (s : State) : State :=
  copFar c p 1 (c == .sup) rd rs1 rs2 (fun _ a _ t => cop1 (coreNum c) port a t) s

/-- RING_RD (R245). -/
def execRingRd (c : CoreId) (p : Pred) (rd rs1 rs2 : BitVec 5) (s : State) : Host.Outcome State Fault Refusal :=
  .next (copDec c p 0 rd rs1 rs2 s)
/-- RING_WR (R245). -/
def execRingWr (c : CoreId) (p : Pred) (rd rs1 rs2 : BitVec 5) (s : State) : Host.Outcome State Fault Refusal :=
  .next (copDec c p 1 rd rs1 rs2 s)
/-- FREE (R245, R152). -/
def execFree (c : CoreId) (p : Pred) (rd rs1 rs2 : BitVec 5) (s : State) : Host.Outcome State Fault Refusal :=
  .next (copDec c p 2 rd rs1 rs2 s)
/-- TQ (R245). -/
def execTq (c : CoreId) (p : Pred) (rd rs1 rs2 : BitVec 5) (s : State) : Host.Outcome State Fault Refusal :=
  .next (copDec c p 3 rd rs1 rs2 s)
/-- FCOUNT word w (R245). -/
def execFcount (c : CoreId) (p : Pred) (rd rs1 rs2 : BitVec 5) (w : BitVec 2) (s : State) :
    Host.Outcome State Fault Refusal :=
  .next (copDec c p (4 + w.toNat) rd rs1 rs2 s)

/-! ## COP2: the CRC and bit engine (Table 9-10) -/

/-- The low n bits of the crc state replaced. -/
def crcPut (n : Nat) (crc : Word) (v : Nat) : Word := fldPut 0 n v crc

/-- A COP2 port on an engine: answer and engine. -/
def cop2 (port : Nat) (a b : Word) (e : Engine) : Word × Engine :=
  let out (v : Nat) (f : Engine) : Word × Engine := (BitVec.ofNat 32 v, f)
  let crc (w : Word) : Engine := { e with crc := w }
  match port with
  | 0 => out 0 (crc a)
  | 1 =>
    let w := BitVec.ofNat 32 (crc32Byte e.crc.toNat (a.extractLsb' 0 8))
    (~~~w, crc w)
  | 2 =>
    let w := BitVec.ofNat 32 ((leBytes 4 a.toNat).foldl crc32Byte e.crc.toNat)
    (~~~w, crc w)
  | 3 =>
    let v := crc16Byte (b.toNat % 65536) (bitN b.toNat 16) (e.crc.toNat % 65536) (a.extractLsb' 0 8)
    out v (crc (crcPut 16 e.crc v))
  | 4 =>
    let v := crc8Byte (e.crc.toNat % 256) (a.extractLsb' 0 8)
    out v (crc (crcPut 8 e.crc v))
  | 5 =>
    let r := pn9Run 8 e.pn.toNat
    out r.1 { e with pn := BitVec.ofNat 9 r.2 }
  | 6 => out 0 { e with pn := a.extractLsb' 0 9 }
  | 7 => out (golayEnc (a.toNat % 4096)) e
  | 8 =>
    match golayDec (a.toNat % 2 ^ 24) with
    | some (i, n) => out (i + n * 2 ^ 12) e
    | none => out (2 ^ 15) e
  | 9 => (brev a, e)
  | 10 => (e.crc, e)
  | _ => out 0 e

/-- The COP2 port of core n on the state. -/
def cop2S (n port : Nat) (a b : Word) (s : State) : Word × State :=
  let r := cop2 port a b (s.eng n)
  (r.1, s.setEng n r.2)

/-- A COP2 instruction. -/
def copBits (c : CoreId) (p : Pred) (port : Nat) (rd rs1 rs2 : BitVec 5) (s : State) : State :=
  copFar c p 2 false rd rs1 rs2 (fun _ a b t => cop2S (coreNum c) port a b t) s

/-- CRC_INIT (R246). -/
def execCrcInit (c : CoreId) (p : Pred) (rd rs1 rs2 : BitVec 5) (s : State) : Host.Outcome State Fault Refusal :=
  .next (copBits c p 0 rd rs1 rs2 s)
/-- CRC32_B (R246). -/
def execCrc32B (c : CoreId) (p : Pred) (rd rs1 rs2 : BitVec 5) (s : State) : Host.Outcome State Fault Refusal :=
  .next (copBits c p 1 rd rs1 rs2 s)
/-- CRC32_W (R246). -/
def execCrc32W (c : CoreId) (p : Pred) (rd rs1 rs2 : BitVec 5) (s : State) : Host.Outcome State Fault Refusal :=
  .next (copBits c p 2 rd rs1 rs2 s)
/-- CRC16_B (R246, R421). -/
def execCrc16B (c : CoreId) (p : Pred) (rd rs1 rs2 : BitVec 5) (s : State) : Host.Outcome State Fault Refusal :=
  .next (copBits c p 3 rd rs1 rs2 s)
/-- CRC8_B (R246). -/
def execCrc8B (c : CoreId) (p : Pred) (rd rs1 rs2 : BitVec 5) (s : State) : Host.Outcome State Fault Refusal :=
  .next (copBits c p 4 rd rs1 rs2 s)
/-- PN9 (R246). -/
def execPn9 (c : CoreId) (p : Pred) (rd rs1 rs2 : BitVec 5) (s : State) : Host.Outcome State Fault Refusal :=
  .next (copBits c p 5 rd rs1 rs2 s)
/-- PN9_INIT (R246). -/
def execPn9Init (c : CoreId) (p : Pred) (rd rs1 rs2 : BitVec 5) (s : State) : Host.Outcome State Fault Refusal :=
  .next (copBits c p 6 rd rs1 rs2 s)
/-- GOLAY_ENC (R246, R133). -/
def execGolayEnc (c : CoreId) (p : Pred) (rd rs1 rs2 : BitVec 5) (s : State) : Host.Outcome State Fault Refusal :=
  .next (copBits c p 7 rd rs1 rs2 s)
/-- GOLAY_DEC (R246, R134). -/
def execGolayDec (c : CoreId) (p : Pred) (rd rs1 rs2 : BitVec 5) (s : State) : Host.Outcome State Fault Refusal :=
  .next (copBits c p 8 rd rs1 rs2 s)
/-- BREV (R246). -/
def execBrev (c : CoreId) (p : Pred) (rd rs1 rs2 : BitVec 5) (s : State) : Host.Outcome State Fault Refusal :=
  .next (copBits c p 9 rd rs1 rs2 s)
/-- CRC_RD (R246). -/
def execCrcRd (c : CoreId) (p : Pred) (rd rs1 rs2 : BitVec 5) (s : State) : Host.Outcome State Fault Refusal :=
  .next (copBits c p 10 rd rs1 rs2 s)

/-! ## COP3: the Cinch slot compare (Table 9-11) -/

/-- The compare of a slot set. -/
def State.setArmed (s : State) (n p : Nat) (v : Option (Nat × Nat)) : State :=
  s.modEng n (fun e => e.modSlot p (fun sl => { sl with armed := v }))

/-- The instant (f, x) is past for an arm: reduced under R188, its frame lies half the count back, or it is at or before the
current ns of the current frame (R247). -/
def State.armPast (s : State) (f x : Nat) : Bool := decide (s.untilNs f x ≤ 0)

/-- A COP3 port of core n. -/
def cop3 (n port : Nat) (a b : Word) (s : State) : Word × State :=
  if port < 0x10 then
    if bitsN b.toNat 31 30 ≠ 0 then (2#32, s)
    else if s.armPast a.toNat (bitsN b.toNat 29 0) then (1#32, (s.setArmed n port none).ready n port .cinch false)
    else (0#32, s.setArmed n port (some (a.toNat, bitsN b.toNat 29 0)))
  else if port < 0x20 then
    (BitVec.ofNat 32 (b2n ((s.eng n).slot (port - 0x10)).armed.isSome), s.setArmed n (port - 0x10) none)
  else if port = 0x20 then
    (BitVec.ofNat 32 (s.nowNs / 10 * 10), s.modEng n (fun e => { e with nowFrame := BitVec.ofNat 32 s.cinch.frame }))
  else if port = 0x21 then ((s.eng n).nowFrame, s)
  else (0#32, s)

/-- A COP3 instruction. -/
def copCinch (c : CoreId) (p : Pred) (port : Nat) (rd rs1 rs2 : BitVec 5) (s : State) : State :=
  copFar c p 3 false rd rs1 rs2 (fun _ a b t => cop3 (coreNum c) port a b t) s

/-- ARM of task slot q (R247). -/
def execArm (c : CoreId) (p : Pred) (rd rs1 rs2 : BitVec 5) (q : BitVec 4) (s : State) :
    Host.Outcome State Fault Refusal :=
  .next (copCinch c p q.toNat rd rs1 rs2 s)
/-- DISARM of task slot q (R247). -/
def execDisarm (c : CoreId) (p : Pred) (rd rs1 rs2 : BitVec 5) (q : BitVec 4) (s : State) :
    Host.Outcome State Fault Refusal :=
  .next (copCinch c p (0x10 + q.toNat) rd rs1 rs2 s)
/-- NOW_NS (R247). -/
def execNowNs (c : CoreId) (p : Pred) (rd rs1 rs2 : BitVec 5) (s : State) : Host.Outcome State Fault Refusal :=
  .next (copCinch c p 0x20 rd rs1 rs2 s)
/-- NOW_FRAME (R247). -/
def execNowFrame (c : CoreId) (p : Pred) (rd rs1 rs2 : BitVec 5) (s : State) : Host.Outcome State Fault Refusal :=
  .next (copCinch c p 0x21 rd rs1 rs2 s)

end Sys2Proof.Machine
end

