-- ==== Sys2Proof/Machine/Bus.lean ====
section
/-!
DEFINITION. Registers as a master reads and writes them: absent units (R5, R39), the live contents of read-only fields,
reads with an effect, values that a field does not take, and writes with an effect. Table 0-2, R12 and R13 hold for
every register; what a unit adds stands with the unit and is called here.
-/

namespace Sys2Proof.Machine

/-! ## Live contents of read-only fields -/

/-- GIRTH and PWR: pack_low, plan costs, the tenant pages, IDLE. -/
def State.girthShown (s : State) (a : Nat) (w : Word) : Word :=
  if a = aGIRTH_STATUS then
    fldPut 25 1 (b2n (decide (s.ledger 8 ≤ s.fget fGIRTH_RESERVE_reserve_j * 1000000))) w
  else if within a 0x10010240 4 4 then s.planCost ((a - 0x10010240) / 4)
  else if a = aPWR_STATUS then
    if s.pkg.power.awake && s.pkg.stage == .run && !s.anyBusy then fldPut 0 3 1 w else w
  else if within a 0x10018000 16 0x100 then
    let t := (a - 0x10018000) / 0x100
    match a % 0x100 with
    | 0x08 => BitVec.ofNat 32 (tabGet 0 s.girth.lastUse t)
    | 0x0C => s.reg (aGIRTH_TSHARE t)
    | 0x10 => BitVec.ofNat 32 (tabGet 0 s.girth.denied t % 65536 * 65536 + tabGet 0 s.girth.clampCount t % 65536)
    | _ => 0#32
  else w

/-- CINCH_STATUS with the qualified sources, bits as src_en. -/
def State.cinchStatusShown (s : State) : Word :=
  (List.range 4).foldl (fun w i => fldPut (16 + i) 1 (b2n (s.source (i + 1)).qualified) w) (s.reg aCINCH_STATUS)

/-- CINCH: qualified sources, the held rate, Cinch time. -/
def State.cinchShown (s : State) (a : Nat) (w : Word) : Word :=
  if a = aCINCH_STATUS then s.cinchStatusShown
  else if a = aCINCH_RATE then BitVec.ofNat 32 (rateShown s.cinch.held)
  else if a = aCINCH_NOW_w0 then BitVec.ofNat 32 s.cinch.frame
  else if a = aCINCH_NOW_w1 then BitVec.ofNat 32 (s.nowNs / 10 * 10)
  else if a = aCINCH_NOW_w4 then BitVec.ofNat 32 (s.cinchStatusShown.toNat % 65536)
  else w

/-- The page of timer n: committed values, count, running. -/
def State.timerShown (s : State) (n off : Nat) (w : Word) : Word :=
  let x := s.timer n
  match off with
  | 0x04 => BitVec.ofNat 32 (x.reloadNext.getD x.reload)
  | 0x08 => BitVec.ofNat 32 (x.reloadNext.getD x.reload / 2 ^ 32)
  | 0x0C => BitVec.ofNat 32 (x.cmpNext.getD x.cmp)
  | 0x10 => BitVec.ofNat 32 (x.cmpNext.getD x.cmp / 2 ^ 32)
  | 0x14 => BitVec.ofNat 32 x.count
  | 0x18 => BitVec.ofNat 32 (b2n x.down * 2 ^ 31 + x.turn % 16 * 2 ^ 16 + x.count / 2 ^ 32 % 65536)
  | 0x1C => fldPut 31 1 (b2n (s.timerOn n)) w
  | _ => w

/-- RTC and timers; the RTC words are those of the master's shadow (R384). -/
def State.rtcShown (s : State) (m : Master) (a : Nat) (w : Word) : Word :=
  let r := s.rtcSeen (shadowOf m)
  if a = aRTC_CTRL then fldPut 30 1 (b2n s.rtc.loading) w
  else if a = aRTC_FRAC then BitVec.ofNat 32 (r.2 * 2)
  else if a = aRTC_SEC_LO then BitVec.ofNat 32 r.1
  else if a = aRTC_SEC_HI then BitVec.ofNat 32 (r.1 / 2 ^ 32)
  else if a = aTMR_GSTAT then
    BitVec.ofNat 32 ((List.range 16).foldl (fun v n =>
      v + b2n (s.timers.armed.contains n) * 2 ^ (16 + n) + b2n (s.timerOn n) * 2 ^ n) 0)
  else if within a 0x10031000 16 0x100 then s.timerShown ((a - 0x10031000) / 0x100) (a % 0x100) w
  else w

/-- Cipher: queue, engines, key slots, key-cache shares. -/
def State.cipherShown (s : State) (a : Nat) (w : Word) : Word :=
  let runs (u : Nat) : Bool := s.cipher.running.any (fun r => r.unit == u)
  if a = aCIPHER_STATUS then
    fldPut 30 1 (b2n s.cipher.failed) (fldPut 29 1 (b2n (runs 4)) (fldPut 16 6 s.cipher.queue.length (fldPut 0 4
      (b2n (runs 0) + 2 * b2n (runs 1) + 4 * b2n (runs 2) + 8 * b2n (runs 3)) w)))
  else if within a 0x10060100 16 4 then fldPut 16 8 (s.kcHeld ((a - 0x10060100) / 4)) w
  else if within a 0x10061000 256 4 then
    let k := (a - 0x10061000) / 4
    let x := s.keySlot k
    if !x.valid then BitVec.ofNat 32 (b2n (s.slotInUse k) * 2 ^ 30 + x.owner % 16 * 2 ^ 24)
    else BitVec.ofNat 32 (2 ^ 31 + b2n (s.slotInUse k) * 2 ^ 30 + b2n x.clearCtx * 2 ^ 29 + x.owner % 16 * 2 ^ 24
      + (if 64 ≤ k then x.node % 2 ^ 17 else 0))
  else w

/-- Node table and relay unit: ports, occupancy. -/
def State.tableShown (s : State) (a : Nat) (w : Word) : Word :=
  if within a 0x10070000 4 0x100 && a % 0x100 == 4 then
    BitVec.ofNat 32 (b2n (s.portCmd ((a - 0x10070000) / 0x100)).isSome)
  else if a = aTABLE_OCC 0 then BitVec.ofNat 32 (s.nodeCount (fun _ => true))
  else if a = aTABLE_OCC 1 then BitVec.ofNat 32 (s.nodeCount (fun v => bitN v 30))
  else if within a 0x10071000 16 0x10 && a % 0x10 == 0xC then
    let t := (a - 0x10071000) / 0x10
    BitVec.ofNat 32 (min 16383 (s.nodePinned t) * 2 ^ 18 + s.nodeEntries t)
  else if a = aRELAY_SEEN_OCC then BitVec.ofNat 32 s.seenCount
  else if a = aRELAY_BUF then BitVec.ofNat 32 s.relay.bufs.length
  else w

/-- The tenant pages of the fences: copies of TENANT_CFG, TENANT_CIPHER and TENANT_FVIOL. -/
def State.tenantShown (s : State) (a : Nat) (w : Word) : Word :=
  if within a 0x10088000 16 0x100 then
    let t := (a - 0x10088000) / 0x100
    match a % 0x100 with
    | 0x00 => s.reg (aTENANT_CFG t)
    | 0x04 => s.reg (aTENANT_CIPHER t)
    | 0x10 => s.reg (aTENANT_FVIOL_w0 t)
    | 0x14 => s.reg (aTENANT_FVIOL_w1 t)
    | 0x18 => s.reg (aTENANT_FVIOL_w2 t)
    | _ => 0#32
  else w

/-- Wired interfaces: the oldest transmit stamp, UART levels. -/
def State.wiredShown (s : State) (a : Nat) (w : Word) : Word :=
  let stamp (p : Nat) : TxStamp × Bool :=
    match (s.port p).stamps with
    | [] => ({ tag := 0, sec := 0, ns := 0 }, false)
    | x :: _ => (x, true)
  let p := (a - 0x10090000) / 0x10000
  if a = aETH_TXTS_w0 p then BitVec.ofNat 32 (b2n (stamp p).2 * 2 ^ 31 + (stamp p).1.tag % 65536)
  else if a = aETH_TXTS_w1 p then BitVec.ofNat 32 (stamp p).1.ns
  else if a = aETH_TXTS_w2 p then BitVec.ofNat 32 (stamp p).1.sec
  else if a = aUART_STATUS 0 || a = aUART_STATUS 1 then
    let u := s.uart ((a - aUART_STATUS 0) / 0x20)
    fldPut 8 7 u.tx.length (fldPut 0 7 u.rx.length w)
  else w

/-- Fuses of the radio: sub-bands, profile, old-tree permission (R103, R105, R417). -/
def State.radioFuses (s : State) (a : Nat) (w : Word) : Word :=
  if within a 0x10100800 16 0x10 then tabGet 0#32 s.fuses.subband ((a - 0x10100800) / 4)
  else if a = aRADIO_REG_PROFILE then
    BitVec.ofNat 32 (s.fuses.profile % 65536 * 65536 + s.fuses.paGainH % 256 * 256 + s.fuses.paGainL % 256)
  else if a = aRADIO_OLDTREE then s.fuses.oldTree
  else w

/-- Radio: tuner spans, chains, duty accounts, group delays. -/
def State.radioShown (s : State) (a : Nat) (w : Word) : Word :=
  if within a 0x10140000 512 0x100 then
    let n := (a - 0x10140000) / 0x100
    match a % 0x100 with
    | 0x10 => if s.fon (fRADIO_RX_STATUS_bound_a n) then BitVec.ofNat 32 (s.rxDelay n false % 2 ^ 24) else 0#32
    | 0x14 => if s.fon (fRADIO_RX_STATUS_bound_b n) then BitVec.ofNat 32 (s.rxDelay n true % 2 ^ 24) else 0#32
    | _ => w
  else if a = aRADIO_PATH_STATUS 0 then fldPut 8 8 (s.spanUsed 0) w
  else if a = aRADIO_PATH_STATUS 1 then fldPut 8 8 (s.spanUsed 1) w
  else if a = aRADIO_TX_STATUS 0 || a = aRADIO_TX_STATUS 1 then
    let c := (a - aRADIO_TX_STATUS 0) / 0x80
    let h := s.chain c
    fldPut 16 11 ((h.cal.filter (fun x => s.calValid c x.1)).length) (fldPut 8 7 h.queue.length (fldPut 4 3 h.air.length w))
  else if within a 0x10100A00 16 0x10 && a % 0x10 == 4 then BitVec.ofNat 32 (s.dutyUsed ((a - 0x10100A00) / 0x10))
  else if within a 0x10100A00 16 0x10 && a % 0x10 == 8 then BitVec.ofNat 32 (s.dutyUrg ((a - 0x10100A00) / 0x10))
  else if within a 0x10101000 16 0x40 then
    BitVec.ofNat 32 (s.dutyTenant ((a - 0x10101000) / 0x40) ((a - 0x10101000) % 0x40 / 4))
  else s.radioFuses a w

/-- Decoder pool: cores and quota status. -/
def State.decoderShown (s : State) (a : Nat) (w : Word) : Word :=
  if within a 0x10200010 8 4 then
    let c := (a - 0x10200010) / 4
    let iter := (List.range 12).any (fun i => (s.ctx (12 * c + i)).st == .iterate)
    fldPut 31 1 (b2n (s.regionUp (c / 2) && s.coreOn c)) (fldPut 24 4 (s.coreBusy c) (fldPut 20 4 (s.coreUrgent c)
      (fldPut 16 1 (b2n iter) w)))
  else if within a 0x10208000 16 0x100 && decide (a % 0x100 < 0x10) then
    s.tqStatus (a % 0x100 / 4) ((a - 0x10208000) / 0x100)
  else w

/-- ENGCTL_ENG run: 0 running, 1 idle, 2 stopped by a fault, 3 stopped or not released. -/
def runCode (r : RunSt) : Nat :=
  match r with
  | .running => 0
  | .idle => 1
  | .faulted => 2
  | .stopped | .gated => 3

/-- ENGCTL_ENG of engine n. -/
def Engine.ctlWord (e : Engine) : Word :=
  BitVec.ofNat 32 (runCode e.run * 2 ^ 28 + e.cur % 16 * 2 ^ 24 + e.nq.queue.length % 32 * 2 ^ 16
    + (List.range 16).foldl (fun v p => v + b2n ((e.slot p).st == .ready) * 2 ^ p) 0)

/-- Engine pages: run state and the I-SRAM window, which a tenant engine reads as 0 (R272). -/
def State.engShown (s : State) (m : Master) (a : Nat) (w : Word) : Word :=
  if within a 0x10300000 16 0x100 && decide (0x40 ≤ a % 0x100) && decide (a % 0x100 < 0xC0) then
    let e := s.eng ((a - 0x10300000) / 0x100 * 8 + (a % 0x100 - 0x40) / 0x10)
    match a % 0x10 with
    | 0 => e.ctlWord
    | 4 => if (s.tagOf m).isSome then 0#32 else BitVec.ofNat 32 (b2n e.win.err * 2 ^ 31 + e.win.addr % 65536)
    | _ => w
  else w

/-- The word of a register with the live contents of its read-only fields. -/
def State.regShown (s : State) (m : Master) (a : Nat) : Word :=
  let w := s.reg a
  match a / 0x10000 with
  | 0x1000 => if a = aSYS_DEVICE_ID then Config.deviceId s.variant else w
  | 0x1001 => s.girthShown a w
  | 0x1002 => s.cinchShown a w
  | 0x1003 => s.rtcShown m a w
  | 0x1005 => if within a 0x10051000 4096 4 then BitVec.ofNat 32 (s.num (eraseCountKey ((a - 0x10051000) / 4)) 4) else w
  | 0x1006 => s.cipherShown a w
  | 0x1007 => s.tableShown a w
  | 0x1008 => s.tenantShown a w
  | 0x1009 | 0x100A | 0x100B => s.wiredShown a w
  | 0x100C => if a % 0x40 = 0 then fldPut 31 1 1 w else w
  | 0x1010 | 0x1013 | 0x1014 | 0x1015 => s.radioShown a w
  | 0x1020 => s.decoderShown a w
  | 0x1030 => s.engShown m a w
  | _ => w

/-! ## Reads -/

/-- The register is a tenant page, whose copies have no row of their own. -/
def pageCopy (a : Nat) : Bool := within a 0x10018000 16 0x100 || within a 0x10088000 16 0x100

/-- A read of a counter's word at a tenant page or in the ledgers: its number and which half (R323). -/
def counterOf (a : Nat) : Option (Nat × Bool) :=
  if within a 0x10010100 11 8 then some ((a - 0x10010100) / 8, a % 8 == 4)
  else if within a 0x10010180 16 8 then some (16 + (a - 0x10010180) / 8, a % 8 == 4)
  else if within a 0x10018000 16 0x100 && decide (a % 0x100 < 8) then
    some (16 + (a - 0x10018000) / 0x100, a % 0x100 == 4)
  else none

/-- Reads that give more than a register's word, by address: the answer and the state. -/
def State.readSpecial (s : State) (m : Master) (a : Nat) : Option (Word × State) :=
  match counterOf a with
  | some (k, false) => some (s.ledgerLow m k)
  | some (k, true) => some (s.ledgerHigh m k)
  | none =>
    let eng := (a - 0x10300000) / 0x100 * 8 + (a % 0x100 - 0x40) / 0x10
    let tenant := (s.tagOf m).isSome
    if a = aCINCH_NOW_w1 then
      some (s.regShown m a, s.setReg aCINCH_NOW_w2 (BitVec.ofNat 32 s.cinch.frame))
    else if a = aRTC_FRAC || a = aRTC_SEC_LO then some (s.regShown m a, s.rtcFreeze (shadowOf m))
    else if a = aRTC_SEC_HI then some (s.regShown m a, s.setShadow (shadowOf m) none)
    else if a = aTRNG_DATA then some s.trngTake
    else if a = aETH_PTP_w0 0 then some ((s.ptpLatch 0).reg a, s.ptpLatch 0)
    else if a = aETH_PTP_w0 1 then some ((s.ptpLatch 1).reg a, s.ptpLatch 1)
    else if a = aETH_TXTS_w2 0 then some (s.regShown m a, s.stampPop 0)
    else if a = aETH_TXTS_w2 1 then some (s.regShown m a, s.stampPop 1)
    else if a = aETH_MGMT_PEND then some s.mgmtPend
    else if a = aUART_DATA 0 then some (s.uartPop 0)
    else if a = aUART_DATA 1 then some (s.uartPop 1)
    else if a = aGPIO_IN then some s.gpioIn
    else if within a (aRADIO_SPEC_DATA 0) 512 4 then some (s.specRead a)
    else if within a 0x10300000 16 0x100 && decide (0x40 ≤ a % 0x100) && decide (a % 0x100 < 0xC0) && a % 0x10 == 8 then
      some (if tenant then (0#32, s) else s.idataLoRead eng)
    else if within a 0x10300000 16 0x100 && decide (0x40 ≤ a % 0x100) && decide (a % 0x100 < 0xC0) && a % 0x10 == 0xC then
      some (if tenant then (0#32, s) else s.idataHiRead eng)
    else none

/-- An open read of the register at an aligned address: the word and the state after it (Table 0-2, R12, R13). -/
def State.regRead (s : State) (m : Master) (a : Nat) : Word × State :=
  if s.regAbsent a then (0#32, s)
  else
    match s.readSpecial m a with
    | some r => r
    | none =>
      if pageCopy a then (s.regShown m a, s)
      else
        match regDesc a with
        | some d => (descRead d (s.regShown m a), s.setReg a (descAfterRead d (s.reg a)))
        | none => (0#32, s)

/-! ## Plain writes -/

/-- A write of a register by the codes of its fields: `hw` are the W1C bits that hardware sets in the same cycle (R12);
a WOL field takes its first write since reset. -/
def State.plainWrite (s : State) (a : Nat) (v hw : Word) : State :=
  match regDesc a with
  | none => s
  | some d =>
    let s1 := s.setReg a (descTake d v hw (s.reg a) (tabGet false s.wol a))
    if descHasWol d then { s1 with wol := tabSet false s1.wol a true } else s1

/-! ## Writes with an effect, by block -/

/-- The sum over the tenants of a field, tenant t's value replaced by v. -/
def State.sumOver (s : State) (f : Nat → Fld) (t v : Nat) : Nat :=
  (List.range 16).foldl (fun a u => a + (if u = t then v else s.fget (f u))) 0

/-- SYS: boot control, reset, the operator log. -/
def State.sysWrite (s : State) (a : Nat) (v hw : Word) : State :=
  if a = aSYS_BOOT_CTRL then s.bootCtrlWrite v.toNat
  else if a = aSYS_RESET_CTRL then s.softReset v.toNat
  else if a = aSYS_LOG_ADD_w0 then s.logAddWrite v.toNat
  else if within a aSYS_LOG_ADD_w1 4 4 then s.setReg a v
  else s.plainWrite a v hw

/-- A write of GIRTH_TSHARE of tenant t: ignored where it breaks R289. -/
def State.tshareWrite (s : State) (t : Nat) (v hw : Word) : State :=
  let g := bitsN v.toNat 9 0
  if s.sumOver fGIRTH_TSHARE_guar_pm t g ≤ 1000 && decide (g ≤ bitsN v.toNat 25 16) then
    s.plainWrite (aGIRTH_TSHARE t) v hw
  else s

/-- GIRTH and PWR. -/
def State.girthBlockWrite (s : State) (a : Nat) (v hw : Word) : State :=
  if a = aGIRTH_CTRL then s.girthCtrlWrite v.toNat
  else if a = aGIRTH_STATUS then (if bitN v.toNat 24 then s.die1Ready else s)
  else if a = aGIRTH_LEDGER 8 0 then s.packEstLo v.toNat
  else if a = aGIRTH_LEDGER 8 1 then s.packEstHi v.toNat
  else if within a (aGIRTH_TSHARE 0) 16 4 then s.tshareWrite ((a - aGIRTH_TSHARE 0) / 4) v hw
  else if a = aGIRTH_NACC_w0 then s.naccWrite v.toNat
  else if a = aPWR_CTRL then s.pwrCtrlWrite v.toNat
  else s.plainWrite a v hw

/-- CINCH. -/
def State.cinchBlockWrite (s : State) (a : Nat) (v hw : Word) : State :=
  if a = aCINCH_CTRL then s.cinchCtrlWrite v.toNat
  else if a = aCINCH_RATE then s.rateWrite v.toNat
  else if within a aCINCH_AIR_OBS_w0 4 4 then s.setReg a v
  else if a = aCINCH_AIR_OBS_w4 then s.airObsWrite v.toNat
  else if within a (aCINCH_PLAN 0 0) 2 0x4000 then
    s.planWrite ((a - aCINCH_PLAN 0 0) / 0x4000) ((a - aCINCH_PLAN 0 0) % 0x4000 / 4) v.toNat
  else s.plainWrite a v hw

/-- The page of timer n. -/
def State.timerWrite (s : State) (n off : Nat) (v hw : Word) : State :=
  match off with
  | 0x00 => s.tmrCfgWrite n v.toNat
  | 0x04 => s.modTimer n (fun x => { x with reloadLo := v.toNat })
  | 0x08 => s.reloadCommit n v.toNat
  | 0x0C => s.modTimer n (fun x => { x with cmpLo := v.toNat })
  | 0x10 => s.cmpCommit n v.toNat
  | 0x1C => s.plainWrite (0x10031000 + n * 0x100 + 0x1C) v hw
  | _ => s

/-- RTC and timers. -/
def State.rtcBlockWrite (s : State) (a : Nat) (v hw : Word) : State :=
  if a = aRTC_CTRL then s.rtcCtrlWrite v.toNat
  else if a = aTMR_START then s.tmrStart v.toNat
  else if a = aTMR_STOP then s.tmrStop v.toNat
  else if within a 0x10031000 16 0x100 then s.timerWrite ((a - 0x10031000) / 0x100) (a % 0x100) v hw
  else s.plainWrite a v hw

/-- A write of CIPHER_KC of tenant t: ignored where the guarantees would exceed 192 keys (R301). -/
def State.kcWrite (s : State) (t : Nat) (v hw : Word) : State :=
  if s.sumOver fCIPHER_KC_kc_guar t (v.toNat % 256) ≤ 192 then s.plainWrite (aCIPHER_KC t) v hw else s

/-- A write of ECC_KEY_CTRL of key i: owner, then the operations named; keygen draws a free value (log entries 13, 69). -/
def State.eccCtrlWrite (s : State) (i : Nat) (v : Word) : State :=
  let s1 := s.fset (fECC_KEY_CTRL_owner i) (bitsN v.toNat 23 20)
  if bitN v.toNat 31 then
    let d := s1.free 256
    d.2.eccStart i (.keygen d.1.toNat)
  else if bitN v.toNat 30 then s1.eccStart i .zeroize
  else if bitN v.toNat 29 then s1.eccStart i .save
  else s1

/-- CIPHER. -/
def State.cipherWrite (s : State) (a : Nat) (v hw : Word) : State :=
  if within a (aCIPHER_KEY_DATA 0) 4 4 then s.setReg a v
  else if a = aCIPHER_KEY_CMD then s.keyCmd v.toNat
  else if within a (aCIPHER_KC 0) 16 4 then s.kcWrite ((a - aCIPHER_KC 0) / 4) v hw
  else if within a (aECC_KEY_CTRL 0) 4 4 then s.eccCtrlWrite ((a - aECC_KEY_CTRL 0) / 4) v
  else s.plainWrite a v hw

/-- A write of RELAY_TCFG of tenant t: ignored when the target is no engine of the tenant. -/
def State.relayTcfgWrite (s : State) (t : Nat) (v hw : Word) : State :=
  if s.clusterTenant (clusterOf (bitsN v.toNat 6 0)) = some t then s.plainWrite (aRELAY_TCFG t) v hw else s

/-- TABLE, RELAY, OLDTREE. -/
def State.tableWrite (s : State) (m : Master) (a : Nat) (v hw : Word) : State :=
  if within a (aTABLE_PORT_GO 0) 4 0x100 && a % 0x100 == 0 then
    s.tableGo (masterCore m) ((a - aTABLE_PORT_GO 0) / 0x100) v.toNat
  else if within a (aRELAY_TCFG 0) 16 4 then s.relayTcfgWrite ((a - aRELAY_TCFG 0) / 4) v hw
  else if a = aOLDTREE_ALIAS_w0 then s.aliasWrite v.toNat
  else s.plainWrite a v hw

/-- A write of TENANT_CFG of tenant t: fault_target once, fence_err of tenant 0, suspend for a declared tenant (R292). -/
def State.tenantCfgWrite (s : State) (t : Nat) (v hw : Word) : State :=
  let hold := s.fget (fTENANT_CFG_suspend t)
  ((s.plainWrite (aTENANT_CFG t) v hw).fset (fTENANT_CFG_suspend t) hold).suspendWrite t (bitN v.toNat 30)

/-- A write of TENANT_CIPHER of tenant t: ignored where it breaks R289. -/
def State.tenantCipherWrite (s : State) (t : Nat) (v hw : Word) : State :=
  let g := bitsN v.toNat 5 0
  let c := bitsN v.toNat 13 8
  if s.sumOver fTENANT_CIPHER_q_guar t g + s.fget fTENANT_CIPHER_RES_q_res ≤ 32 && decide (g ≤ c) && decide (c ≤ 32) then
    s.plainWrite (aTENANT_CIPHER t) v hw
  else s

/-- A write of TENANT_CIPHER_RES: ignored where it breaks R289. -/
def State.cipherResWrite (s : State) (v hw : Word) : State :=
  if s.sumOver fTENANT_CIPHER_q_guar 16 0 + bitsN v.toNat 5 0 ≤ 32 then s.plainWrite aTENANT_CIPHER_RES v hw else s

/-- TENANT. -/
def State.tenantBlockWrite (s : State) (a : Nat) (v hw : Word) : State :=
  if within a (aTENANT_CFG 0) 16 4 then s.tenantCfgWrite ((a - aTENANT_CFG 0) / 4) v hw
  else if within a (aTENANT_RFENCE 0 0) 4 0x100 then
    s.rfenceWrite ((a - aTENANT_RFENCE 0 0) / 0x100) (a % 0x100 / 4) v
  else if within a (aTENANT_SFENCE 0) 32 4 then s.sfenceWrite ((a - aTENANT_SFENCE 0) / 4) v
  else if within a (aTENANT_CIPHER 0) 16 4 then s.tenantCipherWrite ((a - aTENANT_CIPHER 0) / 4) v hw
  else if a = aTENANT_CIPHER_RES then s.cipherResWrite v hw
  else s.plainWrite a v hw

/-- ETH0, ETH1 and the management unit. -/
def State.ethWrite (s : State) (a : Nat) (v hw : Word) : State :=
  let p := (a - 0x10090000) / 0x10000
  if a = aETH_CFG p then s.ethCfgWrite p v.toNat
  else if a = aETH_PTP_w3 p then s.ptpRateWrite p v.toNat
  else if a = aETH_PTP_w4 p then s.ptpStep p v.toNat
  else if a = aETH_MDIO then s.mdioWrite v.toNat
  else if a = aETH_MGMT_DONE then s.iff s.ethFree (fun t => t.mgmtDone v.toNat)
  else s.plainWrite a v hw

/-- PINMUX, GPIO, UART, SPI, I2C. -/
def State.pinBlockWrite (s : State) (a : Nat) (v hw : Word) : State :=
  if within a (aPINMUX_SEL 0) 32 4 then s.pinWrite ((a - aPINMUX_SEL 0) / 4) v.toNat
  else if a = aPINMUX_CINCH_OUT then
    (s.plainWrite a v hw).iff (!bitN v.toNat 31) (fun t => t.modCinch (fun c => { c with out := false, outRise := none }))
  else if a = aUART_DATA 0 then s.uartPush 0 v.toNat
  else if a = aUART_DATA 1 then s.uartPush 1 v.toNat
  else if a = aSPI_DATA then s.spiWrite v.toNat
  else if a = aI2C_CMD then s.i2cWrite v.toNat
  else s.plainWrite a v hw

/-- A write of RADIO_TX_CTRL of chain c. -/
def State.txCtrlWrite (s : State) (c : Nat) (v : Nat) : State :=
  if !s.hasChain c then s
  else ((s.fset (fRADIO_TX_CTRL_tx_pa_mode c) (bitsN v 3 3)).fset (fRADIO_TX_CTRL_auto_wake c) (bitsN v 2 2)).txStateReq c
    (v % 4)

/-- The registers of TX chain c from offset off on. -/
def State.chainWrite (s : State) (c off : Nat) (v hw : Word) : State :=
  match off with
  | 0x00 => s.txCtrlWrite c v.toNat
  | 0x0C => s.txCalWrite c v.toNat
  | 0x3C => s.supTxSubmit c v
  | 0x44 => s.supTxCancel c (v.toNat % 65536)
  | _ =>
    if 0x20 ≤ off && off < 0x3C then s.setReg (aRADIO_TX_CTRL c + off) v
    else s.plainWrite (aRADIO_TX_CTRL c + off) v hw

/-- A write of DUTY_CFG of sub-band n: ignored where it breaks R184. -/
def State.dutyCfgWrite (s : State) (n : Nat) (v hw : Word) : State :=
  if s.sumOver (fDUTY_SHARE_guar_pm n) 16 0 + bitsN v.toNat 9 0 ≤ 1000 then s.plainWrite (aDUTY_CFG n) v hw else s

/-- A write of DUTY_SHARE of tenant t in sub-band n: ignored where it breaks R184. -/
def State.dutyShareWrite (s : State) (n t : Nat) (v hw : Word) : State :=
  let g := bitsN v.toNat 9 0
  let c := bitsN v.toNat 25 16
  if s.sumOver (fDUTY_SHARE_guar_pm n) t g + s.fget (fDUTY_CFG_urg_res_pm n) ≤ 1000 && decide (g ≤ c) && decide (c ≤ 1000)
  then s.plainWrite (aDUTY_SHARE n t) v hw else s

/-- RADIO. -/
def State.radioWrite (s : State) (m : Master) (a : Nat) (v hw : Word) : State :=
  if within a 0x10140000 512 0x100 then
    let n := (a - 0x10140000) / 0x100
    match a % 0x100 with
    | 0x00 => s.rxCfgWrite m n v.toNat
    | 0x04 => s.rxTuneWrite n a v
    | 0x08 => s.rxTuneWrite n a (v &&& 0xFFF#32)
    | _ => s.plainWrite a v hw
  else if a = aRADIO_PATH_CTRL 0 then s.pathCtrlWrite 0 v.toNat
  else if a = aRADIO_PATH_CTRL 1 then s.pathCtrlWrite 1 v.toNat
  else if within a (aRADIO_TUNER_CFG 0) 16 0x10 && a % 0x10 == 0 then
    s.tunerWrite ((a - aRADIO_TUNER_CFG 0) / 0x10) v.toNat
  else if within a (aRADIO_TX_CTRL 0) 2 0x80 then
    s.chainWrite ((a - aRADIO_TX_CTRL 0) / 0x80) ((a - aRADIO_TX_CTRL 0) % 0x80) v hw
  else if within a (aDUTY_CFG 0) 16 0x10 && a % 0x10 == 0 then s.dutyCfgWrite ((a - aDUTY_CFG 0) / 0x10) v hw
  else if within a (aDUTY_SHARE 0 0) 16 0x40 then
    s.dutyShareWrite ((a - aDUTY_SHARE 0 0) / 0x40) ((a - aDUTY_SHARE 0 0) % 0x40 / 4) v hw
  else if a = aRADIO_SPEC_CTRL then s.specWrite v.toNat
  else s.plainWrite a v hw

/-- DECODER. -/
def State.decoderWrite (s : State) (a : Nat) (v hw : Word) : State :=
  if a = aDECODER_RESERVE then s.reserveWrite v.toNat
  else if within a (aDECODER_TQ 0 0) 4 0x40 then
    s.tqWrite ((a - aDECODER_TQ 0 0) / 0x40) ((a - aDECODER_TQ 0 0) % 0x40 / 4) v.toNat
  else s.plainWrite a v hw

/-- A write of ENGCTL_ENG of engine n: stop, then restart where the engine is stopped (R19). -/
def State.engCtlWrite (s : State) (n v : Nat) : State :=
  let s1 := if bitN v 31 then s.stopEng n else s
  if bitN v 30 && s1.engHere n && s1.engStopped n then s1.restartEng n else s1

/-- ENGCTL. -/
def State.engBlockWrite (s : State) (a : Nat) (v hw : Word) : State :=
  if within a (aENGCTL_TPRIO 0) 16 4 then s.tprioWrite ((a - aENGCTL_TPRIO 0) / 4) v.toNat
  else if within a 0x10300000 16 0x100 && decide (0x40 ≤ a % 0x100) && decide (a % 0x100 < 0xC0) then
    let n := (a - 0x10300000) / 0x100 * 8 + (a % 0x100 - 0x40) / 0x10
    match a % 0x10 with
    | 0 => s.engCtlWrite n v.toNat
    | 4 => s.modWin n (fun w => { w with addr := v.toNat % 65536 / 8 * 8, err := (w.err && !bitN v.toNat 31) || bitN hw.toNat 31 })
    | 8 => s.idataLoWrite n v
    | _ => s.idataHiWrite n v
  else s.plainWrite a v hw

/-- A write of the register at an aligned address, by its block (Table 1-9); reserved offsets discard it (R13). -/
def State.regWrite (s : State) (m : Master) (a : Nat) (v hw : Word) : State :=
  if s.regAbsent a then s
  else
    match a / 0x10000 with
    | 0x1000 => s.sysWrite a v hw
    | 0x1001 => s.girthBlockWrite a v hw
    | 0x1002 => s.cinchBlockWrite a v hw
    | 0x1003 => s.rtcBlockWrite a v hw
    | 0x1004 =>
      if a = aMEM_FLIP_w2 then s.memFlipArm v.toNat
      else if a = aMEM_CLEAR then s.memClear v.toNat
      else s.plainWrite a v hw
    | 0x1005 => if a = aXSPI_CMD_w0 then s.xspiGo v.toNat else if within a aXSPI_CMD_w1 3 4 then s.setReg a v
                else s.plainWrite a v hw
    | 0x1006 => s.cipherWrite a v hw
    | 0x1007 => s.tableWrite m a v hw
    | 0x1008 => s.tenantBlockWrite a v hw
    | 0x1009 | 0x100A => s.ethWrite a v hw
    | 0x100B => s.pinBlockWrite a v hw
    | 0x1010 | 0x1013 | 0x1014 | 0x1015 => s.radioWrite m a v hw
    | 0x1020 => s.decoderWrite a v hw
    | 0x1030 => s.engBlockWrite a v hw
    | _ => s.plainWrite a v hw

/-- REGISTER_WRITE: a write of one register by a master; `hw` are the W1C bits that hardware sets in the same cycle
(R12, R48, R280). An address outside the register range or not aligned names no register. -/
def execRegisterWrite (m : Master) (addr v hw : Word) (s : State) : Host.Outcome State Fault Refusal :=
  let a := addr.toNat
  .next (s.iff (decide (0x10000000 ≤ a) && decide (a < 0x20000000) && a % 4 == 0)
    (fun t => t.regGate m a (fun u => u.regWrite m a v hw)))

end Sys2Proof.Machine
end

