-- ==== Sys2Proof/Machine/Jobs.lean ====
section
/-!
DEFINITION. The ends of cipher jobs (R302, R307, R309, R311): output, keys and records written, the notice or the result
of a hardware master, and aborts.
-/

namespace Sys2Proof.Machine

/-- The counter of a status, if it has one (CIPHER_COUNT). -/
def State.countStatus (s : State) (st : Nat) : State :=
  match st with
  | 0x00 => s.finc fCIPHER_COUNT_ok
  | 0x01 => s.finc fCIPHER_COUNT_auth_fail
  | 0x02 => s.finc fCIPHER_COUNT_key_erased
  | 0x03 => s.finc fCIPHER_COUNT_no_key
  | 0x09 => s.finc fCIPHER_COUNT_unwrap_fail
  | _ => s

/-- Every output range stored, or none of them: the ranges are checked first (R311). -/
def State.jobWrites (s : State) (t : Option Nat) (n : Nat) (ws : List (Nat × List Byte)) : State × Bool :=
  match ws.find? (fun w => !s.dmaOk t n w.1 w.2.length true) with
  | some w => (s.dmaRefuse t w.1 true, false)
  | none => (ws.foldl (fun u w => (u.dmaWrite t n w.1 w.2).1) s, true)

/-- The frame of a sealing: its command is submitted with header and ciphertext, a backbone frame from now on; an ACK of an
earlier era is lost, and so is a frame that was not sealed (R173, R198, R202). -/
def State.sealed (s : State) (c : Nat) (head : List Byte) (x : TxCmd) (st : Nat) (result : List Byte) : State :=
  let y := { x with inl := head ++ result }
  match x.who with
  | .relay r =>
    match r.kind with
    | .ack =>
      if st ≠ 0 || r.era ≠ s.cinch.era then s.finc (fRELAY_TCOUNT_ack_lost x.tenant) else (s.txSubmit c y).2
    | _ => if st ≠ 0 then s else (s.txSubmit c { y with startF := s.cinch.frame, startNs := s.nowNs }).2
  | .beacon => if st ≠ 0 then s.finc fCINCH_COUNT_beacon_fail else (s.txSubmit c y).2
  | _ => s

/-- What a hardware master does with the end of its job. -/
def State.unitDone (s : State) (u : UnitJob) (st : Nat) (result : List Byte) : State :=
  match u with
  | .seal c head x => s.sealed c head x st result
  | .request p mac f => if st = 0 then s.mgmtTake p mac f result else s.finc fETH_MGMT_COUNT_auth_fail
  | .reply p mac head => if st = 0 then s.mgmtQueue p mac (head ++ result) else s
  | .answer k head => if st = 0 then s.mgmtAnswer k (head ++ result) else s
  | .keygen | .image => s

/-- The end of a running job with a status: its unit is free, the counter, and the notice or the master's result (R302). -/
def State.endJob (s : State) (r : Running) (st : Nat) (result : List Byte) : State :=
  let s1 : State := (({ s with cipher := { s.cipher with
    running := s.cipher.running.filter (fun x => !(x.unit == r.unit)) } } : State).countStatus st).keygenGrant
  match r.job.who with
  | .core n _ => s1.cipherNotice n st r.job.tag r.job.desc
  | .relay => { s1 with cipher := { s1.cipher with relayDone := s1.cipher.relayDone ++ [(st, result)] } }
  | .unit u => s1.unitDone u st result

/-- The key or the record that a good job leaves (R300, R307): KW_UNWRAP fills its target slot, an NKEY operation writes
its record and drops the cached copy. -/
def State.keyEnd (s : State) (r : Running) : State :=
  let k := r.job.dst % 256
  match r.job.op with
  | 9 => s.setKeySlot k { s.keySlot k with valid := true, key := r.key, used := s.age }
  | 13 | 14 => (s.writeBytes (recAddr r.job.key) r.key).dropCached r.job.key false
  | 15 => (s.writeBytes (recAddr r.job.key) r.key).dropCached r.job.key true
  | _ => s

/-- The management unit cannot take the end of its job now: its memory is being cleared (R355). -/
def State.unitWaits (s : State) (w : JobWho) : Bool :=
  match w with
  | .unit (.request ..) | .unit (.answer ..) => !s.ethFree
  | _ => false

/-- CIPHER_JOB_COMPLETE: the job of a unit ends; output is written only when its status is OK, and an erased key wins
(R307, R309, Table 12-7). It waits while a granule it writes is being cleared (R355). -/
def execCipherJobComplete (u : BitVec 3) (s : State) : Host.Outcome State Fault Refusal :=
  .next (match s.cipher.running.find? (fun r => r.unit == u.toNat && decide (r.job.op < 16)) with
    | none => s
    | some r =>
      if s.unitWaits r.job.who then s
      else if r.erased then s.endJob r 0x02 []
      else if r.status ≠ 0 then s.endJob r r.status []
      else if r.writes.any (fun w => s.dmaWaits r.job.core (w.1, w.2.length)) then s
      else
        match s.jobWrites r.job.tenant r.job.core r.writes with
        | (s1, true) => (s1.keyEnd r).endJob r 0 r.result
        | (s1, false) => s1.endJob r 0x06 [])

/-- JOB_ABORT: at its next block-slot boundary a job whose key was erased ends KEY_ERASED and writes nothing (R309). -/
def execJobAbort (u : BitVec 3) (s : State) : Host.Outcome State Fault Refusal :=
  .next (match s.cipher.running.find? (fun r => r.unit == u.toNat && r.erased) with
    | none => s
    | some r => s.endJob r 0x02 [])

end Sys2Proof.Machine
end

