-- ==== Sys2Proof/Machine/LoadStore.lean ====
section
/-!
DEFINITION. Loads and stores (R44, R45, R227, R233–R235), IN and OUT (R47, R154, R252, R263–R271, R294, R356), and the
completion of an access outside the core (R36, R234). What a load brings is fixed when it issues and a store has its
effect then; the access stays outstanding until it completes (log entry 68).
-/

namespace Sys2Proof.Machine

/-! ## Where an address leads -/

/-- Where a data address of a core leads (Table 1-7): its own memory, a memory, the flash, a register, a region that this
variant lacks, one without power or in retention, or nothing. -/
inductive Place where
  | own (k : Nat)
  | ram (k : Nat)
  | flash (off : Nat)
  | reg (a : Nat)
  | absent
  | off
  | unmapped
  deriving DecidableEq, Repr

/-- The place of data address a of core n (R44, R45). -/
def State.place (s : State) (n a : Nat) : Place :=
  if n < 128 && a < 0x10000 then .own (dKey n a)
  else if n = 128 && a < 0x40000 then .own (supKey a)
  else
    let b := aliasAddr n a
    match spaceOf b with
    | .region r _ => if !s.hasRegion r then .absent else if !s.regionUp r then .off else .ram b
    | .sys sp o => if sp = 2 then .flash o else .ram b
    | .none => if 0x10000000 ≤ b && b < 0x20000000 then .reg b else .unmapped

/-- The target of an access, for the order of R36: a region, system SRAM, persistent store, flash, or a register block. -/
def targetOf (b : Nat) : Nat :=
  match spaceOf b with
  | .region r _ => r
  | .sys sp _ => 4 + sp
  | .none => if 0x10100000 ≤ b then 400 + b / 0x100000 % 0x100 else 300 + b / 0x10000 % 0x100

/-- The master that core n is. -/
def coreMaster (n : Nat) : Master := if n = 128 then .core .sup else .core (.eng (BitVec.ofNat 7 n))

/-- The fence lets core n's tenant at [b, b + len); the supervisor has none (R45, R281). -/
def State.mayReach (s : State) (n b len : Nat) (write : Bool) : Bool := n == 128 || s.fenceOk (s.engTenant n) b len write

/-- A fence refuses core n (R282). -/
def State.refuse (s : State) (n b : Nat) (write : Bool) (target : Nat) : State :=
  s.refuseFence (s.engTenant n) n b write target

/-! ## Words and parts of words -/

/-- The bytes [k, k + size) of a 64-bit word at their aligned key, as a number. -/
def partOf (w : BitVec 64) (k size : Nat) : Nat := w.toNat / 2 ^ (8 * (k % 8)) % 2 ^ (8 * size)

/-- What a load of size bytes writes to rd, sign-extended or not (R228). -/
def loadWord (size : Nat) (sgn : Bool) (v : Nat) : Word :=
  BitVec.ofNat 32 (if sgn then unsignedN 32 (signedN (8 * size) v) else v)

/-- The kind of an access that brings v. -/
def loadOf (slot rd size : Nat) (sgn : Bool) (v : Nat) : OutKind :=
  if size = 8 then .loadPair slot rd (BitVec.ofNat 32 v) (BitVec.ofNat 32 (v / 2 ^ 32))
  else .load slot rd (loadWord size sgn v)

/-- A register or a pair written by a load. -/
def Engine.setLoad (e : Engine) (rd size : Nat) (sgn : Bool) (v : Nat) : Engine :=
  if size = 8 then (e.setX rd (BitVec.ofNat 32 v)).setX (rd + 1) (BitVec.ofNat 32 (v / 2 ^ 32))
  else e.setX rd (loadWord size sgn v)

/-- Earlier loads to the registers that a new load writes deliver nothing there (log entry 14). -/
def Engine.dropLoads (e : Engine) (rd size : Nat) : Engine :=
  let o1 := if rd = 0 then e.outs else e.outs.map (dropLoad e.cur rd)
  { e with outs := if size = 8 then o1.map (dropLoad e.cur (rd + 1)) else o1 }

/-! ## Loads -/

/-- A load from the core's own memory: it waits until a narrow store frees the port (R235, R251, Table 9-13 code 7). -/
def State.loadOwn (s : State) (n k rd size : Nat) (sgn : Bool) : State :=
  let k0 := k / 8 * 8
  match s.word64 k0 with
  | (_, .bad) => (s.noteBad k0 (memAddr k0) (coreTag n) false).engFault n 7 (BitVec.ofNat 32 (memAddr k0))
  | (w, st) =>
    let s1 := if st = .corrected then s.noteCorrected k0 else s
    s1.modEng n (fun e => ((e.tick e.dport).setLoad rd size sgn (partOf w k size)).adv)

/-- What a read of size bytes of registers at address a gives: a word, part of one, or two words in address order
(R10, R385, R394); a register that is not open is refused (R48, R280). -/
def State.readRegs (s : State) (n a size : Nat) : Nat × State :=
  let m := coreMaster n
  if !s.regAllowed m a false then (0, s.refuse n a false 5)
  else
    let r := s.regRead m (a / 4 * 4)
    if size = 8 then
      let q := r.2.regRead m (a + 4)
      (r.1.toNat + q.1.toNat * 2 ^ 32, q.2)
    else (r.1.toNat / 2 ^ (8 * (a % 4)) % 2 ^ (8 * size), r.2)

/-- What a read of size bytes of a memory gives core n: zeros where the fence refuses it or the word is uncorrectable
(R282, R351). -/
def State.readRam (s : State) (n b size : Nat) : Nat × State :=
  if !s.mayReach n b size false then (0, s.refuse n b false (fenceTarget b))
  else if s.unlaid b size then
    let f := s.free 64
    (f.1.toNat % 2 ^ (8 * size), f.2)
  else
    let r := s.readWord (b / 8 * 8) b (coreTag n)
    (partOf r.1 b size, r.2.2)

/-- What an access of core n at b outside its own memory brings to slot `slot`, and the state; none while it must wait
for a granule that is being cleared (R355). -/
def State.loadFar (s : State) (n b : Nat) (place : Place) (slot rd size : Nat) (sgn : Bool) : Option (OutKind × State) :=
  let load (r : Nat × State) : OutKind × State := (loadOf slot rd size sgn r.1, r.2)
  match place with
  | .ram k => if s.isClearing k then none else some (load (s.readRam n k size))
  | .flash off =>
    if !s.mayReach n b size false then some (load (0, s.refuse n b false 4))
    else
      match s.windowRead off size with
      | (some bs, s1) => some (load (leNat bs, s1))
      | (none, s1) => some (.window slot rd off size sgn, s1)
  | .reg a => some (load (s.readRegs n a size))
  | .off => some (load (0, if n = 128 then s else s.postRefused (s.engTenant n) 2 false n b))
  | _ => some (load (0, s))

/-- The Latigo link that an access of core n at b crosses, if any: what is absent or has no power answers before it. -/
def accessLink (n b : Nat) (place : Place) : Option (Nat × Bool) :=
  match place with
  | .absent | .off => none
  | _ => linkOf n b

/-- An access of core n joins its outstanding ones and the core goes on (R234). -/
def State.outAdd (s : State) (n b : Nat) (txn : Option (Nat × Nat)) (kind : OutKind) : State :=
  s.modEng n (fun e => { e.adv with outs := e.outs ++ [{ target := targetOf b, txn := txn, kind := kind }] })

/-- A load outside the core's own memory: none while a ninth outstanding access stalls (R234), a link holds it (R40) or its
granule is being cleared (R355). -/
def State.loadRemote (s : State) (n a : Nat) (place : Place) (rd size : Nat) (sgn : Bool) : Option State :=
  let e := s.eng n
  let b := aliasAddr n a
  let link := accessLink n b place
  if 8 ≤ e.outs.length || !s.linkGrants n link then none
  else
    (s.loadFar n b place e.cur rd size sgn).map (fun r =>
      let t := r.2.linkEnter n link
      (t.2.modEng n (fun f => f.dropLoads rd size)).outAdd n b t.1 r.1)

/-- An access of core n at data address a waits for the link it crosses, where that is what holds it (R273). -/
def State.accessHeld (s : State) (n a : Nat) : State :=
  if 8 ≤ (s.eng n).outs.length then s else s.linkHold n (accessLink n (aliasAddr n a) (s.place n a))

/-- A load of size bytes from data address a by core n: ALIGN, then ACCESS, then the access (R233, R253). -/
def State.loadAt (s : State) (n a rd size : Nat) (sgn : Bool) : Option State :=
  if a % size ≠ 0 then some (s.engFault n 5 (BitVec.ofNat 32 a))
  else
    match s.place n a with
    | .unmapped => some (s.engFault n 3 (BitVec.ofNat 32 a))
    | .own k => some (s.loadOwn n k rd size sgn)
    | p => s.loadRemote n a p rd size sgn

/-- A load instruction; a pair at an odd register is ILLEGAL (R228). -/
def loadOp (c : CoreId) (p : Pred) (rd rs1 : BitVec 5) (imm : BitVec 12) (size : Nat) (sgn : Bool) (s : State) : State :=
  issue c p (size == 8 && rd.toNat % 2 == 1) [rs1]
    (fun e t => t.loadAt (coreNum c) (effAddr (e.x rs1.toNat) imm).toNat rd.toNat size sgn) s 0
    (fun t => t.accessHeld (coreNum c) (effAddr ((t.eng (coreNum c)).x rs1.toNat) imm).toNat)

/-- LB (Table 9-3). -/
def execLb (c : CoreId) (p : Pred) (rd rs1 : BitVec 5) (imm : BitVec 12) (s : State) :
    Host.Outcome State Fault Refusal :=
  .next (loadOp c p rd rs1 imm 1 true s)

/-- LBU (Table 9-3). -/
def execLbu (c : CoreId) (p : Pred) (rd rs1 : BitVec 5) (imm : BitVec 12) (s : State) :
    Host.Outcome State Fault Refusal :=
  .next (loadOp c p rd rs1 imm 1 false s)

/-- LH (Table 9-3). -/
def execLh (c : CoreId) (p : Pred) (rd rs1 : BitVec 5) (imm : BitVec 12) (s : State) :
    Host.Outcome State Fault Refusal :=
  .next (loadOp c p rd rs1 imm 2 true s)

/-- LHU (Table 9-3). -/
def execLhu (c : CoreId) (p : Pred) (rd rs1 : BitVec 5) (imm : BitVec 12) (s : State) :
    Host.Outcome State Fault Refusal :=
  .next (loadOp c p rd rs1 imm 2 false s)

/-- LW (Table 9-3). -/
def execLw (c : CoreId) (p : Pred) (rd rs1 : BitVec 5) (imm : BitVec 12) (s : State) :
    Host.Outcome State Fault Refusal :=
  .next (loadOp c p rd rs1 imm 4 false s)

/-- LDP (Table 9-3). -/
def execLdp (c : CoreId) (p : Pred) (rd rs1 : BitVec 5) (imm : BitVec 12) (s : State) :
    Host.Outcome State Fault Refusal :=
  .next (loadOp c p rd rs1 imm 8 false s)

/-! ## Stores -/

/-- The 72 bits of a flip mask. -/
def FlipMask.bits (f : FlipMask) : BitVec 72 := f.check ++ (f.hi ++ f.lo)

/-- The mask that the next write of core n to the memory that holds k inverts its word with, and the state with the mask
clear (R356). -/
def State.takeFlip (s : State) (n k : Nat) : BitVec 72 × State :=
  if n < 128 && k / 0x100000000 = 2 && (s.eng n).flip.armed then
    ((s.eng n).flip.bits, s.modEng n (fun e => { e with flip := {} }))
  else if n = 128 && s.fon fMEM_FLIP_armed && s.fget fMEM_FLIP_mem == memCode k then
    (BitVec.ofNat 8 (s.fget fMEM_FLIP_check) ++ (s.reg aMEM_FLIP_w1 ++ s.reg aMEM_FLIP_w0),
      (((s.fset fMEM_FLIP_armed 0).fset fMEM_FLIP_check 0).setReg aMEM_FLIP_w0 0#32).setReg aMEM_FLIP_w1 0#32)
  else (0#72, s)

/-- A store of size bytes at key k by core n: a whole word, or a read-modify-write that an uncorrectable word aborts with
a report (R352, R353). The flag says whether it was stored. -/
def State.storeKey (s : State) (n k addr size v : Nat) : State × Bool :=
  let f := s.takeFlip n k
  if size = 8 then (f.2.setWord64 k v f.1, true)
  else
    let r := f.2.writePart k size v addr (coreTag n) f.1
    if r.2 then r else s.writePart k size v addr (coreTag n) 0#72

/-- A store to the core's own memory: a narrow one keeps the port for the next 2 cycles (R235). -/
def State.storeOwn (s : State) (n k size v : Nat) : State :=
  let r := s.storeKey n k (memAddr k) size v
  if r.2 then r.1.modEng n (fun e => { (e.tick e.dport).adv with dport := if size = 8 then 0 else 3 })
  else r.1.engFault n 7 (BitVec.ofNat 32 (memAddr (k / 8 * 8)))

/-- A write of registers by core n: other byte lanes of a narrow write are 0, eight bytes are two words in address order
(R10, log entry 9). -/
def State.writeRegs (s : State) (n a size v : Nat) : State :=
  let m := coreMaster n
  if !s.regAllowed m a true then s.refuse n a true 5
  else
    let s1 := s.regWrite m (a / 4 * 4) (BitVec.ofNat 32 (v * 2 ^ (8 * (a % 4)))) 0#32
    if size = 8 then s1.regWrite m (a + 4) (BitVec.ofNat 32 (v / 2 ^ 32)) 0#32 else s1

/-- A write of a memory by core n (R208, R282, R352, R353). Where the layout is not stated (log entry 36) only the check bits
can change, by an armed flip (R356). -/
def State.writeRam (s : State) (n b size v : Nat) : State :=
  if !s.mayReach n b size true then s.refuse n b true (fenceTarget b)
  else if s.unlaid b size then (s.takeFlip n b).2.setFlip (b / 8 * 8) (s.takeFlip n b).1
  else if nodeOwned b size then s
  else (s.storeKey n b b size v).1

/-- A store outside the core's own memory: it is posted (R234); none while it must wait, as a load. -/
def State.storeRemote (s : State) (n a : Nat) (place : Place) (size v : Nat) : Option State :=
  let b := aliasAddr n a
  let waits := match place with
    | .ram k => s.isClearing k
    | _ => false
  let link := accessLink n b place
  if 8 ≤ (s.eng n).outs.length || !s.linkGrants n link || waits then none
  else
    let t := s.linkEnter n link
    let s1 := t.2.outAdd n b t.1 .posted
    some (match place with
    | .ram k => s1.writeRam n k size v
    | .reg r => s1.writeRegs n r size v
    | .off => if n = 128 then s1 else s1.postRefused (s1.engTenant n) 2 true n b
    | _ => s1)

/-- A store of size bytes to data address a by core n: ALIGN, then ACCESS, then the access (R45, R233, R253). -/
def State.storeAt (s : State) (n a size v : Nat) : Option State :=
  if a % size ≠ 0 then some (s.engFault n 5 (BitVec.ofNat 32 a))
  else
    match s.place n a with
    | .unmapped => some (s.engFault n 3 (BitVec.ofNat 32 a))
    | .flash _ => some (s.engFault n 3 (BitVec.ofNat 32 a))
    | .own k => some (s.storeOwn n k size v)
    | p => s.storeRemote n a p size v

/-- A store instruction of up to 4 bytes. -/
def storeOp (c : CoreId) (p : Pred) (rs2 rs1 : BitVec 5) (imm : BitVec 12) (size : Nat) (s : State) : State :=
  issue c p false [rs1, rs2]
    (fun e t => t.storeAt (coreNum c) (effAddr (e.x rs1.toNat) imm).toNat size ((e.x rs2.toNat).toNat % 2 ^ (8 * size))) s 0
    (fun t => t.accessHeld (coreNum c) (effAddr ((t.eng (coreNum c)).x rs1.toNat) imm).toNat)

/-- SB (Table 9-3). -/
def execSb (c : CoreId) (p : Pred) (rs2 rs1 : BitVec 5) (imm : BitVec 12) (s : State) :
    Host.Outcome State Fault Refusal :=
  .next (storeOp c p rs2 rs1 imm 1 s)

/-- SH (Table 9-3). -/
def execSh (c : CoreId) (p : Pred) (rs2 rs1 : BitVec 5) (imm : BitVec 12) (s : State) :
    Host.Outcome State Fault Refusal :=
  .next (storeOp c p rs2 rs1 imm 2 s)

/-- SW (Table 9-3). -/
def execSw (c : CoreId) (p : Pred) (rs2 rs1 : BitVec 5) (imm : BitVec 12) (s : State) :
    Host.Outcome State Fault Refusal :=
  .next (storeOp c p rs2 rs1 imm 4 s)

/-- SDP: the pair rs2, rs2 + 1, the even register at the lower address; an odd rs2 is ILLEGAL (R228). -/
def execSdp (c : CoreId) (p : Pred) (rs2 rs1 : BitVec 5) (imm : BitVec 12) (s : State) :
    Host.Outcome State Fault Refusal :=
  .next (issue c p (rs2.toNat % 2 == 1) [rs1, rs2, rs2 + 1#5]
    (fun e t => t.storeAt (coreNum c) (effAddr (e.x rs1.toNat) imm).toNat 8
      ((e.x rs2.toNat).toNat + (e.x (rs2.toNat + 1)).toNat * 2 ^ 32)) s 0
    (fun t => t.accessHeld (coreNum c) (effAddr ((t.eng (coreNum c)).x rs1.toNat) imm).toNat))

/-! ## Completion of an access -/

/-- What an access delivers to its registers. -/
def Engine.deliver (e : Engine) (k : OutKind) : Engine :=
  match k with
  | .load slot rd v => e.setXOf slot rd v
  | .io slot rd v => e.setXOf slot rd v
  | .loadPair slot rd lo hi => (e.setXOf slot rd lo).setXOf slot (rd + 1) hi
  | _ => e

/-- An access may complete: its transaction has ended, the line it waits for has come, and it is no MSG. -/
def OutAcc.ready (o : OutAcc) : Bool :=
  o.txn.isNone && (match o.kind with
    | .window .. => false
    | .msg _ => false
    | _ => true)

/-- REMOTE_ACCESS_COMPLETE: the access at place i of a core's outstanding ones, oldest first, completes; those of one
target complete in the order they were issued (R36, R234). -/
def execRemoteAccessComplete (c : CoreId) (i : BitVec 3) (s : State) : Host.Outcome State Fault Refusal :=
  let outs := (s.eng (coreNum c)).outs
  .next (match outs[i.toNat]? with
    | none => s
    | some o =>
      if o.ready && !(outs.take i.toNat).any (fun q => q.target == o.target) then
        s.modEng (coreNum c) (fun e => { e.deliver o.kind with outs := outs.eraseIdx i.toNat })
      else s)

/-! ## IN and OUT -/

/-- TASK_CFG of a slot as it reads. -/
def Slot.cfgWord (sl : Slot) : Word := BitVec.ofNat 32 (b2n sl.en * 2 ^ 31 + sl.prio % 8 * 2 ^ 16 + sl.entry % 65536)

/-- The state of a slot in TASK_STAT. -/
def slotCode (x : SlotSt) : Nat :=
  match x with
  | .idle => 0
  | .waiting => 1
  | .ready => 2
  | .running => 3

/-- TASK_STAT of a slot as it reads. -/
def Slot.statWord (sl : Slot) : Word :=
  BitVec.ofNat 32 (b2n sl.readyLost * 2 ^ 7 + b2n sl.cancelDue * 2 ^ 6 + b2n sl.pend * 2 ^ 5 + slotCode sl.st)

/-- NQ_STATUS as it reads: depth in [4:0], on the supervisor in [6:0]. -/
def Inbound.statWord (q : Inbound) : Word :=
  BitVec.ofNat 32 (q.lost % 65536 * 2 ^ 16 + q.lastLost % 16 * 2 ^ 12 + q.queue.length % 128)

/-- Engine core ports 0x000–0x0FF of core n as they read: the answer and the state. -/
def State.coreIn (s : State) (n port : Nat) : Word × State :=
  let e := s.eng n
  let r : FaultRec := tabGet {} s.faults n
  if port < 0x10 then ((e.slot port).cfgWord, s)
  else if 0x30 ≤ port && port < 0x40 then ((e.slot (port - 0x30)).statWord, s)
  else
    match port with
    | 0x10 => (e.nq.pop.1, s.modEng n (fun f => { f with nq := f.nq.pop.2 }))
    | 0x11 => (e.nq.view.w1, s)
    | 0x12 => (e.nq.view.w2, s)
    | 0x13 => (e.nq.view.w3, s)
    | 0x14 => (e.nq.statWord, s.modEng n (fun f => { f with nq := { f.nq with lost := 0 } }))
    | 0x18 => (e.nq.route0, s)
    | 0x19 => (e.nq.route1, s)
    | 0xE0 => (e.flip.lo, s)
    | 0xE1 => (e.flip.hi, s)
    | 0xE2 => (BitVec.ofNat 32 (b2n e.flip.armed * 2 ^ 31 + e.flip.check.toNat), s)
    | 0xF0 => (BitVec.ofNat 32 (r.count * 2 ^ 16 + r.cause), s)
    | 0xF1 => (BitVec.ofNat 32 (r.pc % 65536), s)
    | 0xF2 => (r.addr, s)
    | _ => (0#32, s)

/-- A coprocessor port: operands A and B; `posted`: the answer is discarded (R243). Coprocessor 1 is absent on the
supervisor (R255): its ports read 0. -/
def State.copPort (s : State) (n port : Nat) (a : Word) (posted : Bool) : Word × State :=
  let f := (port - 0x200) % 0x40
  match (port - 0x200) / 0x40 with
  | 0 =>
    match f with
    | 0 => copSubmit n posted (s.eng n) a s
    | 1 => s.trngTake
    | 2 => (s.qstat n, s)
    | _ => (0#32, s)
  | 1 => if n = 128 then (0#32, s) else cop1 n f a s
  | 2 => cop2S n f a 0#32 s
  | 3 => cop3 n f a 0#32 s
  | _ => (0#32, s)

/-- The tenant of engine n owns receiver i. -/
def State.ownsRx (s : State) (n i : Nat) : Bool := s.fget (fRADIO_RX_CFG_tenant i) == s.engTenant n

/-- A read of a result port of engine n (R47, R124). -/
def State.resultIn (s : State) (n port : Nat) : Word × State :=
  let i := (port - 0x400) / 2
  if Config.receivers s.variant ≤ i then (0#32, s)
  else if !s.ownsRx n i then (0#32, s.refuse n port false 5)
  else if !(s.rx i).heard then (0#32, s)
  else (s.reg (aRADIO_RX_SYNC i (if port % 2 = 0 then 0 else 2)), s)

/-- Region service ports of engine n as they read (Tables 3-9, 5-12, 11-7). -/
def State.serviceIn (s : State) (n port : Nat) : Word × State :=
  let r := regionOf n
  let t := s.engTenant n
  if 0x840 ≤ port && port < 0x880 then
    let e := port - 0x840
    (if s.fget (fTENANT_RFENCE_tenant r e) = t then s.reg (aTENANT_RFENCE r e) else 0#32, s)
  else
    match port with
    | 0x800 => (s.reg (aDECODER_RING_RD r t), s)
    | 0x801 => (s.reg (aDECODER_RING_WR r t), s)
    | 0x802 => (s.tqStatus r t, s)
    | 0x803 => (BitVec.ofNat 32 (s.fget (fviolField t r)), s)
    | 0x813 => (BitVec.ofNat 32 (s.txOpen n 0 % 128 + s.txOpen n 1 % 128 * 2 ^ 8), s)
    | _ => (0#32, s)

/-- A read of a port by core n. -/
def State.portIn (s : State) (n port : Nat) : Word × State :=
  if port < 0x100 then s.coreIn n port
  else if port < 0x200 then
    (if port = 0x101 && n < 128 then BitVec.ofNat 32 (s.haltLeft (clusterOf n) % 2 ^ 20) else 0#32, s)
  else if port < 0x400 then s.copPort n port 0#32 false
  else if port < 0x800 then s.resultIn n port
  else if port < 0x1000 then s.serviceIn n port
  else if port = 0x1001 then (BitVec.ofNat 32 s.pkg.supPeriodMs, s)
  else (0#32, s)

/-- A write of the flip mask of engine n's own memory (R356). -/
def State.flipWrite (s : State) (n : Nat) (f : FlipMask → FlipMask) : State :=
  s.modEng n (fun e => { e with flip := f e.flip })

/-- A change of the inbound record of core n. -/
def State.modNq (s : State) (n : Nat) (f : Inbound → Inbound) : State := s.modEng n (fun e => { e with nq := f e.nq })

/-- A write of an engine core port. -/
def State.coreOut (s : State) (n port : Nat) (v : Word) : State :=
  if port < 0x10 then s.taskCfgWrite n port v.toNat
  else if 0x30 ≤ port && port < 0x40 then
    s.modEng n (fun e => e.modSlot (port - 0x30) (fun sl => { sl with readyLost := sl.readyLost && !bitN v.toNat 7 }))
  else
    match port with
    | 0x18 => s.modNq n (fun q => { q with route0 := v })
    | 0x19 => s.modNq n (fun q => { q with route1 := v })
    | 0x20 => s.taskCtrlWrite n v.toNat
    | 0x40 => s.msgPost n v.toNat
    | 0x41 => s.modNq n (fun q => { q with send1 := v })
    | 0x42 => s.modNq n (fun q => { q with send2 := v })
    | 0x43 => s.modNq n (fun q => { q with send3 := v })
    | 0xE0 => s.flipWrite n (fun f => { f with lo := v })
    | 0xE1 => s.flipWrite n (fun f => { f with hi := v })
    | 0xE2 => s.engFlipArm n v
    | _ => s

/-- A write of a port by core n. -/
def State.portOut (s : State) (n port : Nat) (v : Word) : State :=
  if port < 0x100 then s.coreOut n port v
  else if port < 0x200 then
    if n = 128 then s
    else if port = 0x100 then s.haltSvc (clusterOf n) v.toNat
    else if port = 0x102 then s.engRestartWrite n v.toNat
    else s
  else if port < 0x400 then (s.copPort n port v true).2
  else if port < 0x800 then
    let i := (port - 0x400) / 2
    if decide (i < Config.receivers s.variant) && !s.ownsRx n i then s.refuse n port true 5 else s
  else if port < 0x1000 then
    match port with
    | 0x800 => (s.ringRdWrite (regionOf n) (s.engTenant n) v.toNat).2
    | 0x810 => s.txPort n 0 v.toNat
    | 0x811 => s.txPort n 1 v.toNat
    | 0x812 => s.txCancelPort n v.toNat
    | _ => s
  else
    match port with
    | 0x1000 => s.supHaltSvc v.toNat
    | 0x1001 =>
      let ms := bitsN v.toNat 9 0
      if 1 ≤ ms && ms ≤ 1000 then { s with pkg := { s.pkg with supPeriodMs := ms } } else s
    | _ => s

/-- A port that core n cannot name raises IO (R47, R243, R255). -/
def portFault (n port : Nat) : Bool :=
  (decide (0x300 ≤ port) && decide (port < 0x380))
    || (if n = 128 then decide (0x2000 ≤ port) || (decide (0x400 ≤ port) && decide (port < 0x1000)) else decide (0x1000 ≤ port))

/-- The port of an IN or OUT (R228). -/
def portOf (a : Word) (imm : BitVec 12) : Nat := (effAddr a imm).toNat % 65536

/-- The link by which core n reaches a port: the coprocessors of compute die 0, and on the radio die the result ports and the
cancel port (Tables 1-5, 9-8); a MSG to a core of the other compute die. -/
def portLink (n port v : Nat) : Option (Nat × Bool) :=
  if port = 0x40 then dieLink n (64 ≤ msgTarget v && msgTarget v ≠ 128)
  else if 0x200 ≤ port && port < 0x300 then copLink n ((port - 0x200) / 0x40)
  else if (0x400 ≤ port && port < 0x800) || port = 0x812 then some (radioLink n)
  else none

/-- An IN or OUT of core n at a port waits for the link that it crosses, where that is what holds it (R273). -/
def State.portHeld (s : State) (n port : Nat) (l : Option (Nat × Bool)) : State :=
  if portFault n port || decide (8 ≤ (s.eng n).outs.length) then s else s.linkHold n l

/-- The link of an IN: a read of NQ_SEND0 crosses none. -/
def inLink (n port : Nat) : Option (Nat × Bool) := if port = 0x40 then none else portLink n port 0

/-- The target of a port access, for the order of R36. -/
def portTarget (port : Nat) : Nat :=
  if 0x200 ≤ port && port < 0x400 then 200 + (port - 0x200) / 0x40 else 1000 + port / 0x400

/-- Cycles that an IN or OUT takes at least beyond its own: those outside the cluster cross twice (R34, R35). -/
def portCycles (port : Nat) : Nat := if port < 0x200 then 0 else 3

/-- IN: rd gets what the port reads; a ninth outstanding access stalls (R234). One that crosses a Latigo link completes with
its transaction, before the next instruction issues (R40, R234). -/
def execInPort (c : CoreId) (p : Pred) (rd rs1 : BitVec 5) (imm : BitVec 12) (s : State) :
    Host.Outcome State Fault Refusal :=
  let n := coreNum c
  .next (issue c p false [rs1] (fun e t =>
    let port := portOf (e.x rs1.toNat) imm
    let link := inLink n port
    if portFault n port then some (t.engFault n 4 (BitVec.ofNat 32 port))
    else if 8 ≤ e.outs.length || !t.linkGrants n link then none
    else
      let q := t.linkEnter n link
      let r := q.2.portIn n port
      some (r.2.modEng n (fun f =>
        if q.1.isNone then ((f.setX rd.toNat r.1).adv).tick (portCycles port)
        else { (f.dropLoads rd.toNat 4).adv with
          outs := (f.dropLoads rd.toNat 4).outs ++ [{ target := portTarget port, txn := q.1, kind := .io f.cur rd.toNat r.1 }] })))
    s 0 (fun t =>
      let port := portOf ((t.eng n).x rs1.toNat) imm
      t.portHeld n port (inLink n port)))

/-- OUT: the port gets rs2; a ninth outstanding access stalls (R234). One that crosses a Latigo link completes with its
transaction, before the next instruction issues (R40, R234); a MSG stays outstanding by itself (R267). -/
def execOutPort (c : CoreId) (p : Pred) (rs2 rs1 : BitVec 5) (imm : BitVec 12) (s : State) :
    Host.Outcome State Fault Refusal :=
  let n := coreNum c
  .next (issue c p false [rs1, rs2] (fun e t =>
    let port := portOf (e.x rs1.toNat) imm
    let v := e.x rs2.toNat
    let link := portLink n port v.toNat
    if portFault n port then some (t.engFault n 4 (BitVec.ofNat 32 port))
    else if 8 ≤ e.outs.length || !t.linkGrants n link then none
    else if port = 0x40 then some (((t.linkLeave n).modEng n Engine.adv).portOut n port v)
    else
      let q := t.linkEnter n link
      let put (f : Engine) : Engine :=
        if q.1.isNone then f.adv.tick (portCycles port)
        else { f.adv with outs := f.outs ++ [{ target := portTarget port, txn := q.1, kind := .io f.cur 0 0#32 }] }
      some ((q.2.modEng n put).portOut n port v))
    s 0 (fun t =>
      let port := portOf ((t.eng n).x rs1.toNat) imm
      t.portHeld n port (portLink n port ((t.eng n).x rs2.toNat).toNat)))

end Sys2Proof.Machine
end

