-- ==== Sys2Proof/Machine/Dispatch.lean ====
section
/-!
DEFINITION. The effect of each command: one arm per constructor of `Instr`, each a call of its meaning.
-/

namespace Sys2Proof.Machine

def exec (i : Instr) (s : State) : Host.Outcome State Fault Refusal :=
  match i with
  | .registerWrite m addr v hw => Sys2Proof.Machine.execRegisterWrite m addr v hw s
  | .suppliesInRange bootSel io => Sys2Proof.Machine.execSuppliesInRange bootSel io s
  | .railFall => Sys2Proof.Machine.execRailFall s
  | .brownout => Sys2Proof.Machine.execBrownout s
  | .resetNAssert => Sys2Proof.Machine.execResetNAssert s
  | .resetNRelease bootSel => Sys2Proof.Machine.execResetNRelease bootSel s
  | .jtagReset => Sys2Proof.Machine.execJtagReset s
  | .softReset m v => Sys2Proof.Machine.execSoftReset m v s
  | .sensorUpdate c0 c1 r => Sys2Proof.Machine.execSensorUpdate c0 c1 r s
  | .referenceStable => Sys2Proof.Machine.execReferenceStable s
  | .sramFillDone => Sys2Proof.Machine.execSramFillDone s
  | .latigoTrainDone l => Sys2Proof.Machine.execLatigoTrainDone l s
  | .flashDiscovery ok dev0 dev1 => Sys2Proof.Machine.execFlashDiscovery ok dev0 dev1 s
  | .headerCheck => Sys2Proof.Machine.execHeaderCheck s
  | .sectionLoad readErr => Sys2Proof.Machine.execSectionLoad readErr s
  | .signatureCheck => Sys2Proof.Machine.execSignatureCheck s
  | .settingsCheck => Sys2Proof.Machine.execSettingsCheck s
  | .handover cfg bootTag msgId => Sys2Proof.Machine.execHandover cfg bootTag msgId s
  | .supHalterExpiry => Sys2Proof.Machine.execSupHalterExpiry s
  | .supHaltSvc v => Sys2Proof.Machine.execSupHaltSvc v s
  | .trialStart m pref => Sys2Proof.Machine.execTrialStart m pref s
  | .prefBankWrite m pref => Sys2Proof.Machine.execPrefBankWrite m pref s
  | .confirm m pref => Sys2Proof.Machine.execConfirm m pref s
  | .logWriteStep => Sys2Proof.Machine.execLogWriteStep s
  | .logAdd v => Sys2Proof.Machine.execLogAdd v s
  | .latigoCrcError l resend => Sys2Proof.Machine.execLatigoCrcError l resend s
  | .latigoRetrainEnd l => Sys2Proof.Machine.execLatigoRetrainEnd l s
  | .latigoTimeoutExpiry l k => Sys2Proof.Machine.execLatigoTimeoutExpiry l k s
  | .latigoTransactionDone l k => Sys2Proof.Machine.execLatigoTransactionDone l k s
  | .addi c p rd rs1 imm => Sys2Proof.Machine.execAddi c p rd rs1 imm s
  | .andi c p rd rs1 imm => Sys2Proof.Machine.execAndi c p rd rs1 imm s
  | .ori c p rd rs1 imm => Sys2Proof.Machine.execOri c p rd rs1 imm s
  | .xori c p rd rs1 imm => Sys2Proof.Machine.execXori c p rd rs1 imm s
  | .slti c p rd rs1 imm => Sys2Proof.Machine.execSlti c p rd rs1 imm s
  | .sltiu c p rd rs1 imm => Sys2Proof.Machine.execSltiu c p rd rs1 imm s
  | .slli c p rd rs1 sh => Sys2Proof.Machine.execSlli c p rd rs1 sh s
  | .srli c p rd rs1 sh => Sys2Proof.Machine.execSrli c p rd rs1 sh s
  | .srai c p rd rs1 sh => Sys2Proof.Machine.execSrai c p rd rs1 sh s
  | .rori c p rd rs1 sh => Sys2Proof.Machine.execRori c p rd rs1 sh s
  | .add c p rd rs1 rs2 => Sys2Proof.Machine.execAdd c p rd rs1 rs2 s
  | .sub c p rd rs1 rs2 => Sys2Proof.Machine.execSub c p rd rs1 rs2 s
  | .and c p rd rs1 rs2 => Sys2Proof.Machine.execAnd c p rd rs1 rs2 s
  | .or c p rd rs1 rs2 => Sys2Proof.Machine.execOr c p rd rs1 rs2 s
  | .xor c p rd rs1 rs2 => Sys2Proof.Machine.execXor c p rd rs1 rs2 s
  | .sll c p rd rs1 rs2 => Sys2Proof.Machine.execSll c p rd rs1 rs2 s
  | .srl c p rd rs1 rs2 => Sys2Proof.Machine.execSrl c p rd rs1 rs2 s
  | .sra c p rd rs1 rs2 => Sys2Proof.Machine.execSra c p rd rs1 rs2 s
  | .ror c p rd rs1 rs2 => Sys2Proof.Machine.execRor c p rd rs1 rs2 s
  | .slt c p rd rs1 rs2 => Sys2Proof.Machine.execSlt c p rd rs1 rs2 s
  | .sltu c p rd rs1 rs2 => Sys2Proof.Machine.execSltu c p rd rs1 rs2 s
  | .min c p rd rs1 rs2 => Sys2Proof.Machine.execMin c p rd rs1 rs2 s
  | .max c p rd rs1 rs2 => Sys2Proof.Machine.execMax c p rd rs1 rs2 s
  | .minu c p rd rs1 rs2 => Sys2Proof.Machine.execMinu c p rd rs1 rs2 s
  | .maxu c p rd rs1 rs2 => Sys2Proof.Machine.execMaxu c p rd rs1 rs2 s
  | .andn c p rd rs1 rs2 => Sys2Proof.Machine.execAndn c p rd rs1 rs2 s
  | .clz c p rd rs1 => Sys2Proof.Machine.execClz c p rd rs1 s
  | .popc c p rd rs1 => Sys2Proof.Machine.execPopc c p rd rs1 s
  | .rev8 c p rd rs1 => Sys2Proof.Machine.execRev8 c p rd rs1 s
  | .sextb c p rd rs1 => Sys2Proof.Machine.execSextb c p rd rs1 s
  | .sexth c p rd rs1 => Sys2Proof.Machine.execSexth c p rd rs1 s
  | .zexth c p rd rs1 => Sys2Proof.Machine.execZexth c p rd rs1 s
  | .movl c p rd imm => Sys2Proof.Machine.execMovl c p rd imm s
  | .movh c p rd imm => Sys2Proof.Machine.execMovh c p rd imm s
  | .cmp c p pd comb rs1 rs2 cond => Sys2Proof.Machine.execCmp c p pd comb rs1 rs2 cond s
  | .cmpi c p pd comb rs1 cond imm => Sys2Proof.Machine.execCmpi c p pd comb rs1 cond imm s
  | .plog c p pd pa ainv pb binv op => Sys2Proof.Machine.execPlog c p pd pa ainv pb binv op s
  | .mul c p rs1 rs2 => Sys2Proof.Machine.execMul c p rs1 rs2 s
  | .mulu c p rs1 rs2 => Sys2Proof.Machine.execMulu c p rs1 rs2 s
  | .mac c p rs1 rs2 => Sys2Proof.Machine.execMac c p rs1 rs2 s
  | .multiplierUpdate c => Sys2Proof.Machine.execMultiplierUpdate c s
  | .mfs c p rd sr => Sys2Proof.Machine.execMfs c p rd sr s
  | .mts c p sr rs1 => Sys2Proof.Machine.execMts c p sr rs1 s
  | .lb c p rd rs1 imm => Sys2Proof.Machine.execLb c p rd rs1 imm s
  | .lbu c p rd rs1 imm => Sys2Proof.Machine.execLbu c p rd rs1 imm s
  | .lh c p rd rs1 imm => Sys2Proof.Machine.execLh c p rd rs1 imm s
  | .lhu c p rd rs1 imm => Sys2Proof.Machine.execLhu c p rd rs1 imm s
  | .lw c p rd rs1 imm => Sys2Proof.Machine.execLw c p rd rs1 imm s
  | .ldp c p rd rs1 imm => Sys2Proof.Machine.execLdp c p rd rs1 imm s
  | .sb c p rs2 rs1 imm => Sys2Proof.Machine.execSb c p rs2 rs1 imm s
  | .sh c p rs2 rs1 imm => Sys2Proof.Machine.execSh c p rs2 rs1 imm s
  | .sw c p rs2 rs1 imm => Sys2Proof.Machine.execSw c p rs2 rs1 imm s
  | .sdp c p rs2 rs1 imm => Sys2Proof.Machine.execSdp c p rs2 rs1 imm s
  | .inPort c p rd rs1 imm => Sys2Proof.Machine.execInPort c p rd rs1 imm s
  | .outPort c p rs2 rs1 imm => Sys2Proof.Machine.execOutPort c p rs2 rs1 imm s
  | .b c p off => Sys2Proof.Machine.execB c p off s
  | .call c p off => Sys2Proof.Machine.execCall c p off s
  | .jalr c p rd rs1 imm => Sys2Proof.Machine.execJalr c p rd rs1 imm s
  | .fence c p => Sys2Proof.Machine.execFence c p s
  | .yield c p done => Sys2Proof.Machine.execYield c p done s
  | .brk c p code => Sys2Proof.Machine.execBrk c p code s
  | .dtab c p rd rs1 rs2 idx k => Sys2Proof.Machine.execDtab c p rd rs1 rs2 idx k s
  | .eccWriteback => Sys2Proof.Machine.execEccWriteback s
  | .remoteAccessComplete c k => Sys2Proof.Machine.execRemoteAccessComplete c k s
  | .copAnswer c => Sys2Proof.Machine.execCopAnswer c s
  | .submit c p rd rs1 rs2 => Sys2Proof.Machine.execSubmit c p rd rs1 rs2 s
  | .rand c p rd rs1 rs2 => Sys2Proof.Machine.execRand c p rd rs1 rs2 s
  | .qstat c p rd rs1 rs2 => Sys2Proof.Machine.execQstat c p rd rs1 rs2 s
  | .ringRd c p rd rs1 rs2 => Sys2Proof.Machine.execRingRd c p rd rs1 rs2 s
  | .ringWr c p rd rs1 rs2 => Sys2Proof.Machine.execRingWr c p rd rs1 rs2 s
  | .free c p rd rs1 rs2 => Sys2Proof.Machine.execFree c p rd rs1 rs2 s
  | .tq c p rd rs1 rs2 => Sys2Proof.Machine.execTq c p rd rs1 rs2 s
  | .fcount c p rd rs1 rs2 w => Sys2Proof.Machine.execFcount c p rd rs1 rs2 w s
  | .crcInit c p rd rs1 rs2 => Sys2Proof.Machine.execCrcInit c p rd rs1 rs2 s
  | .crc32B c p rd rs1 rs2 => Sys2Proof.Machine.execCrc32B c p rd rs1 rs2 s
  | .crc32W c p rd rs1 rs2 => Sys2Proof.Machine.execCrc32W c p rd rs1 rs2 s
  | .crc16B c p rd rs1 rs2 => Sys2Proof.Machine.execCrc16B c p rd rs1 rs2 s
  | .crc8B c p rd rs1 rs2 => Sys2Proof.Machine.execCrc8B c p rd rs1 rs2 s
  | .pn9 c p rd rs1 rs2 => Sys2Proof.Machine.execPn9 c p rd rs1 rs2 s
  | .pn9Init c p rd rs1 rs2 => Sys2Proof.Machine.execPn9Init c p rd rs1 rs2 s
  | .golayEnc c p rd rs1 rs2 => Sys2Proof.Machine.execGolayEnc c p rd rs1 rs2 s
  | .golayDec c p rd rs1 rs2 => Sys2Proof.Machine.execGolayDec c p rd rs1 rs2 s
  | .brev c p rd rs1 rs2 => Sys2Proof.Machine.execBrev c p rd rs1 rs2 s
  | .crcRd c p rd rs1 rs2 => Sys2Proof.Machine.execCrcRd c p rd rs1 rs2 s
  | .arm c p rd rs1 rs2 q => Sys2Proof.Machine.execArm c p rd rs1 rs2 q s
  | .disarm c p rd rs1 rs2 q => Sys2Proof.Machine.execDisarm c p rd rs1 rs2 q s
  | .nowNs c p rd rs1 rs2 => Sys2Proof.Machine.execNowNs c p rd rs1 rs2 s
  | .nowFrame c p rd rs1 rs2 => Sys2Proof.Machine.execNowFrame c p rd rs1 rs2 s
  | .cinchCompareFire c slots cancel => Sys2Proof.Machine.execCinchCompareFire c slots cancel s
  | .taskCfgWrite c p v => Sys2Proof.Machine.execTaskCfgWrite c p v s
  | .taskSignal c signal cancel => Sys2Proof.Machine.execTaskSignal c signal cancel s
  | .taskCancel c cancel => Sys2Proof.Machine.execTaskCancel c cancel s
  | .noticeArrival c srcs cancel => Sys2Proof.Machine.execNoticeArrival c srcs cancel s
  | .nqPop c => Sys2Proof.Machine.execNqPop c s
  | .msgPost c v => Sys2Proof.Machine.execMsgPost c v s
  | .haltSvc c v => Sys2Proof.Machine.execHaltSvc c v s
  | .clusterHalterExpiry cl => Sys2Proof.Machine.execClusterHalterExpiry cl s
  | .engRestart c v => Sys2Proof.Machine.execEngRestart c v s
  | .engctlStop e => Sys2Proof.Machine.execEngctlStop e s
  | .engctlRestart e => Sys2Proof.Machine.execEngctlRestart e s
  | .idataLoWrite e v => Sys2Proof.Machine.execIdataLoWrite e v s
  | .idataHiWrite e v => Sys2Proof.Machine.execIdataHiWrite e v s
  | .idataLoRead e => Sys2Proof.Machine.execIdataLoRead e s
  | .idataHiRead e => Sys2Proof.Machine.execIdataHiRead e s
  | .tprioWrite t v => Sys2Proof.Machine.execTprioWrite t v s
  | .priorityChangeArrival => Sys2Proof.Machine.execPriorityChangeArrival s
  | .engFlipArm c v => Sys2Proof.Machine.execEngFlipArm c v s
  | .fenceWrite sys r e v => Sys2Proof.Machine.execFenceWrite sys r e v s
  | .tenantSuspend m t => Sys2Proof.Machine.execTenantSuspend m t s
  | .tenantResume m t => Sys2Proof.Machine.execTenantResume m t s
  | .pathStateReq p v => Sys2Proof.Machine.execPathStateReq p v s
  | .pathStandbyReached p => Sys2Proof.Machine.execPathStandbyReached p s
  | .pathReceiveReached p => Sys2Proof.Machine.execPathReceiveReached p s
  | .pllLoss => Sys2Proof.Machine.execPllLoss s
  | .pathRateWrite p r => Sys2Proof.Machine.execPathRateWrite p r s
  | .lnaBypassWrite p v => Sys2Proof.Machine.execLnaBypassWrite p v s
  | .tunerCfgWrite t v => Sys2Proof.Machine.execTunerCfgWrite t v s
  | .tunerSamplesStart t => Sys2Proof.Machine.execTunerSamplesStart t s
  | .txStateReq txh v => Sys2Proof.Machine.execTxStateReq txh v s
  | .txStandbyReached txh => Sys2Proof.Machine.execTxStandbyReached txh s
  | .txAutoWake txh => Sys2Proof.Machine.execTxAutoWake txh s
  | .txStartSequence txh => Sys2Proof.Machine.execTxStartSequence txh s
  | .nodeAccountRequest txh => Sys2Proof.Machine.execNodeAccountRequest txh s
  | .nodeAccountAnswer txh => Sys2Proof.Machine.execNodeAccountAnswer txh s
  | .txSynthLock txh => Sys2Proof.Machine.execTxSynthLock txh s
  | .ccaWindowEnd txh rms => Sys2Proof.Machine.execCcaWindowEnd txh rms s
  | .backoffExpiry txh => Sys2Proof.Machine.execBackoffExpiry txh s
  | .frontEndStep txh k => Sys2Proof.Machine.execFrontEndStep txh k s
  | .txCarrierEnd txh k => Sys2Proof.Machine.execTxCarrierEnd txh k s
  | .txLatestStartExpiry txh => Sys2Proof.Machine.execTxLatestStartExpiry txh s
  | .txSubmit e txh a => Sys2Proof.Machine.execTxSubmit e txh a s
  | .txSubmitFetchDone e => Sys2Proof.Machine.execTxSubmitFetchDone e s
  | .txCancel e v => Sys2Proof.Machine.execTxCancel e v s
  | .supTxSubmit txh w7 => Sys2Proof.Machine.execSupTxSubmit txh w7 s
  | .supTxCancel txh tag => Sys2Proof.Machine.execSupTxCancel txh tag s
  | .txCalGo txh lo => Sys2Proof.Machine.execTxCalGo txh lo s
  | .txCalFlush txh => Sys2Proof.Machine.execTxCalFlush txh s
  | .txCalDone txh => Sys2Proof.Machine.execTxCalDone txh s
  | .rxEnable m n v => Sys2Proof.Machine.execRxEnable m n v s
  | .rxDisable m n v => Sys2Proof.Machine.execRxDisable m n v s
  | .rxOwnerWrite n tenant home => Sys2Proof.Machine.execRxOwnerWrite n tenant home s
  | .fillTimerExpiry n b => Sys2Proof.Machine.execFillTimerExpiry n b s
  | .blankRecovery n b => Sys2Proof.Machine.execBlankRecovery n b s
  | .syncDetect n foundA foundB energyA energyB out rssiA rssiB foff => Sys2Proof.Machine.execSyncDetect n foundA foundB energyA energyB out rssiA rssiB foff s
  | .detectorWindowEnd n b peak rms ovld => Sys2Proof.Machine.execDetectorWindowEnd n b peak rms ovld s
  | .envelopeUpdate n envA envB => Sys2Proof.Machine.execEnvelopeUpdate n envA envB s
  | .specGo avg tuner => Sys2Proof.Machine.execSpecGo avg tuner s
  | .specDone bins => Sys2Proof.Machine.execSpecDone bins s
  | .ingressSyncRecord n => Sys2Proof.Machine.execIngressSyncRecord n s
  | .ingressHeader n soft => Sys2Proof.Machine.execIngressHeader n soft s
  | .codewordStart n => Sys2Proof.Machine.execCodewordStart n s
  | .codewordFilled n soft => Sys2Proof.Machine.execCodewordFilled n soft s
  | .contextLoadDone x => Sys2Proof.Machine.execContextLoadDone x s
  | .iterationEnd core => Sys2Proof.Machine.execIterationEnd core s
  | .contextStoreDone x => Sys2Proof.Machine.execContextStoreDone x s
  | .ingressLastSoftBit n soft => Sys2Proof.Machine.execIngressLastSoftBit n soft s
  | .ingressEndReport n => Sys2Proof.Machine.execIngressEndReport n s
  | .ringRdWrite e v => Sys2Proof.Machine.execRingRdWrite e v s
  | .decoderTqWrite m r t v => Sys2Proof.Machine.execDecoderTqWrite m r t v s
  | .decoderReserveWrite m v => Sys2Proof.Machine.execDecoderReserveWrite m v s
  | .relayHandle draw => Sys2Proof.Machine.execRelayHandle draw s
  | .relaySort => Sys2Proof.Machine.execRelaySort s
  | .relayVerifyResult => Sys2Proof.Machine.execRelayVerifyResult s
  | .relayTxCompletion => Sys2Proof.Machine.execRelayTxCompletion s
  | .relayHandleF1 => Sys2Proof.Machine.execRelayHandleF1 s
  | .reservationStart k => Sys2Proof.Machine.execReservationStart k s
  | .reservationEnd k => Sys2Proof.Machine.execReservationEnd k s
  | .aliasSet m a => Sys2Proof.Machine.execAliasSet m a s
  | .aliasDelete m a => Sys2Proof.Machine.execAliasDelete m a s
  | .aliasGet m a => Sys2Proof.Machine.execAliasGet m a s
  | .cinchBoundary => Sys2Proof.Machine.execCinchBoundary s
  | .cinchOutFall => Sys2Proof.Machine.execCinchOutFall s
  | .cinchDecision => Sys2Proof.Machine.execCinchDecision s
  | .slotStart slot => Sys2Proof.Machine.execSlotStart slot s
  | .ppsEdge x => Sys2Proof.Machine.execPpsEdge x s
  | .ptpRollover p x => Sys2Proof.Machine.execPtpRollover p x s
  | .airObsSubmit m v => Sys2Proof.Machine.execAirObsSubmit m v s
  | .holdoverKeepExpiry => Sys2Proof.Machine.execHoldoverKeepExpiry s
  | .reacquire m v => Sys2Proof.Machine.execReacquire m v s
  | .rateWrite m v => Sys2Proof.Machine.execRateWrite m v s
  | .planSwapRequest m => Sys2Proof.Machine.execPlanSwapRequest m s
  | .planWrite m bank slot v => Sys2Proof.Machine.execPlanWrite m bank slot v s
  | .beaconBuild slot => Sys2Proof.Machine.execBeaconBuild slot s
  | .beaconCompletion => Sys2Proof.Machine.execBeaconCompletion s
  | .extenderUpdate island drift => Sys2Proof.Machine.execExtenderUpdate island drift s
  | .lookup p => Sys2Proof.Machine.execLookup p s
  | .insert p => Sys2Proof.Machine.execInsert p s
  | .delete p => Sys2Proof.Machine.execDelete p s
  | .readWay p => Sys2Proof.Machine.execReadWay p s
  | .routeSet p => Sys2Proof.Machine.execRouteSet p s
  | .routeGet p => Sys2Proof.Machine.execRouteGet p s
  | .forward p => Sys2Proof.Machine.execForward p s
  | .inboxRd p => Sys2Proof.Machine.execInboxRd p s
  | .sweepStep => Sys2Proof.Machine.execSweepStep s
  | .ecbEnc => Sys2Proof.Machine.execEcbEnc s
  | .ecbDec => Sys2Proof.Machine.execEcbDec s
  | .ctr => Sys2Proof.Machine.execCtr s
  | .ccmEnc => Sys2Proof.Machine.execCcmEnc s
  | .ccmDec => Sys2Proof.Machine.execCcmDec s
  | .gcmEnc => Sys2Proof.Machine.execGcmEnc s
  | .gcmDec => Sys2Proof.Machine.execGcmDec s
  | .kwWrap => Sys2Proof.Machine.execKwWrap s
  | .kwUnwrap => Sys2Proof.Machine.execKwUnwrap s
  | .sha256 => Sys2Proof.Machine.execSha256 s
  | .ecdsaVerify => Sys2Proof.Machine.execEcdsaVerify s
  | .ecdsaSign draw => Sys2Proof.Machine.execEcdsaSign draw s
  | .nkeySet => Sys2Proof.Machine.execNkeySet s
  | .nkeyDerive => Sys2Proof.Machine.execNkeyDerive s
  | .nkeyErase => Sys2Proof.Machine.execNkeyErase s
  | .cipherJobComplete u => Sys2Proof.Machine.execCipherJobComplete u s
  | .jobAbort u => Sys2Proof.Machine.execJobAbort u s
  | .loadKey v => Sys2Proof.Machine.execLoadKey v s
  | .zeroize v => Sys2Proof.Machine.execZeroize v s
  | .keygen k draw => Sys2Proof.Machine.execKeygen k draw s
  | .eccZeroize k => Sys2Proof.Machine.execEccZeroize k s
  | .eccSave k => Sys2Proof.Machine.execEccSave k s
  | .trngTestFail raw => Sys2Proof.Machine.execTrngTestFail raw s
  | .trngRetest raw => Sys2Proof.Machine.execTrngRetest raw s
  | .trngStartupDone raw => Sys2Proof.Machine.execTrngStartupDone raw s
  | .trngDataRead => Sys2Proof.Machine.execTrngDataRead s
  | .meterSample k ua mv => Sys2Proof.Machine.execMeterSample k ua mv s
  | .packSample shunt vbus => Sys2Proof.Machine.execPackSample shunt vbus s
  | .mainsOkEdge level => Sys2Proof.Machine.execMainsOkEdge level s
  | .mainsDebounceExpiry also => Sys2Proof.Machine.execMainsDebounceExpiry also s
  | .packEstWrite m v => Sys2Proof.Machine.execPackEstWrite m v s
  | .ledgerLowRead m sel => Sys2Proof.Machine.execLedgerLowRead m sel s
  | .ledgerHighRead m sel => Sys2Proof.Machine.execLedgerHighRead m sel s
  | .agentMessage => Sys2Proof.Machine.execAgentMessage s
  | .die1Ready m => Sys2Proof.Machine.execDie1Ready m s
  | .girthCtrlWrite m v => Sys2Proof.Machine.execGirthCtrlWrite m v s
  | .naccRead m n => Sys2Proof.Machine.execNaccRead m n s
  | .naccSet m n => Sys2Proof.Machine.execNaccSet m n s
  | .naccCharge m n => Sys2Proof.Machine.execNaccCharge m n s
  | .naccClear m n => Sys2Proof.Machine.execNaccClear m n s
  | .sleepRequest m v => Sys2Proof.Machine.execSleepRequest m v s
  | .deepSleepRequest m v => Sys2Proof.Machine.execDeepSleepRequest m v s
  | .offRequest m v => Sys2Proof.Machine.execOffRequest m v s
  | .sleepEntry => Sys2Proof.Machine.execSleepEntry s
  | .deepSleepEntry => Sys2Proof.Machine.execDeepSleepEntry s
  | .offEntry => Sys2Proof.Machine.execOffEntry s
  | .wakeAlarm also => Sys2Proof.Machine.execWakeAlarm also s
  | .wakeNLow also => Sys2Proof.Machine.execWakeNLow also s
  | .stirrupMatch b also => Sys2Proof.Machine.execStirrupMatch b also s
  | .survivalWindowEnd => Sys2Proof.Machine.execSurvivalWindowEnd s
  | .memFlipArm v => Sys2Proof.Machine.execMemFlipArm v s
  | .memClear v => Sys2Proof.Machine.execMemClear v s
  | .memClearDone => Sys2Proof.Machine.execMemClearDone s
  | .burnisherGroup => Sys2Proof.Machine.execBurnisherGroup s
  | .flashRead m tag => Sys2Proof.Machine.execFlashRead m tag s
  | .flashProgram m tag => Sys2Proof.Machine.execFlashProgram m tag s
  | .flashErase m tag => Sys2Proof.Machine.execFlashErase m tag s
  | .blank m tag => Sys2Proof.Machine.execBlank m tag s
  | .hcheck m tag => Sys2Proof.Machine.execHcheck m tag s
  | .verify m tag => Sys2Proof.Machine.execVerify m tag s
  | .flashCmdDone ok => Sys2Proof.Machine.execFlashCmdDone ok s
  | .windowLineFill => Sys2Proof.Machine.execWindowLineFill s
  | .eraseSuspend => Sys2Proof.Machine.execEraseSuspend s
  | .eraseResume => Sys2Proof.Machine.execEraseResume s
  | .pageProgramDone ok => Sys2Proof.Machine.execPageProgramDone ok s
  | .dqsTimeout line => Sys2Proof.Machine.execDqsTimeout line s
  | .rtcTick vbatLow => Sys2Proof.Machine.execRtcTick vbatLow s
  | .rtcLoad m v => Sys2Proof.Machine.execRtcLoad m v s
  | .xtalFail => Sys2Proof.Machine.execXtalFail s
  | .vbatSwitchover => Sys2Proof.Machine.execVbatSwitchover s
  | .vddaSwitchback => Sys2Proof.Machine.execVddaSwitchback s
  | .rtcShadowFreeze m => Sys2Proof.Machine.execRtcShadowFreeze m s
  | .rtcShadowRelease m => Sys2Proof.Machine.execRtcShadowRelease m s
  | .shadowTimeout m => Sys2Proof.Machine.execShadowTimeout m s
  | .timerStep n also => Sys2Proof.Machine.execTimerStep n also s
  | .tmrStart m v => Sys2Proof.Machine.execTmrStart m v s
  | .tmrStop m v => Sys2Proof.Machine.execTmrStop m v s
  | .timerClear m n v => Sys2Proof.Machine.execTimerClear m n v s
  | .reloadCommit m n v => Sys2Proof.Machine.execReloadCommit m n v s
  | .compareCommit m n v => Sys2Proof.Machine.execCompareCommit m n v s
  | .ethModeWrite m p v => Sys2Proof.Machine.execEthModeWrite m p v s
  | .ethLinkUp p speed => Sys2Proof.Machine.execEthLinkUp p speed s
  | .ethFrameRx p fcsOk b => Sys2Proof.Machine.execEthFrameRx p fcsOk b s
  | .ethFrameTx p => Sys2Proof.Machine.execEthFrameTx p s
  | .mdioRead m v => Sys2Proof.Machine.execMdioRead m v s
  | .mdioWrite m v => Sys2Proof.Machine.execMdioWrite m v s
  | .ptpStep m p v => Sys2Proof.Machine.execPtpStep m p v s
  | .ptpTimeRead m p => Sys2Proof.Machine.execPtpTimeRead m p s
  | .txtsPop m p => Sys2Proof.Machine.execTxtsPop m p s
  | .mgmtPendRead m => Sys2Proof.Machine.execMgmtPendRead m s
  | .mgmtDone m v => Sys2Proof.Machine.execMgmtDone m v s
  | .mgmtSlotExpiry k => Sys2Proof.Machine.execMgmtSlotExpiry k s
  | .pinmuxSelWrite m g v => Sys2Proof.Machine.execPinmuxSelWrite m g v s
  | .parkEnd g => Sys2Proof.Machine.execParkEnd g s
  | .uartTxWrite m u v => Sys2Proof.Machine.execUartTxWrite m u v s
  | .uartRxPop m u => Sys2Proof.Machine.execUartRxPop m u s
  | .uartRxByte u b frameErr => Sys2Proof.Machine.execUartRxByte u b frameErr s
  | .spiExchange m v => Sys2Proof.Machine.execSpiExchange m v s
  | .spiExchangeDone b => Sys2Proof.Machine.execSpiExchangeDone b s
  | .i2cStart m v => Sys2Proof.Machine.execI2cStart m v s
  | .i2cWrite m v => Sys2Proof.Machine.execI2cWrite m v s
  | .i2cRead m v => Sys2Proof.Machine.execI2cRead m v s
  | .i2cStop m v => Sys2Proof.Machine.execI2cStop m v s
  | .i2cOpDone b ack => Sys2Proof.Machine.execI2cOpDone b ack s
  | .recoveryHelloTick => Sys2Proof.Machine.execRecoveryHelloTick s
  | .recoveryFrame b => Sys2Proof.Machine.execRecoveryFrame b s
  | .hello => Sys2Proof.Machine.execHello s
  | .baud => Sys2Proof.Machine.execBaud s
  | .recoveryLoad => Sys2Proof.Machine.execRecoveryLoad s
  | .run => Sys2Proof.Machine.execRun s
  | .idcode => Sys2Proof.Machine.execIdcode s
  | .bypass => Sys2Proof.Machine.execBypass s
  | .samplePreload => Sys2Proof.Machine.execSamplePreload s
  | .extest => Sys2Proof.Machine.execExtest s
  | .clamp => Sys2Proof.Machine.execClamp s
  | .highz => Sys2Proof.Machine.execHighz s
  | .debugChallengeRead draw => Sys2Proof.Machine.execDebugChallengeRead draw s
  | .debugUnlock scope key sig => Sys2Proof.Machine.execDebugUnlock scope key sig s
  | .debugStop c => Sys2Proof.Machine.execDebugStop c s
  | .debugStep c => Sys2Proof.Machine.execDebugStep c s
  | .debugResume c => Sys2Proof.Machine.execDebugResume c s
  | .vbatLoss => Sys2Proof.Machine.execVbatLoss s
  | .ethLinkDown p => Sys2Proof.Machine.execEthLinkDown p s
  | .mdioDone data => Sys2Proof.Machine.execMdioDone data s
  | .uartTxByteSent u => Sys2Proof.Machine.execUartTxByteSent u s
  | .recoveryBaudApply => Sys2Proof.Machine.execRecoveryBaudApply s
  | .trngConditionerOutput raw => Sys2Proof.Machine.execTrngConditionerOutput raw s
  | .ppsOutFall => Sys2Proof.Machine.execPpsOutFall s
  | .slotStrobeEnd => Sys2Proof.Machine.execSlotStrobeEnd s
  | .wakeNRelease => Sys2Proof.Machine.execWakeNRelease s
  | .eccKeyOpDone k => Sys2Proof.Machine.execEccKeyOpDone k s

end Sys2Proof.Machine
end

