-- ==== Sys2Proof/Machine/Step.lean ====
section
/-!
DEFINITION. One step of the block: the command at the front of the queue runs, on the state with the rest of the queue;
with an empty queue the block idles (log entries 1 and 2).
-/

namespace Sys2Proof.Machine

/-- One step: the oldest waiting command, or an idle cycle of the reference. -/
def step (s : State) : Host.Outcome State Fault Refusal :=
  match s.pending with
  | [] => .next s.idle
  | c :: rest => exec c { s with pending := rest }

/-- The state with the command that a word of the table spells in front of the queue. No row of the table gives bits,
so no word spells a command and the state stays as it is. -/
def State.withFetchWord (s : State) (nbits w : Nat) : State :=
  match Sys2Proof.decodeTableWord nbits w with
  | some c => { s with pending := c :: s.pending }
  | none => s

end Sys2Proof.Machine
end

