-- ==== Sys2Proof/Machine/Balls.lean ====
section
/-!
DEFINITION. What the signal balls of two levels show (R53, R79, R346, R444–R447, R454): the balls of Table 20-1 and the
level that the block drives on each. Receive and transmit balls, SerDes pairs, supplies and bias balls have no level.
-/

namespace Sys2Proof.Machine

/-- The two-level balls that the block can drive. `h`: the TXH chain; `b`: path B. -/
inductive Ball where
  | paEn (h : Bool)
  | paMode (h : Bool)
  | trsw (h : Bool)
  | lnaEn (b : Bool)
  | lnaByp (b : Bool)
  | cinchOut
  | refEn
  | wakeN
  | xspiResetN
  | xspiCsN
  | mdc
  | tdo
  | gpio (g : BitVec 5)
  | test
  deriving DecidableEq, Repr

/-- Compute die 0 and the radio die have no power: DEEP_SLEEP and OFF. -/
def State.coreOff (s : State) : Bool := s.pkg.power == .deepSleep || s.pkg.power == .off

/-- REF_EN is 0 from the end of an entry into DEEP_SLEEP or OFF until the oscillator is enabled by the start after the
wake (R454, Table 2-2). -/
def State.refEn (s : State) : Bool := !(s.coreOff || (s.pkg.stage == .hold && bitN s.pkg.causes 7))

/-- XSPI_RESET_N is low from every package reset until step 5 of Table 2-2 (R445). -/
def State.xspiReleased (s : State) : Bool := s.pkg.stage != .hold && s.pkg.stage != .reference && s.pkg.stage != .fill

/-- The level that the block drives on a ball; none where it drives none, or a level that the spec does not fix (log
entry 79). Balls of absent units are not connected (R4, R446). EXTEST, CLAMP and HIGHZ take the balls of the banks. -/
def State.ball (s : State) (x : Ball) : Option Bool :=
  let banked (v : Option Bool) : Option Bool := if jtagHolds s.pkg.jtag then none else v
  match x with
  | .paEn h => if s.hasChain (b2n h) then banked (some (s.chain (b2n h)).paEn) else none
  | .paMode h => if s.hasChain (b2n h) then banked (some (s.chain (b2n h)).paMode) else none
  | .trsw h => if s.hasChain (b2n h) then banked (some (s.chain (b2n h)).trsw) else none
  | .lnaEn b => if s.hasPath (b2n b) then banked (some (s.path (b2n b)).lnaEn) else none
  | .lnaByp b => if s.hasPath (b2n b) then banked (some (s.path (b2n b)).lnaByp) else none
  | .cinchOut => banked (some s.outLevel)
  | .refEn => some s.refEn
  | .wakeN => if s.pkg.alarmPull then some false else none
  | .xspiResetN => if s.coreOff then none else banked (some s.xspiReleased)
  | .xspiCsN => if s.coreOff || !s.xspiReleased then some true else none
  | .mdc => if s.coreOff || s.fon fETH_MDIO_go then none else banked (some false)
  | .tdo => none
  | .gpio g => banked (s.pinLevel g.toNat)
  | .test => none

/-- The 3.3 V mode of VDD_IO bank k: 0 A, 1 B, 2 X, 3 F, 4 J (R448). -/
def State.bankHigh (s : State) (k : Nat) : Bool := bitN s.pkg.ioHigh k

end Sys2Proof.Machine
end

