-- ==== Sys2Proof/Safety.lean ====
section
/-!
DEFINITION. The words that claims are stated in: what it is for a command to be carried out, for a core to execute an
instruction, and for a part of the state to be all that changes.
-/

namespace Sys2Proof

open Machine

/-! ## Finhit instructions (chapter 9) -/

/-- Of a Finhit instruction, the core, the predicate and the registers it reads; none for any other command. -/
def Instr.finhit : Instr → Option (CoreId × Pred × List (BitVec 5))
  | .addi c p _ rs1 _ => some (c, p, [rs1])
  | .andi c p _ rs1 _ => some (c, p, [rs1])
  | .ori c p _ rs1 _ => some (c, p, [rs1])
  | .xori c p _ rs1 _ => some (c, p, [rs1])
  | .slti c p _ rs1 _ => some (c, p, [rs1])
  | .sltiu c p _ rs1 _ => some (c, p, [rs1])
  | .slli c p _ rs1 _ => some (c, p, [rs1])
  | .srli c p _ rs1 _ => some (c, p, [rs1])
  | .srai c p _ rs1 _ => some (c, p, [rs1])
  | .rori c p _ rs1 _ => some (c, p, [rs1])
  | .add c p _ rs1 rs2 => some (c, p, [rs1, rs2])
  | .sub c p _ rs1 rs2 => some (c, p, [rs1, rs2])
  | .and c p _ rs1 rs2 => some (c, p, [rs1, rs2])
  | .or c p _ rs1 rs2 => some (c, p, [rs1, rs2])
  | .xor c p _ rs1 rs2 => some (c, p, [rs1, rs2])
  | .sll c p _ rs1 rs2 => some (c, p, [rs1, rs2])
  | .srl c p _ rs1 rs2 => some (c, p, [rs1, rs2])
  | .sra c p _ rs1 rs2 => some (c, p, [rs1, rs2])
  | .ror c p _ rs1 rs2 => some (c, p, [rs1, rs2])
  | .slt c p _ rs1 rs2 => some (c, p, [rs1, rs2])
  | .sltu c p _ rs1 rs2 => some (c, p, [rs1, rs2])
  | .min c p _ rs1 rs2 => some (c, p, [rs1, rs2])
  | .max c p _ rs1 rs2 => some (c, p, [rs1, rs2])
  | .minu c p _ rs1 rs2 => some (c, p, [rs1, rs2])
  | .maxu c p _ rs1 rs2 => some (c, p, [rs1, rs2])
  | .andn c p _ rs1 rs2 => some (c, p, [rs1, rs2])
  | .clz c p _ rs1 => some (c, p, [rs1])
  | .popc c p _ rs1 => some (c, p, [rs1])
  | .rev8 c p _ rs1 => some (c, p, [rs1])
  | .sextb c p _ rs1 => some (c, p, [rs1])
  | .sexth c p _ rs1 => some (c, p, [rs1])
  | .zexth c p _ rs1 => some (c, p, [rs1])
  | .movl c p _ _ => some (c, p, [])
  | .movh c p rd _ => some (c, p, [rd])
  | .cmp c p _ _ rs1 rs2 _ => some (c, p, [rs1, rs2])
  | .cmpi c p _ _ rs1 _ _ => some (c, p, [rs1])
  | .plog c p _ _ _ _ _ _ => some (c, p, [])
  | .mul c p rs1 rs2 => some (c, p, [rs1, rs2])
  | .mulu c p rs1 rs2 => some (c, p, [rs1, rs2])
  | .mac c p rs1 rs2 => some (c, p, [rs1, rs2])
  | .mfs c p _ _ => some (c, p, [])
  | .mts c p _ rs1 => some (c, p, [rs1])
  | .lb c p _ rs1 _ => some (c, p, [rs1])
  | .lbu c p _ rs1 _ => some (c, p, [rs1])
  | .lh c p _ rs1 _ => some (c, p, [rs1])
  | .lhu c p _ rs1 _ => some (c, p, [rs1])
  | .lw c p _ rs1 _ => some (c, p, [rs1])
  | .ldp c p _ rs1 _ => some (c, p, [rs1])
  | .sb c p rs2 rs1 _ => some (c, p, [rs1, rs2])
  | .sh c p rs2 rs1 _ => some (c, p, [rs1, rs2])
  | .sw c p rs2 rs1 _ => some (c, p, [rs1, rs2])
  | .sdp c p rs2 rs1 _ => some (c, p, [rs1, rs2, rs2 + 1#5])
  | .inPort c p _ rs1 _ => some (c, p, [rs1])
  | .outPort c p rs2 rs1 _ => some (c, p, [rs1, rs2])
  | .b c p _ => some (c, p, [])
  | .call c p _ => some (c, p, [])
  | .jalr c p _ rs1 _ => some (c, p, [rs1])
  | .fence c p => some (c, p, [])
  | .yield c p _ => some (c, p, [])
  | .brk c p _ => some (c, p, [])
  | .dtab c p _ rs1 rs2 _ _ => some (c, p, [rs1, rs2])
  | .submit c p _ rs1 rs2 => some (c, p, [rs1, rs2])
  | .rand c p _ rs1 rs2 => some (c, p, [rs1, rs2])
  | .qstat c p _ rs1 rs2 => some (c, p, [rs1, rs2])
  | .ringRd c p _ rs1 rs2 => some (c, p, [rs1, rs2])
  | .ringWr c p _ rs1 rs2 => some (c, p, [rs1, rs2])
  | .free c p _ rs1 rs2 => some (c, p, [rs1, rs2])
  | .tq c p _ rs1 rs2 => some (c, p, [rs1, rs2])
  | .fcount c p _ rs1 rs2 _ => some (c, p, [rs1, rs2])
  | .crcInit c p _ rs1 rs2 => some (c, p, [rs1, rs2])
  | .crc32B c p _ rs1 rs2 => some (c, p, [rs1, rs2])
  | .crc32W c p _ rs1 rs2 => some (c, p, [rs1, rs2])
  | .crc16B c p _ rs1 rs2 => some (c, p, [rs1, rs2])
  | .crc8B c p _ rs1 rs2 => some (c, p, [rs1, rs2])
  | .pn9 c p _ rs1 rs2 => some (c, p, [rs1, rs2])
  | .pn9Init c p _ rs1 rs2 => some (c, p, [rs1, rs2])
  | .golayEnc c p _ rs1 rs2 => some (c, p, [rs1, rs2])
  | .golayDec c p _ rs1 rs2 => some (c, p, [rs1, rs2])
  | .brev c p _ rs1 rs2 => some (c, p, [rs1, rs2])
  | .crcRd c p _ rs1 rs2 => some (c, p, [rs1, rs2])
  | .arm c p _ rs1 rs2 _ => some (c, p, [rs1, rs2])
  | .disarm c p _ rs1 rs2 _ => some (c, p, [rs1, rs2])
  | .nowNs c p _ rs1 rs2 => some (c, p, [rs1, rs2])
  | .nowFrame c p _ rs1 rs2 => some (c, p, [rs1, rs2])
  | _ => none

/-- A Finhit instruction under predicate pr. -/
def Instr.underPred (pr : Pred) : Instr → Instr
  | .addi c _ rd rs1 imm => .addi c pr rd rs1 imm
  | .andi c _ rd rs1 imm => .andi c pr rd rs1 imm
  | .ori c _ rd rs1 imm => .ori c pr rd rs1 imm
  | .xori c _ rd rs1 imm => .xori c pr rd rs1 imm
  | .slti c _ rd rs1 imm => .slti c pr rd rs1 imm
  | .sltiu c _ rd rs1 imm => .sltiu c pr rd rs1 imm
  | .slli c _ rd rs1 amt => .slli c pr rd rs1 amt
  | .srli c _ rd rs1 amt => .srli c pr rd rs1 amt
  | .srai c _ rd rs1 amt => .srai c pr rd rs1 amt
  | .rori c _ rd rs1 amt => .rori c pr rd rs1 amt
  | .add c _ rd rs1 rs2 => .add c pr rd rs1 rs2
  | .sub c _ rd rs1 rs2 => .sub c pr rd rs1 rs2
  | .and c _ rd rs1 rs2 => .and c pr rd rs1 rs2
  | .or c _ rd rs1 rs2 => .or c pr rd rs1 rs2
  | .xor c _ rd rs1 rs2 => .xor c pr rd rs1 rs2
  | .sll c _ rd rs1 rs2 => .sll c pr rd rs1 rs2
  | .srl c _ rd rs1 rs2 => .srl c pr rd rs1 rs2
  | .sra c _ rd rs1 rs2 => .sra c pr rd rs1 rs2
  | .ror c _ rd rs1 rs2 => .ror c pr rd rs1 rs2
  | .slt c _ rd rs1 rs2 => .slt c pr rd rs1 rs2
  | .sltu c _ rd rs1 rs2 => .sltu c pr rd rs1 rs2
  | .min c _ rd rs1 rs2 => .min c pr rd rs1 rs2
  | .max c _ rd rs1 rs2 => .max c pr rd rs1 rs2
  | .minu c _ rd rs1 rs2 => .minu c pr rd rs1 rs2
  | .maxu c _ rd rs1 rs2 => .maxu c pr rd rs1 rs2
  | .andn c _ rd rs1 rs2 => .andn c pr rd rs1 rs2
  | .clz c _ rd rs1 => .clz c pr rd rs1
  | .popc c _ rd rs1 => .popc c pr rd rs1
  | .rev8 c _ rd rs1 => .rev8 c pr rd rs1
  | .sextb c _ rd rs1 => .sextb c pr rd rs1
  | .sexth c _ rd rs1 => .sexth c pr rd rs1
  | .zexth c _ rd rs1 => .zexth c pr rd rs1
  | .movl c _ rd imm => .movl c pr rd imm
  | .movh c _ rd imm => .movh c pr rd imm
  | .cmp c _ pd comb rs1 rs2 cond => .cmp c pr pd comb rs1 rs2 cond
  | .cmpi c _ pd comb rs1 cond imm => .cmpi c pr pd comb rs1 cond imm
  | .plog c _ pd pa ainv pb binv op => .plog c pr pd pa ainv pb binv op
  | .mul c _ rs1 rs2 => .mul c pr rs1 rs2
  | .mulu c _ rs1 rs2 => .mulu c pr rs1 rs2
  | .mac c _ rs1 rs2 => .mac c pr rs1 rs2
  | .mfs c _ rd sr => .mfs c pr rd sr
  | .mts c _ sr rs1 => .mts c pr sr rs1
  | .lb c _ rd rs1 imm => .lb c pr rd rs1 imm
  | .lbu c _ rd rs1 imm => .lbu c pr rd rs1 imm
  | .lh c _ rd rs1 imm => .lh c pr rd rs1 imm
  | .lhu c _ rd rs1 imm => .lhu c pr rd rs1 imm
  | .lw c _ rd rs1 imm => .lw c pr rd rs1 imm
  | .ldp c _ rd rs1 imm => .ldp c pr rd rs1 imm
  | .sb c _ rs2 rs1 imm => .sb c pr rs2 rs1 imm
  | .sh c _ rs2 rs1 imm => .sh c pr rs2 rs1 imm
  | .sw c _ rs2 rs1 imm => .sw c pr rs2 rs1 imm
  | .sdp c _ rs2 rs1 imm => .sdp c pr rs2 rs1 imm
  | .inPort c _ rd rs1 imm => .inPort c pr rd rs1 imm
  | .outPort c _ rs2 rs1 imm => .outPort c pr rs2 rs1 imm
  | .b c _ off => .b c pr off
  | .call c _ off => .call c pr off
  | .jalr c _ rd rs1 imm => .jalr c pr rd rs1 imm
  | .fence c _ => .fence c pr
  | .yield c _ done => .yield c pr done
  | .brk c _ code => .brk c pr code
  | .dtab c _ rd rs1 rs2 idx k => .dtab c pr rd rs1 rs2 idx k
  | .submit c _ rd rs1 rs2 => .submit c pr rd rs1 rs2
  | .rand c _ rd rs1 rs2 => .rand c pr rd rs1 rs2
  | .qstat c _ rd rs1 rs2 => .qstat c pr rd rs1 rs2
  | .ringRd c _ rd rs1 rs2 => .ringRd c pr rd rs1 rs2
  | .ringWr c _ rd rs1 rs2 => .ringWr c pr rd rs1 rs2
  | .free c _ rd rs1 rs2 => .free c pr rd rs1 rs2
  | .tq c _ rd rs1 rs2 => .tq c pr rd rs1 rs2
  | .fcount c _ rd rs1 rs2 w => .fcount c pr rd rs1 rs2 w
  | .crcInit c _ rd rs1 rs2 => .crcInit c pr rd rs1 rs2
  | .crc32B c _ rd rs1 rs2 => .crc32B c pr rd rs1 rs2
  | .crc32W c _ rd rs1 rs2 => .crc32W c pr rd rs1 rs2
  | .crc16B c _ rd rs1 rs2 => .crc16B c pr rd rs1 rs2
  | .crc8B c _ rd rs1 rs2 => .crc8B c pr rd rs1 rs2
  | .pn9 c _ rd rs1 rs2 => .pn9 c pr rd rs1 rs2
  | .pn9Init c _ rd rs1 rs2 => .pn9Init c pr rd rs1 rs2
  | .golayEnc c _ rd rs1 rs2 => .golayEnc c pr rd rs1 rs2
  | .golayDec c _ rd rs1 rs2 => .golayDec c pr rd rs1 rs2
  | .brev c _ rd rs1 rs2 => .brev c pr rd rs1 rs2
  | .crcRd c _ rd rs1 rs2 => .crcRd c pr rd rs1 rs2
  | .arm c _ rd rs1 rs2 slot => .arm c pr rd rs1 rs2 slot
  | .disarm c _ rd rs1 rs2 slot => .disarm c pr rd rs1 rs2 slot
  | .nowNs c _ rd rs1 rs2 => .nowNs c pr rd rs1 rs2
  | .nowFrame c _ rd rs1 rs2 => .nowFrame c pr rd rs1 rs2
  | c => c

/-- The least cycles of a Finhit instruction, whether or not it executes (R240, Table 9-7). -/
def Instr.cycles (s : State) : Instr → Nat
  | .yield _ _ _ => 2
  | .dtab c _ _ _ _ idx _ => ((s.dtabEntry (clusterOf (coreNum c)) idx.toNat).getD []).length
  | _ => 1

/-- The encodings and forms of a Finhit instruction that are ILLEGAL on its core: cond 7 and PLOG op 3 (R232), special
registers 7–31 (R226), a pair at an odd register (R228), COP1 on the supervisor (R255), and DTAB where R3, R249 or R255
refuse it. -/
def Instr.illegalIn (s : State) : Instr → Bool
  | .cmp _ _ _ _ _ _ cond => cond == 7#3
  | .cmpi _ _ _ _ _ cond _ => cond == 7#3
  | .plog _ _ _ _ _ _ _ op => op == 3#2
  | .mfs _ _ _ sr => decide (7 ≤ sr.toNat)
  | .mts _ _ sr _ => decide (7 ≤ sr.toNat)
  | .ldp _ _ rd _ _ => rd.toNat % 2 == 1
  | .sdp _ _ rs2 _ _ => rs2.toNat % 2 == 1
  | .ringRd c _ _ _ _ => c == .sup
  | .ringWr c _ _ _ _ => c == .sup
  | .free c _ _ _ _ => c == .sup
  | .tq c _ _ _ _ => c == .sup
  | .fcount c _ _ _ _ _ => c == .sup
  | .dtab c _ _ _ _ idx _ =>
    c == .sup || !Config.hasDtab s.variant || (s.dtabEntry (clusterOf (coreNum c)) idx.toNat).isNone
  | _ => false

end Sys2Proof

namespace Sys2Proof.Machine

/-- Command c is carried out on s and leaves a state that satisfies p: it ends neither in a fault nor in a refusal. -/
def Runs (c : Instr) (s : State) (p : State → Prop) : Prop := ∃ t, exec c s = .next t ∧ p t

/-- A step is safe: it answers a next state, and that state is in canonical form. -/
def SafeStep (s : State) : Prop := ∃ t, step s = .next t ∧ t.Canon

/-! ## Cores -/

/-- Core c has fetched an instruction: it may issue and is not stepped by the debugger, pc lies in I-space (R46), the check
bits of the fetched word are right (R251), and that word is no encoding that is ILLEGAL by itself (R227–R229, R243). -/
structure State.Fetches (s : State) (c : CoreId) : Prop where
  may : (s.eng (coreNum c)).canIssue = true
  free : (s.eng (coreNum c)).stepOne = false
  inside : (s.eng (coreNum c)).pc.toNat < iLimit (coreNum c)
  word : (s.word64 (fetchKey (coreNum c) (s.eng (coreNum c)).pc)).2 = .ok
  legal : finhitIllegal (fetched (s.word64 (fetchKey (coreNum c) (s.eng (coreNum c)).pc)).1 (s.eng (coreNum c)).pc) = false

/-- Core c executes an instruction that it has fetched, with predicate p and reading the registers `uses`: p holds (R230)
and no register it reads waits for a load (R234). -/
structure State.Issues (s : State) (c : CoreId) (p : Pred) (uses : List (BitVec 5)) : Prop extends s.Fetches c where
  ready : ∀ r ∈ uses, (s.eng (coreNum c)).inFlight r.toNat = false
  holds : (s.eng (coreNum c)).guard p = true

/-- The fault record of R252 after one more fault. -/
def FaultRec.after (r : FaultRec) (cause : Nat) (pc : Word) (addr : Word) : FaultRec :=
  { count := Nat.min 0xFFFF (r.count + 1), cause := cause, pc := pc.toNat, addr := addr }

/-- Core n stopped with a fault (R18, R251, R252): of the core, only its run state changed since it was e; the record names
the cause, the pc and the address; a FAULT notice is on its way to the first engine of the cluster and to the supervisor,
and none for a fault of the supervisor (R256); of the rest nothing changed. -/
def State.Stopped (s t : State) (n : Nat) (e : Engine) (cause : Nat) (addr : Word) : Prop :=
  t.eng n = { e with run := .faulted } ∧ (∀ m, m ≠ n → t.eng m = s.eng m)
    ∧ tabGet {} t.faults n = (tabGet {} s.faults n : FaultRec).after cause (s.eng n).pc addr
    ∧ (∀ m, m ≠ n → tabGet {} t.faults m = (tabGet {} s.faults m : FaultRec))
    ∧ t.flight.map Flight.target = s.flight.map Flight.target
        ++ (if n = 128 then [] else if n % 8 = 0 then [128] else [n / 8 * 8, 128])
    ∧ (∀ f ∈ t.flight.drop s.flight.length, f.notice.w0 = noticeW0 7 (cause * 2 ^ 20 + n % 128)
        ∧ f.notice.w1 = BitVec.ofNat 32 (s.eng n).pc.toNat ∧ f.notice.w2 = BitVec.ofNat 32 addr.toNat)
    ∧ t = { s with engines := t.engines, faults := t.faults, flight := t.flight }

/-- Core n stopped with a fault before an instruction began to execute: its record is as it was. -/
def State.Faulted (s t : State) (n cause : Nat) (addr : Word) : Prop := s.Stopped t n (s.eng n) cause addr

/-- Core n stopped with a fault of an instruction that executed: one cycle passed at its multiplier and nothing else of the
instruction happened (R242, R251). -/
def State.Trapped (s t : State) (n cause : Nat) (addr : Word) : Prop := s.Stopped t n ((s.eng n).tick 1) cause addr

/-- Of the whole state, t differs from s in the record of core n alone. -/
def State.OnlyCore (s t : State) (n : Nat) : Prop :=
  t = { s with engines := t.engines } ∧ ∀ m, m ≠ n → t.eng m = s.eng m

/-- Bytes of the data memory of a core: 64 KiB of local D-SRAM, 256 KiB on the supervisor (R44, R255). -/
def ownSize (n : Nat) : Nat := if n = 128 then 0x40000 else 0x10000

/-- The key of byte a of the data memory of core n. -/
def ownKey (n a : Nat) : Nat := if n = 128 then supKey a else dKey n a

/-- The core went on by one instruction of one cycle that wrote v to register rd of the running slot (x0 discards it, R225):
pc is 4 further; no other register, no predicate and no other slot changed, and no special register but by what the
multiplier applied in that cycle (R242). A load in flight to rd delivers nothing more (log entry 14). -/
def Engine.Wrote (e f : Engine) (rd : Nat) (v : Word) : Prop :=
  (∀ r, f.x r = if r = rd ∧ r ≠ 0 then v else e.x r) ∧ f.pc = e.pc + 4#32 ∧ (∀ i, f.p i = e.p i)
    ∧ (∀ q, q ≠ e.cur → f.slot q = e.slot q)
    ∧ f.slot e.cur = { e.slot e.cur with pc := f.pc, xs := (f.slot e.cur).xs }
    ∧ f.outs.length = e.outs.length
    ∧ f = { e.tick 1 with xs := f.xs, slots := f.slots, outs := f.outs }

/-- The core went on by one instruction, of k cycles, and nothing else of it changed. -/
def Engine.Passed (e f : Engine) (k : Nat := 1) : Prop := f = (e.tick k).setPc (e.pc + 4#32)

/-- The core went on past a coprocessor instruction: it waits for the answer v, which goes to rd; with rd = x0 the
request to coprocessor k is posted and outstanding (R243). `txn` is the transaction of the link that the request crosses
(R40). Nothing else of it changed. -/
def Engine.Asked (e f : Engine) (k : Nat) (rd : BitVec 5) (v : Word) (txn : Option (Nat × Nat) := none) : Prop :=
  if rd = 0#5 then
    f = { (e.tick 1).setPc (e.pc + 4#32) with outs := e.outs ++ [{ target := 200 + k, txn := txn, kind := .posted }] }
  else f = { (e.tick 1).setPc (e.pc + 4#32) with wait := some (rd.toNat, v), waitTxn := txn }

/-- Core c may ask coprocessor k: with rd = x0 fewer than 8 accesses are outstanding (R234), and the link to the unit, if
there is one, takes the request (R40, R273, Table 9-8). -/
def State.MayAsk (s : State) (c : CoreId) (k : Nat) (rd : BitVec 5) : Prop :=
  (rd = 0#5 → (s.eng (coreNum c)).outs.length < 8) ∧ s.linkGrants (coreNum c) (copLink (coreNum c) k) = true

/-- The transaction of a request of core n to coprocessor k, and the state once the link has taken the request; none and s
itself where no link lies between them. -/
def State.asking (s : State) (n k : Nat) : Option (Nat × Nat) × State := s.linkEnter n (copLink n k)

/-! ## Registers -/

/-- Of the whole state, t differs from s in registers alone, and every register that `p` does not name is as it was. -/
def State.OnlyRegs (s t : State) (p : Nat → Prop) : Prop :=
  t = { s with regs := t.regs } ∧ ∀ a, ¬p a → t.reg a = s.reg a

/-! ## Memory, notices and the package -/

/-- No bit of the bytes [k, k + n), nor of their check bits, is wrong (R349). -/
def State.Clean (s : State) (k n : Nat) : Prop := ∀ j, k / 8 * 8 ≤ j → j < k + n → s.flipAt j = 0#72

/-- The package runs and no power state waits for the end of a change, so that what ends now starts no other (R342). -/
def State.Steady (s : State) : Prop := s.pkg.power = .run ∧ s.pkg.reqWait = 0

/-- A notice on its way to a core. -/
def flightTo (target kind low w1 w2 w3 : Nat) : Flight :=
  { target := target, notice := { w0 := noticeW0 kind low, w1 := BitVec.ofNat 32 w1, w2 := BitVec.ofNat 32 w2,
                                  w3 := BitVec.ofNat 32 w3 } }

/-- The TXDONE notice of a command of an engine or of the supervisor (R101): its status, chain and tag, its first symbol
and its duty charge. -/
def doneFlight (c : Nat) (x : TxCmd) (status : Nat) (first : Nat × Nat) (units : Nat) : Flight :=
  flightTo (match x.who with
      | .engine n => n
      | _ => 128) 2 (status * 2 ^ 24 + c * 2 ^ 23 + x.tag) first.1 first.2 units

/-- The command came from an engine or the supervisor and has been charged nothing. -/
def TxCmd.Plain (x : TxCmd) : Prop :=
  ((∃ n, x.who = .engine n) ∨ x.who = .sup) ∧ x.node = .none ∧ x.units = 0 ∧ x.uj = 0

/-- The n bytes from running count `count` on lie in one piece in the ring of tenant t in region r, from an aligned word
on, and no bit of them is wrong. -/
def State.RingFlat (s : State) (r t count n : Nat) : Prop :=
  (s.reg (aDECODER_RING_BASE r t)).toNat % 8 = 0 ∧ count % 8 = 0 ∧ count % s.ringSize r t + n ≤ s.ringSize r t
    ∧ s.Clean (s.ringKey r t count) n

/-- Of memory, only the bytes [k, k + n) may differ. -/
def State.OnlyBytes (s t : State) (k n : Nat) : Prop := ∀ j, j < k ∨ k + n ≤ j → t.byte j = s.byte j

/-- Power was cut from every domain but the always-on one, whose registers but `reg` are as they were (R30, R344): every
other register is at its reset value but the Burnisher's place (R357), every memory that is not kept is empty, every unit
is as after reset; `byp` is the level of LNA_A_BYP (R346). -/
structure State.Cut (s t : State) (deep : Bool) (reg : Nat) (byp : Bool := false) : Prop where
  on : ∀ a, alwaysOnReg a = true → a ≠ reg → t.reg a = s.reg a
  off : ∀ a, alwaysOnReg a = false → a ≠ aMEM_BURN_STATUS → t.reg a = regReset a
  empty : ∀ k, keptKey deep k = false → t.byte k = memDefault k
  cores : t.engines = [] ∧ t.clusters = [] ∧ t.flight = [] ∧ t.mono = 0
  units : t.decoder = {} ∧ t.relay = {} ∧ t.cinch = {} ∧ t.cipher = {} ∧ t.flash = {} ∧ t.timers = {} ∧ t.log = {}
  radio : t.radio = { ({} : RadioSt) with paths := t.radio.paths } ∧ t.path 0 = { lnaByp := byp } ∧ t.path 1 = {}
  rtc : t.rtc = { s.rtc with loading := false, shadows := [] }
  part : t.fuses = s.fuses ∧ t.variant = s.variant

/-- No write of several words is under way that a reset could cut: no page is being programmed, no node key record written,
no private key saved, no settings block replaced (R71, R300, R360, R366). -/
structure State.Uncut (s : State) : Prop where
  page : s.flashWrites = false
  records : ∀ r ∈ s.cipher.running, r.job.op < 13 ∨ 15 < r.job.op
  saves : ∀ x ∈ s.cipher.eccOps, x.2 ≠ .save
  settings : s.pkg.stage ≠ .settings

/-! ## The relay unit -/

/-- The relay unit may take entry e, which lies in one piece in its ring with no bit wrong; the entries behind it are
`rest`. -/
structure State.Takes (s : State) (e : RelayEntry) (rest : List RelayEntry) : Prop where
  front : s.relay.queue = e :: rest
  free : s.relay.job = none
  room : s.cipher.queue.length < 32
  rings : s.ringsFree = true
  region : e.region < 4
  tenant : e.tenant < 16
  flat : s.RingFlat e.region e.tenant e.start (entrySize e.len)

/-- The key of the first byte of an entry. -/
def State.entryKey (s : State) (e : RelayEntry) : Nat := s.ringKey e.region e.tenant e.start

/-- The PSDU bytes of an entry that lies in one piece. -/
def State.entryBytes (s : State) (e : RelayEntry) : List Byte := s.bytes (s.entryKey e + 32) e.len

/-- t holds the verdict `code` in word 7 of entry e; the status is SKIP where `skip` says so and else as it was in s; no
byte outside the entry changed. -/
def State.Judged (s t : State) (e : RelayEntry) (code : Nat) (skip : Bool) : Prop :=
  leNat (t.bytes (s.entryKey e + 28) 4) / 2 ^ 28 = code
    ∧ leNat (t.bytes (s.entryKey e + 20) 4) / 2 ^ 28
      = (if skip then 3 else leNat (s.bytes (s.entryKey e + 20) 4) / 2 ^ 28)
    ∧ s.OnlyBytes t (s.entryKey e) (32 + e.len)

/-- The FRAME notice of entry e for tenant t with a verdict (Table 10-5). -/
def State.frameFlight (s : State) (e : RelayEntry) (t code : Nat) : Flight :=
  flightTo (s.fget (fRELAY_TCFG_target t)) 1 (code * 2 ^ 24 + e.region * 2 ^ 22 + e.rx * 2 ^ 13 + e.len) (s.entryKey e)
    (s.fget (fDECODER_RING_WR_count e.region e.tenant)) 0

/-- A counting register field went up by one, modulo its width. -/
def State.Counted (s t : State) (f : Fld) : Prop := t.fget f = (s.fget f + 1) % 2 ^ f.width

/-- A counting register field went up by one and stays at its greatest value. -/
def State.Saturated (s t : State) (f : Fld) : Prop := t.fget f = satInc (2 ^ f.width - 1) (s.fget f)

/-! ## Command ports and cipher jobs -/

/-- The command of op at port p runs now: its block is there, its answer can be written in whole words of a memory with no
layout of its own, apart from what one unit alone writes, the port's turn has come, and the relay unit does not ask (R211). -/
structure State.PortHolds (s : State) (p : Nat) (x : PortCmd) (op : Nat) : Prop where
  held : s.portCmd p = some x
  code : x.w 0 / 2 ^ 28 = op
  size : x.blk.length = 48
  align : aliasAddr x.core x.addr % 8 = 0
  ready : s.portReady p = true
  turn : s.portPick = some p
  first : s.relayAsks = false
  powered : s.dieOff (aliasAddr x.core x.addr + 8) = false
  here : s.dmaKey x.core (aliasAddr x.core x.addr + 8) = some (aliasAddr x.core x.addr + 8)
  plain : s.noStore (aliasAddr x.core x.addr + 8) 40 = false

/-- The command at port p is answered (R212): the port is free and the one served last, word 3 of the block gives status, way and set, and the
completion notice is on its way behind `pre`. -/
def State.Answered (t : State) (p : Nat) (x : PortCmd) (op status way set : Nat) (pre : List Flight) : Prop :=
  t.portCmd p = none ∧ t.relay.lastPort = p
    ∧ t.bytes (aliasAddr x.core x.addr + 12) 4 = leBytes 4 (status + way * 2 ^ 5 + set * 2 ^ 8)
    ∧ t.flight = pre ++ [flightTo x.core 3 (op * 2 ^ 24 + status * 2 ^ 19 + p * 2 ^ 17 + x.w 0 % 2 ^ 16) x.addr 0 0]

/-- The next round of the arbiter for this op grants job i of the queue, j, on unit u; no queued job waits for lines of the
flash window, and no hardware master for an entry of the queue. -/
def State.Grants (s : State) (op i u : Nat) (j : Job) : Prop :=
  s.stageAsk = s ∧ s.cipher.waiting = [] ∧ s.freeUnit (decide (10 ≤ op ∧ op ≤ 12)) = some u
    ∧ s.nextJob (decide (10 ≤ op ∧ op ≤ 12)) = some (i, j) ∧ j.op = op

/-- Job i has left the queue and runs on unit u with what the grant gave it. -/
def State.Started (s t : State) (i u : Nat) (j : Job) (g : Granted) : Prop :=
  t.cipher.queue = s.cipher.queue.eraseIdx i
    ∧ t.cipher.running = s.cipher.running ++ [{ unit := u, job := j, slots := g.slots, status := g.status
                                                writes := g.writes, result := g.result, key := g.key }]

end Sys2Proof.Machine
end

