-- ==== Sys2Proof/WellFormed.lean ====
section
/-!
DEFINITION. Which commands are well formed: an operand that the width of its field admits, but that no command of the
part can have, is refused here. An ill-formed command is still a command: exec gives it no effect, or the effect of the
field's own rule; nothing in exec depends on this check.
-/

namespace Sys2Proof

/-- An address of the system register space, of a whole register (R10, R13). -/
def regAddrOk (a : Word) : Bool :=
  decide (0x10000000 ≤ a.toNat) && decide (a.toNat < 0x20000000) && decide (a.toNat % 4 = 0)

/-- A link of Table 1-5 (R39). -/
def linkOk (l : BitVec 3) : Bool := decide (l.toNat < 5)

/-- A slot of a frame (R200). -/
def slotOk (q : BitVec 12) : Bool := decide (q.toNat < 4000)

/-- The operands are among those that the command has. -/
def Instr.wf : Instr → Bool
  -- R10, R63: whole registers of the register space
  | .registerWrite _ a _ _ => regAddrOk a
  | .handover cfg _ _ => cfg.writes.all (fun w => regAddrOk w.1)
  -- R39: five links
  | .latigoTrainDone l => linkOk l
  | .latigoCrcError l _ => linkOk l
  | .latigoRetrainEnd l => linkOk l
  | .latigoTimeoutExpiry l _ => linkOk l
  | .latigoTransactionDone l _ => linkOk l
  -- R200: 4,000 slots
  | .slotStart q => slotOk q
  | .planWrite _ _ q _ => slotOk q
  | .beaconBuild q => slotOk q
  -- R279: the one system fence has 32 entries
  | .fenceWrite sys r e _ => !sys || (decide (e.toNat < 32) && r == 0#2)
  -- Table 3-5: nine steps
  | .frontEndStep _ k => decide (1 ≤ k.toNat) && decide (k.toNat ≤ 9)
  -- R123: 1,024 bins
  | .specDone bins => decide (bins.length = 1024)
  -- R132: the longest PSDU
  | .ingressLastSoftBit _ soft => decide (soft.length ≤ 8 * 511)
  -- R144: 12 contexts in each of 8 cores
  | .contextLoadDone x => decide (x.toNat < 96)
  | .contextStoreDone x => decide (x.toNat < 96)
  -- R302, R313: AES engines 0–3 and the ECC engine
  | .cipherJobComplete u => decide (u.toNat ≤ 4)
  | .jobAbort u => decide (u.toNat ≤ 4)
  -- Table 13-1: the counters that a meter feeds; the counters of the block and of 16 tenants
  | .meterSample k _ _ => decide (1 ≤ k.toNat) && decide (k.toNat ≤ 5)
  | .ledgerLowRead _ sel => decide (sel.toNat ≤ 10) || decide (16 ≤ sel.toNat)
  | .ledgerHighRead _ sel => decide (sel.toNat ≤ 10) || decide (16 ≤ sel.toNat)
  -- R347: a wake call of six bytes
  | .stirrupMatch w _ => decide (w.length = 6)
  -- R408: the start bytes of a recovery frame
  | .recoveryFrame f => f.take 2 == [0xA5#8, 0x5A#8]
  -- R411: a P-256 public key and signature
  | .debugUnlock _ key sig => decide (key.length = 64) && decide (sig.length = 64)
  | _ => true

end Sys2Proof
end

