-- ==== Sys2Proof/Certificates/Slice0/Obligations.lean ====
section
/-!
DEFINITION. The statements for the provers: what the commands of each family do and leave, what the whole machine keeps,
and what reset leaves. Each says in its docstring which rules of spec/ it rests on.
-/

open Sys2Proof Sys2Proof.Machine

/-- A step is `exec` of the oldest waiting command on the state with the rest of the queue; with none waiting the block
idles. The order of the queue and the idle step are the model's (log entries 1 and 2). -/
def Obligations.StepRunsFront : Prop :=
  (∀ (c : Instr) (s : State) (rest : List Instr),
      step { s with pending := c :: rest } = exec c { s with pending := rest })
    ∧ ∀ s : State, s.pending = [] → step s = .next s.idle

/-- Table 9-4, the functions of two registers: result, pc and frame. Tables 9-3 and 9-4, one source or an immediate: result, pc and frame. -/
def Obligations.AluFunctions : Prop :=
  (∀ (s : State) (c : CoreId) (p : Pred) (rd rs1 rs2 : BitVec 5), s.Issues c p [rs1, rs2] →
      let e := s.eng (coreNum c)
      let a := e.x rs1.toNat
      let b := e.x rs2.toNat
      let n := b.toNat % 32
      ∀ f ∈ [(Instr.add c p rd rs1 rs2, a + b), (.sub c p rd rs1 rs2, a - b), (.and c p rd rs1 rs2, a &&& b),
          (.or c p rd rs1 rs2, a ||| b), (.xor c p rd rs1 rs2, a ^^^ b), (.sll c p rd rs1 rs2, a <<< n),
          (.srl c p rd rs1 rs2, a >>> n), (.sra c p rd rs1 rs2, a.sshiftRight n), (.ror c p rd rs1 rs2, a.rotateRight n),
          (.slt c p rd rs1 rs2, if a.toInt < b.toInt then 1#32 else 0#32),
          (.sltu c p rd rs1 rs2, if a.toNat < b.toNat then 1#32 else 0#32),
          (.min c p rd rs1 rs2, if a.toInt ≤ b.toInt then a else b),
          (.max c p rd rs1 rs2, if a.toInt ≤ b.toInt then b else a),
          (.minu c p rd rs1 rs2, if a.toNat ≤ b.toNat then a else b),
          (.maxu c p rd rs1 rs2, if a.toNat ≤ b.toNat then b else a),
          (.andn c p rd rs1 rs2, a &&& ~~~b)],
        Runs f.1 s (fun t => s.OnlyCore t (coreNum c) ∧ e.Wrote (t.eng (coreNum c)) rd.toNat f.2))
    ∧ (∀ (s : State) (c : CoreId) (p : Pred) (rd rs1 : BitVec 5) (imm : BitVec 12) (sh : BitVec 5) (wide : BitVec 16),
      let e := s.eng (coreNum c)
      let a := e.x rs1.toNat
      let gives (uses : List (BitVec 5)) (i : Instr) (v : Word) : Prop :=
        s.Issues c p uses → Runs i s (fun t => s.OnlyCore t (coreNum c) ∧ e.Wrote (t.eng (coreNum c)) rd.toNat v)
      (∀ f ∈ [(Instr.addi c p rd rs1 imm, a + imm.signExtend 32), (.andi c p rd rs1 imm, a &&& imm.setWidth 32),
          (.ori c p rd rs1 imm, a ||| imm.setWidth 32), (.xori c p rd rs1 imm, a ^^^ imm.setWidth 32),
          (.slti c p rd rs1 imm, if a.toInt < imm.toInt then 1#32 else 0#32),
          (.sltiu c p rd rs1 imm, if a.toNat < (imm.signExtend 32).toNat then 1#32 else 0#32),
          (.slli c p rd rs1 sh, a <<< sh.toNat), (.srli c p rd rs1 sh, a >>> sh.toNat),
          (.srai c p rd rs1 sh, a.sshiftRight sh.toNat), (.rori c p rd rs1 sh, a.rotateRight sh.toNat),
          (.clz c p rd rs1, BitVec.ofNat 32 ((List.range 32).takeWhile (fun k => !a.getLsbD (31 - k))).length),
          (.popc c p rd rs1, BitVec.ofNat 32 ((List.range 32).filter (fun k => a.getLsbD k)).length),
          (.rev8 c p rd rs1, a.extractLsb' 0 8 ++ a.extractLsb' 8 8 ++ a.extractLsb' 16 8 ++ a.extractLsb' 24 8),
          (.sextb c p rd rs1, (a.extractLsb' 0 8).signExtend 32), (.sexth c p rd rs1, (a.extractLsb' 0 16).signExtend 32),
          (.zexth c p rd rs1, (a.extractLsb' 0 16).setWidth 32)],
        gives [rs1] f.1 f.2)
      ∧ gives [] (.movl c p rd wide) (wide.setWidth 32)
      ∧ gives [rd] (.movh c p rd wide) (wide ++ (e.x rd.toNat).extractLsb' 0 16))

/-- R232: what CMP, CMPI and PLOG leave in the predicates, and that cond 7 and op 3 are ILLEGAL. -/
def Obligations.PredicatesWritten : Prop :=
  ∀ (s : State) (c : CoreId) (p : Pred) (pd : BitVec 3) (comb : BitVec 2) (rs1 rs2 : BitVec 5) (cond : BitVec 3)
    (imm : BitVec 9) (pa pb : BitVec 3) (ainv binv : Bool) (op : BitVec 2),
    let n := coreNum c
    let e := s.eng n
    let wrote (v : Bool) (t : State) : Prop :=
      s.OnlyCore t n ∧ (t.eng n).pc = e.pc + 4#32 ∧ (∀ r, (t.eng n).x r = e.x r)
        ∧ ∀ i, i < 8 → (t.eng n).p i = if i = pd.toNat ∧ i ≠ 0 then v else e.p i
    let holds (a b : Word) : Bool :=
      match cond.toNat with
      | 0 => a == b
      | 1 => a != b
      | 2 => decide (a.toInt < b.toInt)
      | 3 => decide (b.toInt ≤ a.toInt)
      | 4 => decide (a.toNat < b.toNat)
      | 5 => decide (b.toNat ≤ a.toNat)
      | _ => a &&& b != 0#32
    let under (x : Bool) : Bool :=
      match comb.toNat with
      | 0 => x
      | 1 => e.p pd.toNat && x
      | 2 => e.p pd.toNat || x
      | _ => e.p pd.toNat && !x
    let a' := Bool.xor (e.p pa.toNat) ainv
    let b' := Bool.xor (e.p pb.toNat) binv
    (cond ≠ 7#3 → s.Issues c p [rs1, rs2] →
      Runs (.cmp c p pd comb rs1 rs2 cond) s (wrote (under (holds (e.x rs1.toNat) (e.x rs2.toNat)))))
    ∧ (cond ≠ 7#3 → s.Issues c p [rs1] →
      Runs (.cmpi c p pd comb rs1 cond imm) s (wrote (under (holds (e.x rs1.toNat) (imm.signExtend 32)))))
    ∧ (op ≠ 3#2 → s.Issues c p [] →
      Runs (.plog c p pd pa ainv pb binv op) s
        (wrote (if op = 0#2 then a' && b' else if op = 1#2 then a' || b' else Bool.xor a' b')))
    ∧ (s.Issues c p [] → ∀ i ∈ [Instr.cmp c p pd comb rs1 rs2 7#3, .cmpi c p pd comb rs1 7#3 imm,
        .plog c p pd pa ainv pb binv 3#2],
      Runs i s (fun t => s.Faulted t n 1 0#32))

/-- R230: an instruction executes when p[psel] XOR pinv is 1; else pc moves and its cycles pass. -/
def Obligations.PredicatedOff : Prop :=
  (∀ (s : State) (i : Instr) (c : CoreId) (p : Pred) (uses : List (BitVec 5)), i.finhit = some (c, p, uses) →
    s.Fetches c → i.illegalIn s = false → (∀ r ∈ uses, (s.eng (coreNum c)).inFlight r.toNat = false) →
    (Bool.xor ((s.eng (coreNum c)).p p.sel.toNat) p.inv = false →
      Runs i s (fun t => s.OnlyCore t (coreNum c) ∧ (s.eng (coreNum c)).Passed (t.eng (coreNum c)) (i.cycles s)))
    ∧ (Bool.xor ((s.eng (coreNum c)).p p.sel.toNat) p.inv = true → exec i s = exec (i.underPred ⟨0#3, false⟩) s))
  ∧ ∀ e : Engine, Bool.xor (e.p 0) true = false

/-- R231, R234, R251, R253: faults and stalls that do not depend on the predicate. -/
def Obligations.FaultsBeforePredicate : Prop :=
  ∀ (s : State) (i : Instr) (c : CoreId) (p : Pred) (uses : List (BitVec 5)), i.finhit = some (c, p, uses) →
    let n := coreNum c
    let e := s.eng n
    (e.canIssue = false → exec i s = .next s)
    ∧ (e.canIssue = true → iLimit n ≤ e.pc.toNat → Runs i s (fun t => s.Faulted t n 2 e.pc))
    ∧ (let w := fetched (s.word64 (fetchKey n e.pc)).1 e.pc
      let m := bitsN w 27 22
      e.canIssue = true → e.pc.toNat < iLimit n → (s.word64 (fetchKey n e.pc)).2 = .ok →
      (m ∈ [0x16, 0x17, 0x1E, 0x1F, 0x23, 0x3C, 0x3D, 0x3E] ∨ (0x27 ≤ m ∧ m ≤ 0x37)
        ∨ (m = 0x00 ∧ (0x16 ≤ bitsN w 6 0 ∨ (0x10 ≤ bitsN w 6 0 ∧ bitsN w 11 7 ≠ 0))) ∨ (m = 0x0D ∧ 3 ≤ bitsN w 6 0)
        ∨ (m = 0x0A ∧ bitsN w 6 4 = 7) ∨ (m = 0x0B ∧ bitsN w 11 9 = 7)
        ∨ (0x38 ≤ m ∧ m ≤ 0x3B ∧ 64 ≤ bitsN w 6 0)) →
      Runs i s (fun t => s.Faulted t n 1 0#32))
    ∧ (s.Fetches c → i.illegalIn s = true → Runs i s (fun t => s.Faulted t n 1 0#32))
    ∧ (s.Fetches c → i.illegalIn s = false → (∃ r ∈ uses, e.inFlight r.toNat = true) → exec i s = .next s)

/-- R241, R242: issue and apply. R226 and Table 9-1 for MFS and MTS. -/
def Obligations.MultiplierAndSpecials : Prop :=
  (∀ (s : State) (c : CoreId) (p : Pred) (rs1 rs2 : BitVec 5) (op : MulOp) (left : Nat) (rest : List (MulOp × Nat)),
      let n := coreNum c
      let e := s.eng n
      let a := e.x rs1.toNat
      let b := e.x rs2.toNat
      let mac := match op with
        | .mul x y => BitVec.ofInt 64 (x.toInt * y.toInt)
        | .mulu x y => BitVec.ofNat 64 (x.toNat * y.toNat)
        | .mac x y => BitVec.ofInt 64 (e.mac.toInt + x.toInt * y.toInt)
        | .setLo x => e.mac.extractLsb' 32 32 ++ x
        | .setHi x => x ++ e.mac.extractLsb' 0 32
      (s.Issues c p [rs1, rs2] → ∀ f ∈ [(Instr.mul c p rs1 rs2, MulOp.mul a b), (.mulu c p rs1 rs2, .mulu a b),
          (.mac c p rs1 rs2, .mac a b)],
        Runs f.1 s (fun t => s.OnlyCore t n
          ∧ t.eng n = { (e.tick 1).setPc (e.pc + 4#32) with mulq := (e.tick 1).mulq ++ [(f.2, 3)] }))
      ∧ (∀ j, e.mulq = (op, left) :: rest →
          (j < left → (e.tick j).mac = e.mac ∧ (e.tick j).mulq = e.mulq.map (fun x => (x.1, x.2 - j)))
          ∧ (left ≤ j → e.tick j = ({ e with mulq := rest, mac := mac } : Engine).tick j))
      ∧ (e.mulq = (op, left) :: rest → (left ≤ 1 ∨ e.canIssue = false ∨ e.outs ≠ []) →
        Runs (.multiplierUpdate c) s (fun t => s.OnlyCore t n ∧ t.eng n = { e with mulq := rest, mac := mac }))
      ∧ (e.mulq = (op, left) :: rest → 2 ≤ left → e.canIssue = true → e.outs = [] →
        Runs (.multiplierUpdate c) s (fun t => s.OnlyCore t n ∧ t.eng n = e))
      ∧ (e.mulq = [] → Runs (.multiplierUpdate c) s (fun t => s.OnlyCore t n ∧ t.eng n = e)))
    ∧ (∀ (s : State) (c : CoreId) (p : Pred) (rd rs1 : BitVec 5),
      let n := coreNum c
      let e := s.eng n
      let cyc := s.cyclo (coreCluster n)
      let v := e.x rs1.toNat
      let passed := (e.tick 1).setPc (e.pc + 4#32)
      (s.Issues c p [] →
        (∀ f ∈ [(0#5, (e.tick 1).mac.extractLsb' 0 32), (1#5, (e.tick 1).mac.extractLsb' 32 32), (4#5, e.cychi),
            (5#5, if n = 128 then 0xFFFFFFFF#32 else BitVec.ofNat 32 (n + 256 * s.engTenant n)),
            (6#5, BitVec.ofNat 32 e.cur)],
          Runs (.mfs c p rd f.1) s (fun t => s.OnlyCore t n ∧ e.Wrote (t.eng n) rd.toNat f.2))
        ∧ Runs (.mfs c p rd 2#5) s (fun t => s.OnlyCore t n ∧ ∃ w : Word, e.Wrote (t.eng n) rd.toNat w
            ∧ w.toNat < 256 ∧ ∀ i, i < 8 → w.getLsbD i = e.p i)
        ∧ Runs (.mfs c p rd 3#5) s (fun t => s.OnlyCore t n
            ∧ ({ e with cychi := BitVec.ofNat 32 (cyc / 2 ^ 32) } : Engine).Wrote (t.eng n) rd.toNat
              (BitVec.ofNat 32 cyc)))
      ∧ (s.Issues c p [rs1] →
        Runs (.mts c p 0#5 rs1) s (fun t => s.OnlyCore t n ∧ t.eng n = { passed with mulq := passed.mulq ++ [(.setLo v, 3)] })
        ∧ Runs (.mts c p 1#5 rs1) s (fun t => s.OnlyCore t n ∧ t.eng n = { passed with mulq := passed.mulq ++ [(.setHi v, 3)] })
        ∧ Runs (.mts c p 2#5 rs1) s (fun t => s.OnlyCore t n ∧ (t.eng n).pc = e.pc + 4#32
            ∧ (∀ r, (t.eng n).x r = e.x r) ∧ ∀ i, i < 8 → (t.eng n).p i = if i = 0 then true else v.getLsbD i)
        ∧ ∀ k ∈ [3#5, 4#5, 5#5, 6#5], Runs (.mts c p k rs1) s (fun t => s.OnlyCore t n ∧ t.eng n = passed)))

/-- R236: B, CALL, JALR, their FETCH fault, and FENCE of R234. R260, R254, R249, R250. The trace words of R413; when the
stream runs is log entry 79. -/
def Obligations.ControlFlow : Prop :=
  (∀ (s : State) (c : CoreId) (p : Pred) (rd rs1 : BitVec 5) (imm : BitVec 12) (off : BitVec 22),
      let n := coreNum c
      let e := s.eng n
      let near := e.pc + 4#32 * off.signExtend 32
      let far := (e.x rs1.toNat + imm.signExtend 32) &&& 0xFFFFFFFC#32
      let went (target : Word) (rd : Nat) (t : State) : Prop :=
        (if n = 128 then s.traceBranch target else s).OnlyCore t n ∧ (t.eng n).pc = target ∧ (∀ i, (t.eng n).p i = e.p i)
          ∧ ∀ r, (t.eng n).x r = if r = rd ∧ r ≠ 0 then e.pc + 4#32 else e.x r
      (s.Issues c p [] → near.toNat < iLimit n →
        Runs (.b c p off) s (went near 0) ∧ Runs (.call c p off) s (went near 31))
      ∧ (s.Issues c p [] → iLimit n ≤ near.toNat →
        Runs (.b c p off) s (fun t => s.Trapped t n 2 near) ∧ Runs (.call c p off) s (fun t => s.Trapped t n 2 near))
      ∧ (s.Issues c p [rs1] → far.toNat < iLimit n → Runs (.jalr c p rd rs1 imm) s (went far rd.toNat))
      ∧ (s.Issues c p [rs1] → iLimit n ≤ far.toNat → Runs (.jalr c p rd rs1 imm) s (fun t => s.Trapped t n 2 far))
      ∧ (s.Issues c p [] → e.outs = [] → Runs (.fence c p) s (fun t => s.OnlyCore t n ∧ e.Passed (t.eng n)))
      ∧ (s.Issues c p [] → e.outs ≠ [] → Runs (.fence c p) s (fun t => t = s)))
    ∧ (∀ (s : State) (c : CoreId) (p : Pred) (rd rs1 rs2 : BitVec 5) (code : BitVec 16) (idx : BitVec 4) (k : BitVec 3)
      (ops : List Nat),
      let n := coreNum c
      let e := s.eng n
      let sl := e.slot e.cur
      let d := ops.foldl (dtabStep (e.x rs1.toNat) (e.x rs2.toNat) (k.setWidth 32)) {}
      (s.Issues c p [] → (∀ q ∈ e.slots, q.1 ≠ e.cur → q.2.st ≠ .ready) → sl.offDue = false → keysRise e.slots = true →
        (sl.pend = false → Runs (.yield c p true) s (fun t => (t.eng n).run = .idle
          ∧ (t.eng n).slot e.cur =
              { sl with st := .waiting, pc := e.pc + 4#32, cancelDue := false, why.yielded := false }
          ∧ (∀ q, q ≠ e.cur → (t.eng n).slot q = e.slot q) ∧ t = { s with engines := t.engines, age := s.age + 1 }))
        ∧ (sl.cancelDue = false → Runs (.yield c p false) s (fun t => (t.eng n).run = .running ∧ (t.eng n).cur = e.cur
          ∧ (t.eng n).pc = e.pc + 4#32 ∧ (t.eng n).x 1 = reasonWord { sl.why with yielded := true }
          ∧ (∀ r, r ≠ 1 → (t.eng n).x r = e.x r) ∧ t = { s with engines := t.engines, age := s.age + 1 })))
      ∧ (s.Issues c p [] → (s.fon fSYS_DBG_attached = false ∨ s.fget fSYS_DBG_scope = 0) →
        Runs (.brk c p code) s (fun t => s.Trapped t n 6 (code.setWidth 32)))
      ∧ (s.Issues c p [] → s.fon fSYS_DBG_attached = true → s.fget fSYS_DBG_scope ≠ 0 →
        Runs (.brk c p code) s (fun t => (t.eng n).dbgStop = true ∧ (t.eng n).pc = e.pc + 4#32
          ∧ (∀ r, (t.eng n).x r = e.x r) ∧ ∀ m, m ≠ n → t.eng m = s.eng m))
      ∧ (s.Issues c p [rs1, rs2] → s.variant = .sln4512 → n < 128 → s.dtabEntry (clusterOf n) idx.toNat = some ops →
        Runs (.dtab c p rd rs1 rs2 idx k) s (fun t => s.OnlyCore t n
          ∧ (∀ v, d.rd = some v → (e.tick (ops.length - 1)).Wrote (t.eng n) rd.toNat v)
          ∧ (d.rd = none → e.Passed (t.eng n) ops.length))))
    ∧ ∀ (s : State) (target : Word),
      let q := s.traceLeft
      let t := s.traceBranch target
      let w := target.extractLsb' 2 16
      (s.tracing = false → t = s)
      ∧ (s.tracing = true → t = { s with wired := { s.wired with trace := t.wired.trace } }
        ∧ (s.wired.trace.lost = false → q.length < 256 → t.traceLeft = q ++ [w] ∧ t.wired.trace.lost = false)
        ∧ (s.wired.trace.lost = true → q.length < 255 → t.traceLeft = q ++ [0xFFFE#16, w] ∧ t.wired.trace.lost = false)
        ∧ ((if s.wired.trace.lost then 255 else 256) ≤ q.length → t.traceLeft = q ∧ t.wired.trace.lost = true))

/-- R228, R233, R235: the six loads from the core's own memory, with their frame. -/
def Obligations.OwnLoads : Prop :=
  ∀ (s : State) (c : CoreId) (p : Pred) (rd rs1 : BitVec 5) (imm : BitVec 12), s.Issues c p [rs1] →
    let n := coreNum c
    let e := s.eng n
    let a := (e.x rs1.toNat + imm.signExtend 32).toNat
    let k := ownKey n a
    a < ownSize n → s.flipAt (k / 8 * 8) = 0#72 →
    (∀ f ∈ [(Instr.lb c p rd rs1 imm, 1, (BitVec.ofNat 8 (s.num k 1)).signExtend 32),
        (.lbu c p rd rs1 imm, 1, BitVec.ofNat 32 (s.num k 1)),
        (.lh c p rd rs1 imm, 2, (BitVec.ofNat 16 (s.num k 2)).signExtend 32),
        (.lhu c p rd rs1 imm, 2, BitVec.ofNat 32 (s.num k 2)), (.lw c p rd rs1 imm, 4, s.word k)],
      a % f.2.1 = 0 → Runs f.1 s (fun t => s.OnlyCore t n ∧ (e.tick (e.dport - 1)).Wrote (t.eng n) rd.toNat f.2.2))
    ∧ (a % 8 = 0 → rd.toNat % 2 = 0 → Runs (.ldp c p rd rs1 imm) s (fun t => s.OnlyCore t n
        ∧ (t.eng n).pc = e.pc + 4#32 ∧ (∀ i, (t.eng n).p i = e.p i)
        ∧ ∀ r, (t.eng n).x r =
            if r = rd.toNat ∧ r ≠ 0 then s.word k else if r = rd.toNat + 1 then s.word (k + 4) else e.x r))

/-- R228, R235, R352, R353: the four stores to the core's own memory, with the frame of memory. -/
def Obligations.OwnStores : Prop :=
  ∀ (s : State) (c : CoreId) (p : Pred) (rs2 rs1 : BitVec 5) (imm : BitVec 12),
    let n := coreNum c
    let e := s.eng n
    let a := (e.x rs1.toNat + imm.signExtend 32).toNat
    let k := ownKey n a
    let stored (size v : Nat) (t : State) : Prop :=
      t.bytes k size = leBytes size v ∧ (∀ j, j < k ∨ k + size ≤ j → t.byte j = s.byte j)
        ∧ t.flipAt (k / 8 * 8) = 0#72 ∧ (∀ j, j ≠ k / 8 * 8 → t.flipAt j = s.flipAt j)
        ∧ t.eng n = { (e.tick (max 1 e.dport)).setPc (e.pc + 4#32) with dport := if size = 8 then 0 else 3 }
        ∧ (∀ m, m ≠ n → t.eng m = s.eng m)
        ∧ t = { s with mem := t.mem, upkeep := t.upkeep, engines := t.engines }
    a < ownSize n → e.flip.armed = false → s.fon fMEM_FLIP_armed = false →
    (s.Issues c p [rs1, rs2] → s.flipAt (k / 8 * 8) = 0#72 →
      ∀ f ∈ [(Instr.sb c p rs2 rs1 imm, 1), (.sh c p rs2 rs1 imm, 2), (.sw c p rs2 rs1 imm, 4)],
        a % f.2 = 0 → Runs f.1 s (stored f.2 (e.x rs2.toNat).toNat))
    ∧ (s.Issues c p [rs1, rs2, rs2 + 1#5] → a % 8 = 0 → rs2.toNat % 2 = 0 →
      Runs (.sdp c p rs2 rs1 imm) s (stored 8 ((e.x rs2.toNat).toNat + (e.x (rs2.toNat + 1)).toNat * 2 ^ 32)))

/-- R233, R44, R45, R253: the ALIGN and ACCESS faults of the ten loads and stores. -/
def Obligations.AlignAndAccess : Prop :=
  ∀ (s : State) (c : CoreId) (p : Pred) (r rs1 : BitVec 5) (imm : BitVec 12),
    let n := coreNum c
    let a := ((s.eng n).x rs1.toNat + imm.signExtend 32).toNat
    let loads := [(Instr.lb c p r rs1 imm, 1, [rs1]), (.lbu c p r rs1 imm, 1, [rs1]), (.lh c p r rs1 imm, 2, [rs1]),
      (.lhu c p r rs1 imm, 2, [rs1]), (.lw c p r rs1 imm, 4, [rs1]), (.ldp c p r rs1 imm, 8, [rs1])]
    let stores := [(Instr.sb c p r rs1 imm, 1, [rs1, r]), (.sh c p r rs1 imm, 2, [rs1, r]), (.sw c p r rs1 imm, 4, [rs1, r]),
      (.sdp c p r rs1 imm, 8, [rs1, r, r + 1#5])]
    let traps (f : Instr × Nat × List (BitVec 5)) (cause : Nat) : Prop :=
      s.Issues c p f.2.2 → (f.2.1 = 8 → r.toNat % 2 = 0) → Runs f.1 s (fun t => s.Trapped t n cause (BitVec.ofNat 32 a))
    (∀ f ∈ loads ++ stores, a % f.2.1 ≠ 0 → traps f 5)
    ∧ (∀ f ∈ loads ++ stores, a % f.2.1 = 0 → 0x20000000 ≤ a → traps f 3)
    ∧ (∀ f ∈ stores, a % f.2.1 = 0 → 0x08000000 ≤ a → a < 0x10000000 → traps f 3)

/-- R234: issue and completion of an access outside local D-SRAM. -/
def Obligations.RemoteAccesses : Prop :=
  ∀ (s : State) (c : CoreId) (p : Pred) (rd rs1 : BitVec 5) (imm : BitVec 12) (i : BitVec 3) (o : OutAcc),
    let n := coreNum c
    let e := s.eng n
    let a := (e.x rs1.toNat + imm.signExtend 32).toNat
    let b := aliasAddr n a
    let near := a % 4 = 0 ∧ 0x01000000 ≤ a ∧ a < 0x01800000 ∧ n < 128 ∧ s.regionUp (regionOf n) = true
      ∧ s.isClearing b = false ∧ s.flipAt (b / 8 * 8) = 0#72
    (near → s.Issues c p [rs1] → s.fenceOk (s.engTenant n) b 4 false = true → e.outs.length < 8 →
      Runs (.lw c p rd rs1 imm) s (fun t => s.OnlyCore t n ∧ (t.eng n).pc = e.pc + 4#32
        ∧ (∀ r, (t.eng n).x r = e.x r) ∧ (t.eng n).outs.length = e.outs.length + 1
        ∧ (t.eng n).outs.getLast? = some { target := regionOf n, txn := none, kind := .load e.cur rd.toNat (s.word b) }))
    ∧ (near → s.Issues c p [rs1, rd] → s.fenceOk (s.engTenant n) b 4 true = true → e.outs.length < 8 →
      Runs (.sw c p rd rs1 imm) s (fun t => t.word b = e.x rd.toNat ∧ (∀ j, j < b ∨ b + 4 ≤ j → t.byte j = s.byte j)
        ∧ (t.eng n).pc = e.pc + 4#32
        ∧ (t.eng n).outs = e.outs ++ [{ target := regionOf n, txn := none, kind := .posted }]
        ∧ ∀ r, (t.eng n).x r = e.x r))
    ∧ (near → s.Issues c p [rs1, rd] → e.outs.length = 8 →
      exec (.lw c p rd rs1 imm) s = .next s ∧ exec (.sw c p rd rs1 imm) s = .next s)
    ∧ (n = 128 → s.Issues c p [rs1, rd] → a % 4 = 0 → nodeOwned a 4 = true → s.unlaid a 4 = false → s.isClearing a = false →
      e.outs.length < 8 → Runs (.sw c p rd rs1 imm) s (fun t => t.mem = s.mem ∧ s.OnlyCore t n ∧ (t.eng n).pc = e.pc + 4#32
        ∧ (t.eng n).outs = e.outs ++ [{ target := targetOf a, txn := none, kind := .posted }]))
    ∧ (e.outs[i.toNat]? = some o → o.txn = none → (∀ q ∈ e.outs.take i.toNat, q.target ≠ o.target) →
      (∀ slot r v, (o.kind = .load slot r v ∨ o.kind = .io slot r v) → Runs (.remoteAccessComplete c i) s (fun t =>
        s.OnlyCore t n ∧ (t.eng n).outs = e.outs.eraseIdx i.toNat ∧ (slot = e.cur ∨ r < 16 → r ≠ 0 → (t.eng n).x r = v)
        ∧ ∀ q, q ≠ r → (t.eng n).x q = e.x q))
      ∧ (∀ slot r lo hi, o.kind = .loadPair slot r lo hi → Runs (.remoteAccessComplete c i) s (fun t =>
        s.OnlyCore t n ∧ (t.eng n).outs = e.outs.eraseIdx i.toNat
        ∧ (slot = e.cur ∨ r < 16 → r ≠ 0 → (t.eng n).x r = lo) ∧ (slot = e.cur ∨ r + 1 < 16 → (t.eng n).x (r + 1) = hi)
        ∧ ∀ q, q ≠ r → q ≠ r + 1 → (t.eng n).x q = e.x q))
      ∧ (o.kind = .posted → Runs (.remoteAccessComplete c i) s (fun t => s.OnlyCore t n
        ∧ t.eng n = { e with outs := e.outs.eraseIdx i.toNat })))
    ∧ ((e.outs[i.toNat]? = none ∨ ∃ o, e.outs[i.toNat]? = some o ∧ (o.ready = false
          ∨ ∃ q ∈ e.outs.take i.toNat, q.target = o.target)) → exec (.remoteAccessComplete c i) s = .next s)

/-- R47, R243: two ports read and written, and the ports that raise IO. -/
def Obligations.PortsInAndOut : Prop :=
  ∀ (s : State) (c : CoreId) (p : Pred) (r rs1 : BitVec 5) (imm : BitVec 12),
    let n := coreNum c
    let e := s.eng n
    let port := ((e.x rs1.toNat) + imm.signExtend 32).toNat % 65536
    let reads (q : State → Prop) : Prop := s.Issues c p [rs1] → Runs (.inPort c p r rs1 imm) s q
    let writes (q : State → Prop) : Prop := s.Issues c p [rs1, r] → Runs (.outPort c p r rs1 imm) s q
    (e.outs.length < 8 → port = 0x18 →
      reads (fun t => s.OnlyCore t n ∧ e.Wrote (t.eng n) r.toNat e.nq.route0)
      ∧ writes (fun t => s.OnlyCore t n
        ∧ t.eng n = { (e.tick 1).setPc (e.pc + 4#32) with nq := { e.nq with route0 := e.x r.toNat } }))
    ∧ (e.outs.length < 8 → port = 0x19 →
      reads (fun t => s.OnlyCore t n ∧ e.Wrote (t.eng n) r.toNat e.nq.route1)
      ∧ writes (fun t => s.OnlyCore t n
        ∧ t.eng n = { (e.tick 1).setPc (e.pc + 4#32) with nq := { e.nq with route1 := e.x r.toNat } }))
    ∧ (portFault n port = false → e.outs.length < 8 →
      (inLink n port = none → reads (fun t => (t.eng n).pc = e.pc + 4#32
        ∧ (r ≠ 0#5 → (t.eng n).x r.toNat = ((s.setEng n (e.tick 1)).portIn n port).1)))
      ∧ (inLink n port ≠ none → s.linkGrants n (inLink n port) = true → reads (fun t =>
        (t.eng n).pc = e.pc + 4#32 ∧ (t.eng n).outs.length = e.outs.length + 1))
      ∧ (s.linkGrants n (portLink n port (e.x r.toNat).toNat) = true → writes (fun t =>
        ∃ u : State, (u.eng n).pc = e.pc + 4#32 ∧ (∀ m, m ≠ n → u.eng m = s.eng m)
          ∧ u = { s with engines := u.engines, regs := u.regs, pkg := u.pkg } ∧ t = u.portOut n port (e.x r.toNat))))
    ∧ ((n < 128 ∧ 0x1000 ≤ port) ∨ (0x300 ≤ port ∧ port < 0x380) →
      reads (fun t => s.Trapped t n 4 (BitVec.ofNat 32 port)) ∧ writes (fun t => s.Trapped t n 4 (BitVec.ofNat 32 port)))

/-- R243, R246, Table 9-10: all eleven ports of coprocessor 2. -/
def Obligations.CrcAndBits : Prop :=
  ∀ (s : State) (c : CoreId) (p : Pred) (rd rs1 rs2 : BitVec 5), s.Issues c p [rs1, rs2] →
    let n := coreNum c
    let e := s.eng n
    let a := e.x rs1.toNat
    let b := e.x rs2.toNat
    let crc (w : Word) : Engine := { e with crc := w }
    let c32b := BitVec.ofNat 32 (crc32Byte e.crc.toNat (a.extractLsb' 0 8))
    let c32w := BitVec.ofNat 32 ((leBytes 4 a.toNat).foldl crc32Byte e.crc.toNat)
    let c16 := crc16Byte (b.toNat % 65536) (b.getLsbD 16) (e.crc.toNat % 65536) (a.extractLsb' 0 8)
    let c8 := crc8Byte (e.crc.toNat % 256) (a.extractLsb' 0 8)
    let pn := pn9Run 8 e.pn.toNat
    s.MayAsk c 2 rd →
    ∀ f ∈ [(Instr.crcInit c p rd rs1 rs2, 0#32, crc a), (.crc32B c p rd rs1 rs2, ~~~c32b, crc c32b),
        (.crc32W c p rd rs1 rs2, ~~~c32w, crc c32w),
        (.crc16B c p rd rs1 rs2, BitVec.ofNat 32 c16, crc (e.crc.extractLsb' 16 16 ++ BitVec.ofNat 16 c16)),
        (.crc8B c p rd rs1 rs2, BitVec.ofNat 32 c8, crc (e.crc.extractLsb' 8 24 ++ BitVec.ofNat 8 c8)),
        (.pn9 c p rd rs1 rs2, BitVec.ofNat 32 pn.1, { e with pn := BitVec.ofNat 9 pn.2 }),
        (.pn9Init c p rd rs1 rs2, 0#32, { e with pn := a.extractLsb' 0 9 }),
        (.golayEnc c p rd rs1 rs2, BitVec.ofNat 32 (golayEnc (a.toNat % 4096)), e),
        (.golayDec c p rd rs1 rs2, (match golayDec (a.toNat % 2 ^ 24) with
          | some (i, k) => BitVec.ofNat 32 (i + k * 2 ^ 12)
          | none => 0x8000#32), e),
        (.brev c p rd rs1 rs2, brev a, e), (.crcRd c p rd rs1 rs2, e.crc, e)],
      Runs f.1 s (fun t => s.OnlyCore t n ∧ f.2.2.Asked (t.eng n) 2 rd f.2.1)

/-- R133, R134: the code of the PHY header. -/
def Obligations.GolayCorrectsThree : Prop :=
  ∀ i : Nat, i < 4096 →
    golayEnc i < 2 ^ 24 ∧ golayEnc i / 4096 = i ∧ golayRem 12 (golayEnc i / 2) = 0 ∧ onesBelow 24 (golayEnc i) % 2 = 0
      ∧ ∀ x : Nat, x < 2 ^ 24 →
        (onesBelow 24 x ≤ 3 → golayDec (Nat.xor (golayEnc i) x) = some (i, onesBelow 24 x))
        ∧ (onesBelow 24 x = 4 → golayDec (Nat.xor (golayEnc i) x) = none)

/-- R243, R245, R152, R302: coprocessors 0 and 1, and COP_ANSWER. -/
def Obligations.CipherAndRingPorts : Prop :=
  ∀ (s : State) (c : CoreId) (p : Pred) (rd rs1 rs2 : BitVec 5) (w : BitVec 2) (x : Word) (fifo : List Word)
    (d : List Byte),
    let n := coreNum c
    let e := s.eng n
    let a := e.x rs1.toNat
    let r := regionOf n
    let t := s.engTenant n
    let ask := s.asking n 0
    let rdNow := s.fget (fDECODER_RING_RD_count r t)
    let back (v : Nat) : Nat := (v + 2 ^ 24 - rdNow) % 2 ^ 24
    let v := a.toNat % 2 ^ 24
    let desc := aliasAddr n a.toNat
    let who : Option Nat := if n = 128 then none else some t
    let j0 := jobOf (.core n e.cur) who desc (s.reqPrio n e) d
    let j : Job := { j0 with src := aliasAddr n j0.src, dst := aliasAddr n j0.dst, iv := aliasAddr n j0.iv
                             aad := aliasAddr n j0.aad, ctxa := aliasAddr n j0.ctxa }
    let jobs (u : Option Nat) : Nat := (s.cipher.queue.filter (fun q => q.tenant == u)).length
    let runs (u : Option Nat) : Nat := (s.cipher.running.filter (fun q => q.job.tenant == u)).length
    (s.Issues c p [rs1, rs2] → s.MayAsk c 1 rd → n < 128 →
      (∀ f ∈ [(Instr.ringRd c p rd rs1 rs2, s.reg (aDECODER_RING_RD r t)),
          (.ringWr c p rd rs1 rs2, s.reg (aDECODER_RING_WR r t)), (.tq c p rd rs1 rs2, s.tqStatus r t),
          (.fcount c p rd rs1 rs2 w, s.reg (aDECODER_FCOUNT_w0 t r + 4 * w.toNat))],
        Runs f.1 s (fun u => s.OnlyCore u n ∧ e.Asked (u.eng n) 1 rd f.2))
      ∧ (back v ≤ back (s.fget (fDECODER_RING_WR_count r t)) →
          (∀ f ∈ s.decoder.frames, f.2.region = r → f.2.tenant = t → back v ≤ back f.2.start) →
          Runs (.free c p rd rs1 rs2) s (fun u => e.Asked (u.eng n) 1 rd 0#32
            ∧ u.fget (fDECODER_RING_RD_count r t) = v ∧ u.fget (fDECODER_TQ_STATUS_rd_err t r) = 0
            ∧ u = { s with regs := u.regs, engines := u.engines }))
      ∧ (back (s.fget (fDECODER_RING_WR_count r t)) < back v →
          Runs (.free c p rd rs1 rs2) s (fun u => e.Asked (u.eng n) 1 rd 1#32
            ∧ u.fget (fDECODER_RING_RD_count r t) = rdNow ∧ u.fget (fDECODER_TQ_STATUS_rd_err t r) = 1
            ∧ u = { s with regs := u.regs, engines := u.engines })))
    ∧ (s.Issues c p [rs1, rs2] → s.MayAsk c 0 rd →
      (s.cipher.fifo = x :: fifo → Runs (.rand c p rd rs1 rs2) s (fun u => e.Asked (u.eng n) 0 rd (0x80000000#32 ||| x) ask.1
        ∧ u.cipher = { s.cipher with fifo := fifo } ∧ u = { ask.2 with cipher := u.cipher, engines := u.engines }))
      ∧ (s.cipher.fifo = [] → Runs (.rand c p rd rs1 rs2) s (fun u => e.Asked (u.eng n) 0 rd 0#32 ask.1
        ∧ u = { ask.2 with engines := u.engines }))
      ∧ Runs (.qstat c p rd rs1 rs2) s (fun u => e.Asked (u.eng n) 0 rd (BitVec.ofNat 32 (jobs who * 256 + runs who)) ask.1
        ∧ u = { ask.2 with engines := u.engines } ∧ ∀ m, m ≠ n → u.eng m = s.eng m)
      ∧ (a.toNat % 8 = 0 → s.dmaWaits n (desc, 32) = false → s.dmaRead who n desc 32 = (some d, s) → descBad d = false →
          j.lengthOk = true → s.keyColumn j = true →
          (n ≠ 128 → s.suspended t = false) → s.queueAdmits who = true →
          Runs (.submit c p rd rs1 rs2) s (fun u => e.Asked (u.eng n) 0 rd 0#32 ask.1
            ∧ (∃ q, u.cipher.queue = s.cipher.queue ++ [q] ∧ q.op = j.op ∧ q.tag = j.tag ∧ q.tenant = who
              ∧ q.desc = desc)
            ∧ u.cipher.running = s.cipher.running)))
    ∧ (e.wait = some (rd.toNat, x) → e.waitTxn = none → rd ≠ 0#5 → Runs (.copAnswer c) s (fun u => s.OnlyCore u n
      ∧ (u.eng n).wait = none ∧ (u.eng n).pc = e.pc
      ∧ ∀ q, (u.eng n).x q = if q = rd.toNat then x else e.x q))

/-- R247, Table 9-11: coprocessor 3 and the compares it arms. -/
def Obligations.CinchCompares : Prop :=
  ∀ (s : State) (c : CoreId) (p : Pred) (rd rs1 rs2 : BitVec 5) (q : BitVec 4) (mask : BitVec 16),
    let n := coreNum c
    let e := s.eng n
    let a := e.x rs1.toNat
    let b := e.x rs2.toNat
    let ns : Nat := b.toNat % 2 ^ 30
    let sl := e.slot q.toNat
    let ask := s.asking n 3
    let armed (v : Option (Nat × Nat)) : Engine := e.modSlot q.toNat (fun y => { y with armed := v })
    let asked (f : Engine) (v : Word) (t : State) : Prop :=
      f.Asked (t.eng n) 3 rd v ask.1 ∧ t = { ask.2 with engines := t.engines } ∧ ∀ m, m ≠ n → t.eng m = s.eng m
    (s.Issues c p [rs1, rs2] → s.MayAsk c 3 rd →
      (b.toNat / 2 ^ 30 ≠ 0 → Runs (.arm c p rd rs1 rs2 q) s (asked e 2#32))
      ∧ (b.toNat / 2 ^ 30 = 0 → s.cinch.frame < 2 ^ 32 →
          (∃ d : Nat, d ≤ 2 ^ 31 ∧ (a.toNat + d) % 2 ^ 32 = s.cinch.frame ∧ (s.nowNs : Int) + s.lastLens d < ns)
            ∨ (s.nowNs < s.frameLen ∧ ∃ d : Nat, 0 < d ∧ d < 2 ^ 31 ∧ (s.cinch.frame + d) % 2 ^ 32 = a.toNat) →
          Runs (.arm c p rd rs1 rs2 q) s (asked (armed (some (a.toNat, ns))) 0#32))
      ∧ (b.toNat / 2 ^ 30 = 0 → s.cinch.frame < 2 ^ 32 →
          (∃ d : Nat, d ≤ 2 ^ 31 ∧ (a.toNat + d) % 2 ^ 32 = s.cinch.frame ∧ (ns : Int) ≤ s.nowNs + s.lastLens d) →
          Runs (.arm c p rd rs1 rs2 q) s (fun t => ((t.eng n).slot q.toNat).armed = none
            ∧ (sl.st = .waiting → q.toNat ≠ e.cur → e.run = .running →
                ((t.eng n).slot q.toNat).st = .ready ∧ ((t.eng n).slot q.toNat).why.cinch = true)
            ∧ (rd ≠ 0#5 → (t.eng n).wait = some (rd.toNat, 1#32))
            ∧ t = { ask.2 with engines := t.engines, age := s.age + 1 }))
      ∧ Runs (.disarm c p rd rs1 rs2 q) s (asked (armed none) (if sl.armed = none then 0#32 else 1#32))
      ∧ Runs (.nowNs c p rd rs1 rs2) s (asked { e with nowFrame := BitVec.ofNat 32 s.cinch.frame }
          (BitVec.ofNat 32 (s.nowNs / 10 * 10)))
      ∧ Runs (.nowFrame c p rd rs1 rs2) s (asked e e.nowFrame))
    ∧ (∀ x, sl.armed = some (s.cinch.frame, x) → s.cinch.frame < 2 ^ 32 → s.cinch.started = true → x < s.frameLen →
      s.nowNs < s.frameLen → sl.st = .waiting → e.run = .running →
      (mask.getLsbD q.toNat = false → Runs (.cinchCompareFire c (1#16 <<< q.toNat) mask) s (fun t =>
        ((t.eng n).slot q.toNat).armed = none
        ∧ ((t.eng n).slot q.toNat).st = .ready ∧ ((t.eng n).slot q.toNat).why.cinch = true
        ∧ t = { s.cinchTo x with engines := t.engines, age := s.age + 1 }))
      ∧ (mask.getLsbD q.toNat = true → Runs (.cinchCompareFire c (1#16 <<< q.toNat) mask) s (fun t =>
        ((t.eng n).slot q.toNat).armed = none
        ∧ ((t.eng n).slot q.toNat).st = .waiting ∧ ((t.eng n).slot q.toNat).readyLost = true)))
    ∧ (∀ (q' : BitVec 4) (x y : Nat), q < q' → sl.armed = some (s.cinch.frame, x) →
      (e.slot q'.toNat).armed = some (s.cinch.frame, y) → s.cinch.frame < 2 ^ 32 → s.cinch.started = true →
      s.nowNs < x → (x + 9) / 10 = (y + 9) / 10 → s.nowNs < y → x < s.frameLen → y < s.frameLen →
      sl.st = .waiting → (e.slot q'.toNat).st = .waiting → sl.prio = (e.slot q'.toNat).prio →
      (∀ z ∈ e.slots, z.2.st ≠ .ready) → keysRise e.slots = true → e.run = .idle → e.hold = false → e.dbgStop = false →
      Runs (.cinchCompareFire c (1#16 <<< q.toNat ||| 1#16 <<< q'.toNat) 0#16) s (fun t =>
        (t.eng n).run = .running ∧ (t.eng n).cur = q.toNat ∧ (t.eng n).x 1 = reasonWord { sl.why with cinch := true }
        ∧ ((t.eng n).slot q'.toNat).st = .ready))

/-- Table 10-1, R261, R262: writes of TASK_CFG and TASK_CTRL on a core with a RUNNING slot. -/
def Obligations.TaskSlots : Prop :=
  ∀ (s : State) (c : CoreId) (q : BitVec 4) (v : Word) (sig can : BitVec 16), s.coreRuns (coreNum c) = true →
    let n := coreNum c
    let e := s.eng n
    let k := q.toNat
    let sl := e.slot k
    let prio := v.toNat / 2 ^ 16 % 8
    let others (t : State) : Prop := (∀ j, j ≠ k → (t.eng n).slot j = e.slot j) ∧ (∀ m, m ≠ n → t.eng m = s.eng m)
      ∧ t.prioFlight = s.prioFlight ++ [.slot n k prio] ∧ t = { s with engines := t.engines, prioFlight := t.prioFlight }
    let dropped (y : Slot) : Reasons := { y.why with cinch := false, notice := false, signal := false }
    let after (y : Slot) (sig can : Bool) : Slot :=
      match y.st, sig, can with
      | .waiting, true, true => { y with readyLost := true }
      | .waiting, true, false => { y with st := .ready, age := s.age, why.signal := true }
      | .ready, true, true => { y with st := .waiting, readyLost := true, why := dropped y }
      | .ready, true, false => { y with why.signal := true }
      | .ready, false, true => { y with st := .waiting, why := dropped y }
      | .running, true, true => { y with pend := false, readyLost := true, cancelDue := true, why := dropped y }
      | .running, true, false => { y with pend := true, why.signal := true }
      | .running, false, true => { y with pend := false, cancelDue := true, why := dropped y }
      | _, _, _ => y
    let written (sig can : BitVec 16) (t : State) : Prop :=
      (∀ j, j < 16 → (t.eng n).slot j = after (e.slot j) (sig.getLsbD j) (can.getLsbD j))
        ∧ (∀ j, 16 ≤ j → (t.eng n).slot j = e.slot j) ∧ (∀ m, m ≠ n → t.eng m = s.eng m)
        ∧ t.eng n = { e with slots := (t.eng n).slots } ∧ t = { s with engines := t.engines, age := s.age + 1 }
    Runs (.taskCfgWrite c q v) s (fun t => others t
        ∧ (v.getLsbD 31 = true → sl.en = true → (t.eng n).slot k = { sl with prio := prio })
        ∧ (v.getLsbD 31 = true → sl.en = false → ((t.eng n).slot k).en = true ∧ ((t.eng n).slot k).prio = prio
            ∧ ((t.eng n).slot k).entry = v.toNat % 2 ^ 16
            ∧ (sl.st = .running → ((t.eng n).slot k).st = .running ∧ ((t.eng n).slot k).pc = sl.pc)
            ∧ (sl.st ≠ .running → ((t.eng n).slot k).st = .waiting
              ∧ ((t.eng n).slot k).pc = BitVec.ofNat 32 (v.toNat % 2 ^ 16) ∧ ((t.eng n).slot k).why = { start := true }))
        ∧ (v.getLsbD 31 = false → sl.st = .running → (t.eng n).slot k = { sl with en := false, offDue := true, prio := prio })
        ∧ (v.getLsbD 31 = false → sl.st ≠ .running → ((t.eng n).slot k).st = .idle ∧ ((t.eng n).slot k).en = false
            ∧ ((t.eng n).slot k).armed = none))
    ∧ Runs (.taskSignal c sig can) s (written sig can) ∧ Runs (.taskCancel c can) s (written 0#16 can)

/-- R263, R264, R266, R267. -/
def Obligations.Notices : Prop :=
  ∀ (s : State) (c : CoreId) (v : Word) (f g : Flight) (rest rest' : List Flight) (x : Notice) (tail : List Notice)
    (src src' : BitVec 2) (cancel : BitVec 16),
    let n := coreNum c
    let e := s.eng n
    let size := if n = 128 then 64 else 16
    let dst := if v.toNat / 2 ^ 16 % 128 = 127 then 128 else v.toNat / 2 ^ 16 % 128
    let link := dieLink n (decide (64 ≤ dst) && dst != 128)
    (s.takeFlight n src.toNat s.flight = some (f, rest) → (64 ≤ n → n < 128 → s.die1Up = true) →
      let q := (if f.notice.w0.toNat / 2 ^ 28 < 8 then e.nq.route0.toNat / 2 ^ (4 * (f.notice.w0.toNat / 2 ^ 28)) % 16
        else e.nq.route1.toNat / 2 ^ (4 * (f.notice.w0.toNat / 2 ^ 28 - 8)) % 16)
      Runs (.noticeArrival c (1#4 <<< src.toNat) cancel) s (fun t => t.flight = rest
        ∧ (e.nq.queue.length < size → (t.eng n).nq = { e.nq with queue := e.nq.queue ++ [f.notice] })
        ∧ (e.nq.queue.length = size → (t.eng n).nq.queue = e.nq.queue.drop 1 ++ [f.notice]
            ∧ (t.eng n).nq.lost = Nat.min 0xFFFF (e.nq.lost + 1) ∧ (t.eng n).nq.queue.length = size)
        ∧ ((e.slot q).st = .waiting → e.run = .running →
            (cancel.getLsbD q = false → ((t.eng n).slot q).st = .ready ∧ ((t.eng n).slot q).why.notice = true)
            ∧ (cancel.getLsbD q = true → ((t.eng n).slot q).st = .waiting ∧ ((t.eng n).slot q).readyLost = true))
        ∧ (∀ id m, f.msg = some (id, m) → m ≠ n →
            t.eng m = { s.eng m with outs := (s.eng m).outs.filter (fun o => !(o.kind == .msg id)) })
        ∧ ∀ m, m ≠ n → (∀ id, f.msg ≠ some (id, m)) → t.eng m = s.eng m))
    ∧ (s.takeFlight n src.toNat s.flight = some (f, rest) → s.takeFlight n src'.toNat rest = some (g, rest') → src < src' →
      f.msg = none → e.nq.queue.length + 2 ≤ size → (64 ≤ n → n < 128 → s.die1Up = true) →
      Runs (.noticeArrival c (1#4 <<< src.toNat ||| 1#4 <<< src'.toNat) cancel) s (fun t => t.flight = rest'
        ∧ (t.eng n).nq.queue = e.nq.queue ++ [f.notice, g.notice]))
    ∧ (s.takeFlight n src.toNat s.flight = none → Runs (.noticeArrival c (1#4 <<< src.toNat) cancel) s (fun t => t = s))
    ∧ (s.coreRuns n = true → e.nq.queue = x :: tail → Runs (.nqPop c) s (fun t => s.OnlyCore t n
        ∧ t.eng n = { e with nq := { e.nq with queue := tail, view := x } }))
    ∧ (s.coreRuns n = true → e.nq.queue = [] → Runs (.nqPop c) s (fun t => s.OnlyCore t n
        ∧ t.eng n = { e with nq := { e.nq with view := {} } }))
    ∧ (s.coreRuns n = true → e.outs.length < 8 → n = 128 ∨ dst = 128
          ∨ (s.clusterTenant (clusterOf dst) = s.clusterTenant (clusterOf n)
            ∧ s.fon (fENGCTL_CL_owned (clusterOf n)) = true) → s.linkOpen link = true →
        Runs (.msgPost c v) s (fun t => (∃ g, t.flight = s.flight ++ [g] ∧ g.target = dst
            ∧ g.notice.w0 = noticeW0 8 ((if n = 128 then 127 else n) * 2 ^ 16 + v.toNat % 2 ^ 16)
            ∧ g.notice.w1 = e.nq.send1 ∧ g.notice.w2 = e.nq.send2 ∧ g.notice.w3 = e.nq.send3)
          ∧ (t.eng n).outs.length = e.outs.length + 1 ∧ (t.eng n).pc = e.pc
          ∧ t = { (s.linkTake link).2 with engines := t.engines, flight := t.flight, age := s.age + 1 }))
    ∧ (s.coreRuns n = true → (8 ≤ e.outs.length ∨ s.linkOpen link = false) →
        n = 128 ∨ dst = 128 ∨ (s.clusterTenant (clusterOf dst) = s.clusterTenant (clusterOf n)
          ∧ s.fon (fENGCTL_CL_owned (clusterOf n)) = true) → Runs (.msgPost c v) s (fun t => t = s))
    ∧ (s.coreRuns n = true → n < 128 → dst < 128 → s.fon (fENGCTL_CL_owned (clusterOf n)) = true →
        s.clusterTenant (clusterOf dst) ≠ s.clusterTenant (clusterOf n) →
        Runs (.msgPost c v) s (fun t => t.engines = s.engines ∧ t.fget (fTENANT_FVIOL_register (s.engTenant n))
            = (s.fget (fTENANT_FVIOL_register (s.engTenant n)) + 1) % 2 ^ (fTENANT_FVIOL_register 0).width))

/-- R269–R271, R19. -/
def Obligations.HaltersAndRestarts : Prop :=
  ∀ (s : State) (c : CoreId) (v : Word) (cl : BitVec 4) (e : BitVec 7) (mask : BitVec 8),
    let n := coreNum c
    let fresh (t : State) (i : Nat) : Prop :=
      (t.eng i).run = .running ∧ (t.eng i).cur = 0 ∧ (t.eng i).pc = 0#32 ∧ (∀ r, (t.eng i).x r = 0#32)
        ∧ (∀ k, 1 ≤ k → k < 8 → (t.eng i).p k = false) ∧ (t.eng i).nq = {}
        ∧ (Memory.wf s.mem = true → ∀ o, o < 0x10000 → t.byte (dKey i o) = s.byte (initKey i o))
    (s.coreRuns n = true → n < 128 → v = 0x0000C1A5#32 → s.haltLeft (clusterOf n) ≠ 0 → Runs (.haltSvc c v) s (fun t =>
        t.clu (clusterOf n) = { s.clu (clusterOf n) with
          halter := s.fget (fENGCTL_CL_halt_us (clusterOf n)), haltAt := s.mono }
        ∧ t = { s with clusters := t.clusters }))
    ∧ (s.coreRuns n = true → n < 128 → v ≠ 0x0000C1A5#32 → Runs (.haltSvc c v) s (fun t =>
        t.fget (fENGCTL_CL_COUNT_bad_svc (clusterOf n))
          = Nat.min (2 ^ (fENGCTL_CL_COUNT_bad_svc 0).width - 1) (s.fget (fENGCTL_CL_COUNT_bad_svc (clusterOf n)) + 1)
        ∧ t.clusters = s.clusters))
    ∧ (s.coreRuns n = true → n < 128 → v = 0x0000C1A5#32 → s.haltLeft (clusterOf n) = 0 →
        Runs (.haltSvc c v) s (fun t => t = s))
    ∧ (s.coreRuns 128 = true → v = 0x0000C1A5#32 → 0 < s.haltLeft 16 → Runs (.supHaltSvc v) s (fun t =>
        t.clu 16 = { s.clu 16 with halter := s.pkg.supPeriodMs * 1000, haltAt := s.mono }
        ∧ t = { s with clusters := t.clusters }))
    ∧ (s.coreRuns 128 = true → (v ≠ 0x0000C1A5#32 ∨ s.haltLeft 16 = 0) → Runs (.supHaltSvc v) s (fun t => t = s))
    ∧ ((s.clu cl.toNat).halterOn = true → s.haltLeft cl.toNat = 0 → Runs (.clusterHalterExpiry cl) s (fun t =>
        (∀ i, clusterOf i = cl.toNat → fresh t i) ∧ (∀ i, clusterOf i ≠ cl.toNat → t.eng i = s.eng i)
        ∧ (t.clu cl.toNat).halter = s.fget (fENGCTL_CL_halt_us cl.toNat)
        ∧ (∃ g, t.flight = s.flight ++ [g] ∧ g.target = 128 ∧ g.notice.w0 = noticeW0 11 (2 ^ 24 + cl.toNat))))
    ∧ ((s.eng e.toNat).run = .running ∨ (s.eng e.toNat).run = .idle → Runs (.engctlStop e) s (fun t =>
        s.OnlyCore t e.toNat ∧ t.eng e.toNat = { s.eng e.toNat with run := .stopped }))
    ∧ ((s.eng e.toNat).run ≠ .running → (s.eng e.toNat).run ≠ .idle → Runs (.engctlStop e) s (fun t =>
        s.OnlyCore t e.toNat ∧ t.eng e.toNat = s.eng e.toNat))
    ∧ ((s.clu cl.toNat).halterOn = false ∨ s.haltLeft cl.toNat ≠ 0 → Runs (.clusterHalterExpiry cl) s (fun t => t = s))
    ∧ (s.engHere e.toNat = true → s.engStopped e.toNat = true → Runs (.engctlRestart e) s (fun t => fresh t e.toNat
        ∧ (∀ m, m ≠ e.toNat → t.eng m = s.eng m) ∧ t.faults = s.faults))
    ∧ (s.engHere e.toNat = false ∨ s.engStopped e.toNat = false → Runs (.engctlRestart e) s (fun t => t = s))
    ∧ (s.coreRuns n = true → n < 128 → n % 8 = 0 → Runs (.engRestart c mask) s (fun t =>
        ∀ i, clusterOf i = clusterOf n →
          (mask.getLsbD (i % 8) = true → s.engStopped i = true → fresh t i)
          ∧ (mask.getLsbD (i % 8) = false ∨ s.engStopped i = false → t.eng i = s.eng i)))

/-- R272, R274, R290, R356. -/
def Obligations.WindowsAndPriorities : Prop :=
  ∀ (s : State) (c : CoreId) (e : BitVec 7) (v : Word) (t' : BitVec 4) (rest : List PrioChange)
    (x q p : Nat),
    let n := e.toNat
    let w := (s.eng n).win
    let k := iKey n w.addr
    let shut : Prop := s.engHere n = true ∧ ((s.eng n).run = .running ∨ (s.eng n).run = .idle)
    let open' : Prop := s.engHere n = true ∧ (s.engStopped n = true ∨ (s.eng n).run = .gated)
    let cap (p : Nat) (j : Job) : Nat := match j.tenant with
      | some y => min p (s.fget (fENGCTL_TPRIO_max_prio y))
      | none => p
    (open' → Runs (.idataLoWrite e v) s (fun t => s.OnlyCore t n
        ∧ t.eng n = { s.eng n with win := { w with staged := v } }))
    ∧ (open' → w.addr % 8 = 0 → Runs (.idataHiWrite e v) s (fun t =>
        t.bytes k 8 = leBytes 8 (w.staged.toNat + v.toNat * 2 ^ 32) ∧ (∀ j, j < k ∨ k + 8 ≤ j → t.byte j = s.byte j)
        ∧ t.flipAt k = 0#72 ∧ t.eng n = { s.eng n with win := { w with addr := (w.addr + 8) % 0x10000 } }))
    ∧ (shut → ∀ i ∈ [Instr.idataLoWrite e v, .idataHiWrite e v], Runs i s (fun t => s.OnlyCore t n
        ∧ t.eng n = { s.eng n with win := { w with staged := 0#32, err := true } }))
    ∧ (s.engHere n = false → ∀ i ∈ [Instr.idataLoWrite e v, .idataHiWrite e v, .idataLoRead e, .idataHiRead e],
      Runs i s (fun t => t = s))
    ∧ (s.engHere n = true → s.flipAt k = 0#72 → Runs (.idataLoRead e) s (fun t => s.OnlyCore t n
        ∧ t.eng n = { s.eng n with win := { w with latched := s.word (k + 4) } }))
    ∧ (s.engHere n = true → Runs (.idataHiRead e) s (fun t => s.OnlyCore t n
        ∧ t.eng n = { s.eng n with win := { w with addr := (w.addr + 8) % 0x10000 } }))
    ∧ (s.coreRuns (coreNum c) = true → Runs (.engFlipArm c v) s (fun t => s.OnlyCore t (coreNum c)
        ∧ (t.eng (coreNum c)).flip = { (s.eng (coreNum c)).flip with
            check := v.extractLsb' 0 8, armed := (s.eng (coreNum c)).flip.armed || v.getLsbD 31 }))
    ∧ Runs (.memFlipArm v) s (fun t => t.fget fMEM_FLIP_mem = v.toNat / 2 ^ 8 % 16
        ∧ t.fget fMEM_FLIP_check = v.toNat % 2 ^ 8
        ∧ t.fon fMEM_FLIP_armed = (s.fon fMEM_FLIP_armed
            || (v.getLsbD 31 && decide (2 ≤ v.toNat / 2 ^ 8 % 16) && decide (v.toNat / 2 ^ 8 % 16 ≤ 8)))
        ∧ s.OnlyRegs t (fun a => a = fMEM_FLIP_mem.addr))
    ∧ (v.toNat % 8 ≠ 7 → Runs (.tprioWrite t' v) s (fun t => t.fget (fENGCTL_TPRIO_max_prio t'.toNat) = v.toNat % 8
        ∧ t.prioFlight = s.prioFlight ++ [.cap t'.toNat (v.toNat % 8)]))
    ∧ (v.toNat % 8 = 7 → Runs (.tprioWrite t' v) s (fun t => t = s))
    ∧ (s.prioFlight = .cap x p :: rest → Runs .priorityChangeArrival s (fun t => t.prioFlight = rest
        ∧ t.cipher.queue = s.cipher.queue.map (fun j => match j.who with
            | .core i q => if j.tenant = some x then { j with prio := min ((s.eng i).slot q).prio p } else j
            | _ => j)
        ∧ t.pkg.linkWait = s.pkg.linkWait.map (fun r => if r.core ≠ 128 ∧ s.engTenant r.core = x then
            { r with prio := min ((s.eng r.core).slot r.slot).prio p } else r)
        ∧ t = { s with cipher := t.cipher, pkg := t.pkg, prioFlight := rest }))
    ∧ (s.prioFlight = .slot x q p :: rest → Runs .priorityChangeArrival s (fun t => t.prioFlight = rest
        ∧ t.cipher.queue = s.cipher.queue.map (fun j => if j.who = .core x q then { j with prio := cap p j } else j)
        ∧ t.pkg.linkWait = s.pkg.linkWait.map (fun r =>
            let v := if x = 128 then p else min p (s.fget (fENGCTL_TPRIO_max_prio (s.engTenant x)))
            if r.core = x ∧ r.slot = q then { r with prio := v } else r)
        ∧ t = { s with cipher := t.cipher, pkg := t.pkg, prioFlight := rest }))
    ∧ (s.prioFlight = .decoder x q p :: rest → Runs .priorityChangeArrival s (fun t => t.prioFlight = rest
        ∧ t.decoder.holds = s.decoder.holds.map (fun h =>
            if h.region = x ∧ h.tenant = q ∧ h.urgent = false then { h with prio := p } else h)
        ∧ t = { s with decoder := t.decoder, prioFlight := rest }))
    ∧ (s.prioFlight = [] → Runs .priorityChangeArrival s (fun t => t = s))

/-- R278, R279, R286, R292. -/
def Obligations.FencesAndSuspension : Prop :=
  ∀ (s : State) (r : BitVec 2) (e : BitVec 6) (v : Word) (m : Master) (u : BitVec 4) (g : BitVec 7)
    (i' : BitVec 5),
    let t' := u.toNat
    let own (i : Nat) : Prop := clusterOf i < Config.clusters s.variant ∧ s.clusterTenant (clusterOf i) = some t'
      ∧ (clusterOf i < 8 ∨ s.die1Up = true)
    let kept := s.setReg (aTENANT_RFENCE r.toNat e.toNat) (v &&& 0xFC007F7F#32)
    let first := v.toNat % 128
    let last := v.toNat / 2 ^ 8 % 128
    let who := v.toNat / 2 ^ 26 % 16
    let kept' := s.setReg (aTENANT_SFENCE i'.toNat) (v &&& 0xFF7FF7FF#32)
    let first' := v.toNat % 2048
    let last' := v.toNat / 2 ^ 12 % 2048
    let space := v.toNat / 2 ^ 24 % 4
    (s.hasRegion r.toNat = true → first ≤ last → s.declared who = true →
      (v.getLsbD 31 = true → s.notStarted who = false ∧ ∀ j, j < 64 → j ≠ e.toNat → s.fon (fTENANT_RFENCE_valid r.toNat j) = true →
        last < s.fget (fTENANT_RFENCE_first r.toNat j) ∨ s.fget (fTENANT_RFENCE_last r.toNat j) < first) →
      (s.fon (fTENANT_RFENCE_valid r.toNat e.toNat) = true →
        s.notStarted (s.fget (fTENANT_RFENCE_tenant r.toNat e.toNat)) = false) →
      (∀ x, x < 16 → s.ringKept kept r.toNat x = true) →
      Runs (.fenceWrite false r e v) s (fun t => s.OnlyRegs t (fun a => a = aTENANT_RFENCE r.toNat e.toNat)
        ∧ t.reg (aTENANT_RFENCE r.toNat e.toNat) = v &&& 0xFC007F7F#32))
    ∧ (first' ≤ last' → s.declared who = true →
      (v.getLsbD 31 = true → s.notStarted who = false ∧ grantable space first' last' (v.getLsbD 30) = true
        ∧ ∀ j, j < 32 → j ≠ i'.toNat → s.fon (fTENANT_SFENCE_valid j) = true → s.fget (fTENANT_SFENCE_space j) = space →
          last' < s.fget (fTENANT_SFENCE_first j) ∨ s.fget (fTENANT_SFENCE_last j) < first') →
      (s.fon (fTENANT_SFENCE_valid i'.toNat) = true → s.notStarted (s.fget (fTENANT_SFENCE_tenant i'.toNat)) = false) →
      (∀ x, x < 16 → s.inboxKept kept' x = true) →
      Runs (.fenceWrite true r (i'.setWidth 6) v) s (fun t => s.OnlyRegs t (fun a => a = aTENANT_SFENCE i'.toNat)
        ∧ t.reg (aTENANT_SFENCE i'.toNat) = v &&& 0xFF7FF7FF#32))
    ∧ (s.hasRegion r.toNat = true → first ≤ last → s.declared who = false →
      Runs (.fenceWrite false r e v) s (fun t => t.fon (fTENANT_CFG_fence_err 0) = true
        ∧ s.OnlyRegs t (fun a => a = (fTENANT_CFG_fence_err 0).addr)))
    ∧ (s.declared t' = true → s.regOpen m (aTENANT_CFG t') true = true →
      (s.suspended t' = false → Runs (.tenantSuspend m u) s (fun t => ∀ i, own i →
        (s.eng i).run = .running ∨ (s.eng i).run = .idle → (t.eng i).run = .stopped))
      ∧ (s.suspended t' = true → s.started t' = true → Runs (.tenantResume m u) s (fun t => t.suspended t' = false
        ∧ ∀ i, own i → (t.eng i).run = .running ∧ (t.eng i).pc = 0#32)))
    ∧ (s.regOpen m (aTENANT_CFG t') true = true → (s.declared t' = false ∨ s.suspended t' = true) →
      Runs (.tenantSuspend m u) s (fun t => t = s))
    ∧ (s.regOpen m (aTENANT_CFG t') true = true → (s.declared t' = false ∨ s.suspended t' = false) →
      Runs (.tenantResume m u) s (fun t => t = s))
    ∧ (s.regReach (.core (.eng g)) (aTENANT_CFG t') = true → ∀ i ∈ [Instr.tenantSuspend (.core (.eng g)) u, .tenantResume (.core (.eng g)) u],
        Runs i s (fun t => t.suspended t' = s.suspended t' ∧ t.engines = s.engines
          ∧ t.fget (fTENANT_FVIOL_register (s.engTenant g.toNat))
            = (s.fget (fTENANT_FVIOL_register (s.engTenant g.toNat)) + 1)
              % 2 ^ (fTENANT_FVIOL_register 0).width))

/-- Table 3-2, R83–R85. R86, R87. -/
def Obligations.PathsAndTuners : Prop :=
  (∀ (s : State) (pb r v : Bool) (req : BitVec 2),
      let p := b2n pb
      let x := s.path p
      let here : Prop := s.hasPath p = true ∧ x.off = false ∧ x.move = .rest
      let radio (t : State) : Prop := t = { s with regs := t.regs, radio := t.radio }
      let only (t : State) (a : Nat) : Prop := ∀ b, b ≠ a → t.reg b = s.reg b
      (here → s.pathState p = 0 → req = 1#2 ∨ req = 2#2 → Runs (.pathStateReq pb req) s (fun t => radio t
          ∧ only t (aRADIO_PATH_CTRL p) ∧ t.fget (fRADIO_PATH_CTRL_state_req p) = req.toNat
          ∧ t.path p = { x with want := req.toNat, move := .toStandby } ∧ ∀ q, q ≠ p → t.path q = s.path q))
      ∧ (here → s.pathState p = 1 → Runs (.pathStateReq pb 2#2) s (fun t => radio t
          ∧ t.path p = { x with want := 2, move := .toReceive } ∧ t.fon (fRADIO_PATH_STATUS_cal_done p) = false
          ∧ t.fget (fRADIO_PATH_CTRL_state_req p) = 2 ∧ t.pathState p = 1))
      ∧ (here → s.pathState p = 2 → Runs (.pathStateReq pb 1#2) s (fun t => radio t
          ∧ t.pathState p = 1 ∧ (t.path p).lnaEn = false ∧ (t.path p).want = 1 ∧ (t.path p).move = .rest))
      ∧ Runs (.pathStateReq pb 3#2) s (fun t => t = s)
      ∧ (s.hasPath p = true → req ≠ 3#2 → Runs (.pathStateReq pb req) s (fun t => radio t
          ∧ t.fget (fRADIO_PATH_CTRL_state_req p) = req.toNat
          ∧ (x.off = false → (t.path p).want = req.toNat)
          ∧ (x.off = true → t.path p = x) ∧ (x.off = false → x.move ≠ .rest → t.path p = { x with want := req.toNat })))
      ∧ (here → s.pathState p = 1 → Runs (.pathStateReq pb 0#2) s (fun t => radio t ∧ t.pathState p = 0))
      ∧ (here → s.pathState p = 2 → Runs (.pathStateReq pb 0#2) s (fun t => radio t ∧ t.pathState p = 0
          ∧ (t.path p).lnaEn = false))
      ∧ (x.move = .toStandby → x.want = 0 → Runs (.pathStandbyReached pb) s (fun t => radio t ∧ t.pathState p = 0
          ∧ (t.path p).move = .rest))
      ∧ (x.move ≠ .toStandby → Runs (.pathStandbyReached pb) s (fun t => t = s))
      ∧ (x.move ≠ .toReceive → Runs (.pathReceiveReached pb) s (fun t => t = s))
      ∧ (x.move = .toStandby → x.want = 1 ∨ x.want = 2 → Runs (.pathStandbyReached pb) s (fun t => radio t
          ∧ only t (aRADIO_PATH_STATUS p) ∧ t.pathState p = 1
          ∧ t.path p = { x with move := if x.want = 2 then .toReceive else .rest }))
      ∧ (x.move = .toReceive → x.want = 2 → s.pkg.power = .run → s.pkg.reqWait = 0 →
          (pb = true ∨ (s.path 1).cycling = none) → Runs (.pathReceiveReached pb) s (fun t => radio t
            ∧ t.pathState p = 2 ∧ t.fon (fRADIO_PATH_STATUS_cal_done p) = true
            ∧ t.path p = { x with move := .rest, lnaEn := true }))
      ∧ (s.hasPath p = true → s.pathState p ≠ 2 → x.move ≠ .toReceive → Runs (.pathRateWrite pb r) s (fun t =>
          t = { s with regs := t.regs, radio := t.radio, freeCount := t.freeCount }
          ∧ t.fget (fRADIO_PATH_CTRL_rate p) = b2n r
          ∧ ∀ i, i < 8 → t.fon (fRADIO_TUNER_CFG_en (8 * p + i)) = true → t.spanOk p (8 * p + i) = true))
      ∧ (s.pathState p = 2 ∨ x.move = .toReceive → Runs (.pathRateWrite pb r) s (fun t => t = s))
      ∧ (s.hasPath p = true → s.fget (fRADIO_PATH_CTRL_lna_byp p) ≠ b2n v → Runs (.lnaBypassWrite pb v) s (fun t => radio t
          ∧ only t (aRADIO_PATH_CTRL p) ∧ t.fget (fRADIO_PATH_CTRL_lna_byp p) = b2n v
          ∧ t.path p = { x with lnaByp := v }))
      ∧ (s.fget (fRADIO_PATH_CTRL_lna_byp p) = b2n v → Runs (.lnaBypassWrite pb v) s (fun t => t = s))
      ∧ Runs .pllLoss s (fun t => t = { s with regs := t.regs, radio := t.radio, log := t.log }
          ∧ (∀ q, q < 2 → s.pathState q = 2 → t.pathState q = 1 ∧ t.fon (fRADIO_PATH_STATUS_pll_loss q) = true
            ∧ t.fget (fRADIO_PATH_CTRL_state_req q) = 1 ∧ (t.path q).lnaEn = false ∧ (t.path q).want = 1)
          ∧ (∀ q, q < 2 → s.pathState q ≠ 2 → t.pathState q = s.pathState q ∧ t.path q = s.path q)))
    ∧ (∀ (s : State) (u : BitVec 4) (v : Word),
      let t' := u.toNat
      let p := t' / 8
      let span := v.toNat / 2 ^ 22 % 8
      let centre := v.toNat % 2 ^ 22
      let kept := (s.fset (fRADIO_TUNER_CFG_span t') span).fset (fRADIO_TUNER_CFG_centre_khz t') centre
      let on := s.fon (fRADIO_TUNER_CFG_en t')
      let radio (t : State) : Prop := t = { s with regs := t.regs, radio := t.radio }
      let cfg (a : Nat) : Prop := a = aRADIO_TUNER_CFG t' ∨ a = aRADIO_PATH_STATUS p
      (s.hasPath p = true → on = false → v.getLsbD 31 = true → span < 5 → kept.spanOk p t' = true →
          kept.spanUsed p + 5 * 2 ^ span ≤ 160 → Runs (.tunerCfgWrite u v) s (fun t => s.OnlyRegs t cfg
            ∧ t.fon (fRADIO_TUNER_CFG_en t') = true ∧ t.fget (fRADIO_TUNER_CFG_span t') = span
            ∧ t.fget (fRADIO_TUNER_CFG_centre_khz t') = centre))
      ∧ (s.hasPath p = true → on = false → v.getLsbD 31 = true → span < 5 →
          kept.spanOk p t' = false ∨ 160 < kept.spanUsed p + 5 * 2 ^ span → Runs (.tunerCfgWrite u v) s (fun t =>
            s.OnlyRegs t cfg ∧ t.fon (fRADIO_TUNER_CFG_en t') = false ∧ t.fon (fRADIO_PATH_STATUS_span_err p) = true))
      ∧ (s.hasPath p = true → on = true → v.getLsbD 31 = true →
          span ≠ s.fget (fRADIO_TUNER_CFG_span t') ∨ centre ≠ s.fget (fRADIO_TUNER_CFG_centre_khz t') →
          Runs (.tunerCfgWrite u v) s (fun t => s.OnlyRegs t (fun a => a = aRADIO_PATH_STATUS p)
            ∧ t.fon (fRADIO_PATH_STATUS_span_err p) = true))
      ∧ (s.hasPath p = true → on = true → v.getLsbD 31 = false → span < 5 → Runs (.tunerCfgWrite u v) s (fun t =>
          t.fon (fRADIO_TUNER_CFG_en t') = false ∧ tabGet false t.radio.tunerLive t' = false
          ∧ t.fget (fRADIO_TUNER_CFG_span t') = span ∧ t.fget (fRADIO_TUNER_CFG_centre_khz t') = centre
          ∧ t = { s with regs := t.regs, radio := t.radio, girth := t.girth, freeCount := t.freeCount }))
      ∧ (s.hasPath p = true → 5 ≤ span → Runs (.tunerCfgWrite u v) s (fun t =>
          s.OnlyRegs t (fun a => a = aRADIO_PATH_STATUS p) ∧ t.fon (fRADIO_PATH_STATUS_span_err p) = true))
      ∧ (s.hasPath p = true → on = false → v.getLsbD 31 = false → span < 5 → Runs (.tunerCfgWrite u v) s (fun t =>
          t.fon (fRADIO_TUNER_CFG_en t') = false ∧ t.fget (fRADIO_TUNER_CFG_span t') = span
          ∧ t.fget (fRADIO_TUNER_CFG_centre_khz t') = centre ∧ t = { s with regs := t.regs, girth := t.girth }))
      ∧ (s.hasPath p = false ∨ (on = true ∧ v.getLsbD 31 = true ∧ span < 5 ∧ span = s.fget (fRADIO_TUNER_CFG_span t')
          ∧ centre = s.fget (fRADIO_TUNER_CFG_centre_khz t')) → Runs (.tunerCfgWrite u v) s (fun t => t = s))
      ∧ (on = false → Runs (.tunerSamplesStart u) s (fun t => t = s))
      ∧ (on = true → Runs (.tunerSamplesStart u) s (fun t => radio t ∧ tabGet false t.radio.tunerLive t' = true
          ∧ t.fon (fRADIO_TUNER_CFG_en t') = true ∧ ∀ q, q ≠ t' →
            tabGet false t.radio.tunerLive q = tabGet false s.radio.tunerLive q)))

/-- R109–R111, R118, R120, R125, Table 4-7. -/
def Obligations.Receivers : Prop :=
  ∀ (s : State) (m : Master) (i : BitVec 9) (v : Word) (w : BitVec 4) (h : BitVec 2) (b : Bool),
    let n := i.toNat
    let old := rxCfgOf (s.reg (aRADIO_RX_CFG n)).toNat
    let c0 := rxCfgOf v.toNat
    let c := if (s.tagOf m).isSome then { c0 with en := true, tenant := old.tenant, home := old.home } else { c0 with en := true }
    let may : Prop := n < Config.receivers s.variant ∧ s.regOpen m (aRADIO_RX_CFG n) true = true
    let first : Prop := s.rxState n = 2 ∧ (s.rx n).timerB = b
    let radio (t : State) : Prop := t = { s with regs := t.regs, radio := t.radio }
    let free : Prop := may ∧ s.fon (fRADIO_RX_CFG_en n) = false
    let filled (t : State) : Prop := t.rx n
      = (if b then { s.rx n with fillB := false } else { s.rx n with fillA := false }) ∧ ∀ j, j ≠ n → t.rx j = s.rx j
    (free → s.fon (fRADIO_RX_STATUS_plan_off n) = false → c.reserved = false → s.rxEnableOk n c = true → Runs (.rxEnable m i v) s (fun t => radio t
        ∧ rxCfgOf (t.reg (aRADIO_RX_CFG n)).toNat = c
        ∧ (t.rxState n = 2 ∨ (t.rxState n = 1 ∧ t.fon (fRADIO_RX_STATUS_no_source n) = true))))
    ∧ (free → c.reserved = true ∨ s.rxEnableOk n c = false → Runs (.rxEnable m i v) s (fun t =>
        s.OnlyRegs t (fun a => a = aRADIO_RX_STATUS n) ∧ t.fon (fRADIO_RX_STATUS_cfg_err n) = true
        ∧ t.rxState n = s.rxState n))
    ∧ (free → s.fon (fRADIO_RX_STATUS_plan_off n) = true → c.reserved = false → s.rxEnableOk n c = true →
        Runs (.rxEnable m i v) s (fun t => t = s))
    ∧ (may → s.fon (fRADIO_RX_CFG_en n) = true →
        (c.reserved = true ∨ c.sel ≠ old.sel ∨ c.mode ≠ old.mode ∨ c.width ≠ old.width → Runs (.rxEnable m i v) s (fun t =>
          s.OnlyRegs t (fun a => a = aRADIO_RX_STATUS n) ∧ t.fon (fRADIO_RX_STATUS_cfg_err n) = true))
        ∧ (c.reserved = false → c.sel = old.sel → c.mode = old.mode → c.width = old.width → Runs (.rxEnable m i v) s (fun t =>
          s.OnlyRegs t (fun a => a = aRADIO_RX_CFG n) ∧ t.fon (fRADIO_RX_CFG_en n) = true)))
    ∧ (may → s.fon (fRADIO_RX_CFG_en n) = false → c.reserved = false → Runs (.rxDisable m i v) s (fun t =>
        s.OnlyRegs t (fun a => a = aRADIO_RX_CFG n)
        ∧ rxCfgOf (t.reg (aRADIO_RX_CFG n)).toNat = { c with en := false }))
    ∧ (may → s.fon (fRADIO_RX_CFG_en n) = true → c.reserved = false →
        Runs (.rxDisable m i v) s (fun t => radio t ∧ t.fon (fRADIO_RX_CFG_en n) = false ∧ t.rxState n = 0
          ∧ t.fon (fRxBound n false) = false ∧ t.fon (fRxBound n true) = false
          ∧ (s.rxState n = 4 → t.radio.reports = s.radio.reports ++ [.ended n 3 (s.rx n).switched (s.rx n).gain]
            ∧ t.fget (fRADIO_RX_COUNT_aborts n) = Nat.min 255 (s.fget (fRADIO_RX_COUNT_aborts n) + 1))
          ∧ (s.rxState n ≠ 4 → t.radio.reports = s.radio.reports)))
    ∧ (n < Config.receivers s.variant → Runs (.rxOwnerWrite i w h) s (fun t =>
        s.OnlyRegs t (fun a => a = aRADIO_RX_CFG n)
        ∧ rxCfgOf (t.reg (aRADIO_RX_CFG n)).toNat
          = { rxCfgOf (s.reg (aRADIO_RX_CFG n)).toNat with tenant := w.toNat, home := h.toNat }))
    ∧ (s.fon (fRxBound n b) = true ∨ first → Runs (.fillTimerExpiry i b) s (fun t => radio t
        ∧ filled t ∧ (first → t.rxState n = 3) ∧ (¬first → t.regs = s.regs)
        ∧ ∀ a, a ≠ aRADIO_RX_STATUS n → t.reg a = s.reg a))
    ∧ (s.fon (fRxBound n b) = false → ¬first → Runs (.fillTimerExpiry i b) s (fun t => t = s))
    ∧ (s.fon (fRxBound n b) = true → s.fon (fRxBlank n b) = false → Runs (.blankRecovery i b) s (fun t =>
        t = { s with radio := t.radio } ∧ (∀ j, j ≠ n → t.rx j = s.rx j)
        ∧ t.rx n = if b then { s.rx n with recovB := false } else { s.rx n with recovA := false }))
    ∧ (s.fon (fRxBound n b) = false ∨ s.fon (fRxBlank n b) = true → Runs (.blankRecovery i b) s (fun t => t = s))
    ∧ ((if b then (s.rx n).fillB || (s.rx n).recovB else (s.rx n).fillA || (s.rx n).recovA) = true →
        s.branchSearch n b = false)

/-- R114, R116, R117, Tables 4-5 and 4-6. -/
def Obligations.SyncDetect : Prop :=
  ∀ (s : State) (i : BitVec 9) (fa fb : Bool) (ea eb : Word) (out : BitVec 30) (ra rb : BitVec 16) (foff : Word),
    let n := i.toNat
    let a := fa && s.branchSearch n false
    let bb := fb && s.branchSearch n true
    let b := match s.fget (fRADIO_RX_CFG_branch_sel n) with
      | 1 => false
      | 2 => true
      | _ => !(a && (!bb || decide (eb.toNat ≤ ea.toNat)))
    let st := s.instantSub s.cinch.frame out.toNat (s.rxDelay n b)
    let ten := s.fget (fRADIO_RX_CFG_tenant n)
    let mode := s.fget (fRADIO_RX_CFG_mode n)
    (s.rxState n = 3 → (a || bb) = true →
      Runs (.syncDetect i fa fb ea eb out ra rb foff) s (fun t => t = { s with regs := t.regs, radio := t.radio }
        ∧ t.rxState n = 4
        ∧ t.fget (fRADIO_RX_COUNT_syncs n) = Nat.min 0xFFFF (s.fget (fRADIO_RX_COUNT_syncs n) + 1)
        ∧ t.reg (aRADIO_RX_SYNC n 0) = BitVec.ofNat 32
          (n * 2 ^ 23 + b2n b * 2 ^ 22 + b2n s.cinchLocked * 2 ^ 19 + ten * 2 ^ 12 + mode * 2 ^ 8)
        ∧ t.reg (aRADIO_RX_SYNC n 1) = BitVec.ofNat 32 st.1 ∧ t.reg (aRADIO_RX_SYNC n 2) = BitVec.ofNat 32 st.2
        ∧ t.reg (aRADIO_RX_SYNC n 3)
          = BitVec.ofNat 32 (s.branchLevel n false ra * 65536 + s.branchLevel n true rb)
        ∧ t.reg (aRADIO_RX_SYNC n 4) = foff
        ∧ (t.rx n).onB = b ∧ (t.rx n).switched = false ∧ (t.rx n).gain = false ∧ (t.rx n).tenant = ten
        ∧ (∀ j, j ≠ n → t.rx j = s.rx j)
        ∧ ∃ r, t.radio.reports = s.radio.reports ++ [.sync n r ten (s.fget (fRADIO_RX_CFG_home n)) mode]
          ∧ r.w0 = t.reg (aRADIO_RX_SYNC n 0) ∧ r.w4 = foff))
    ∧ (s.rxState n ≠ 3 ∨ (a || bb) = false →
      Runs (.syncDetect i fa fb ea eb out ra rb foff) s (fun t => t = s))

/-- R121–R123. -/
def Obligations.Levels : Prop :=
  ∀ (s : State) (i : BitVec 9) (b : Bool) (x y z : BitVec 16) (avg tuner : BitVec 4) (bins : List (BitVec 16)),
    let n := i.toNat
    let gain (p : Nat) : Int := signedN 10 (s.fget (fRADIO_PATH_FE_fe_gain p))
    let byp (p : Nat) : Int := if (s.path p).lnaByp then s.fget (fRADIO_PATH_CTRL_byp_step p) else 0
    let level (p : Nat) (z : BitVec 16) : Nat := unsignedN 16 (signedN 16 z.toNat - gain p + byp p)
    let shown (c : Bool) (z : BitVec 16) : Nat :=
      if s.fon (fRxBound n c) && !s.fon (fRxBlank n c) then level (b2n c) z else 0x8000
    let det := if b then aRADIO_RX_DET_B n else aRADIO_RX_DET_A n
    (s.fon (fRADIO_RX_CFG_en n) = true → Runs (.detectorWindowEnd i b x y z) s (fun t =>
        s.OnlyRegs t (fun a => a = det ∨ a = aRADIO_PATH_STATUS (b2n b))
        ∧ t.fget (fRADIO_PATH_STATUS_ovld_cnt (b2n b))
          = Nat.min 0xFFFF (s.fget (fRADIO_PATH_STATUS_ovld_cnt (b2n b)) + z.toNat)
        ∧ (∀ f ∈ [fRADIO_PATH_STATUS_state (b2n b), fRADIO_PATH_STATUS_cal_done (b2n b),
            fRADIO_PATH_STATUS_span_err (b2n b), fRADIO_PATH_STATUS_pll_loss (b2n b)], t.fget f = s.fget f)
        ∧ t.reg det = BitVec.ofNat 32 (shown b x * 65536 + shown b y)))
    ∧ (s.fon (fRADIO_RX_CFG_en n) = true → Runs (.envelopeUpdate i x y) s (fun t =>
        s.OnlyRegs t (fun a => a = aRADIO_RX_ENV n)
        ∧ t.fget (fRADIO_RX_ENV_env_a n) = shown false x ∧ t.fget (fRADIO_RX_ENV_env_b n) = shown true y))
    ∧ (s.fon (fRADIO_RX_CFG_en n) = false → ∀ k ∈ [Instr.detectorWindowEnd i b x y z, .envelopeUpdate i x y],
        Runs k s (fun t => t = s))
    ∧ (s.fon fRADIO_SPEC_CTRL_busy = true ∨ s.fon (fRADIO_TUNER_CFG_en tuner.toNat) = false →
        Runs (.specGo avg tuner) s (fun t => t.fon fRADIO_SPEC_CTRL_busy = s.fon fRADIO_SPEC_CTRL_busy
          ∧ t.fget fRADIO_SPEC_CTRL_avg = (if avg.toNat ≤ 10 then avg.toNat else s.fget fRADIO_SPEC_CTRL_avg)
          ∧ s.OnlyRegs t (fun a => a = aRADIO_SPEC_CTRL)))
    ∧ (s.fon fRADIO_SPEC_CTRL_busy = false → Runs (.specDone bins) s (fun t => t = s))
    ∧ (s.fon fRADIO_SPEC_CTRL_busy = false → s.fon (fRADIO_TUNER_CFG_en tuner.toNat) = true →
        Runs (.specGo avg tuner) s (fun t => t.fon fRADIO_SPEC_CTRL_busy = true
          ∧ t.fget fRADIO_SPEC_CTRL_tuner = tuner.toNat ∧ t.radio = { s.radio with specTuner := tuner.toNat }
          ∧ t.fget fRADIO_SPEC_CTRL_avg = (if avg.toNat ≤ 10 then avg.toNat else s.fget fRADIO_SPEC_CTRL_avg)
          ∧ t = { s with regs := t.regs, radio := t.radio } ∧ ∀ a, a ≠ aRADIO_SPEC_CTRL → t.reg a = s.reg a))
    ∧ (s.fon fRADIO_SPEC_CTRL_busy = true → Runs (.specDone bins) s (fun t =>
        t.fon fRADIO_SPEC_CTRL_busy = false ∧ t.fon fRADIO_SPEC_CTRL_done = true
        ∧ (∀ k, k < 512 → t.reg (aRADIO_SPEC_DATA k) = BitVec.ofNat 32
          (level (s.radio.specTuner / 8) (bins.getD (2 * k) 0#16)
            + level (s.radio.specTuner / 8) (bins.getD (2 * k + 1) 0#16) * 65536))
        ∧ (∀ a, a ≠ aRADIO_SPEC_CTRL → (∀ k, k < 512 → a ≠ aRADIO_SPEC_DATA k) → t.reg a = s.reg a)
        ∧ t = { s with regs := t.regs, radio := { s.radio with specDone := true } }))

/-- Tables 3-4 and 3-3, R91–R93. -/
def Obligations.TxChainStates : Prop :=
  ∀ (s : State) (txh : Bool) (v : BitVec 2) (lo : BitVec 22) (x : TxStart) (g : Nat),
    let c := b2n txh
    let h := s.chain c
    let radio (t : State) : Prop := t = { s with regs := t.regs, radio := t.radio }
      ∧ ∀ d, d ≠ c → t.chain d = s.chain d
    let only (t : State) (a : Nat) : Prop := ∀ b, b ≠ a → t.reg b = s.reg b
    let here : Prop := s.hasChain c = true ∧ h.off = false ∧ h.planSleep = false ∧ h.jtagHold = false
      ∧ s.fon (fRADIO_TX_STATUS_pa_gain_fault c) = false
    let inRange : Prop := if txh then 2400000 ≤ lo.toNat ∧ lo.toNat ≤ 2483500 else 380000 ≤ lo.toNat ∧ lo.toNat ≤ 960000
    (here → s.chainState c = 0 → Runs (.txStateReq txh 1#2) s (fun t => radio t ∧ only t (aRADIO_TX_CTRL c)
        ∧ t.fget (fRADIO_TX_CTRL_state_req c) = 1
        ∧ t.chain c = { h with auto := false, sleepDue := false, waking := true }))
    ∧ (here → s.chainState c = 1 → h.start = none → Runs (.txStateReq txh 0#2) s (fun t => radio t
        ∧ t.fget (fRADIO_TX_CTRL_state_req c) = 0 ∧ t.chainState c = 0
        ∧ t.chain c = { h with sleepDue := false, auto := false, waking := false, calRun := none }))
    ∧ (here → s.chainState c = 3 → h.start = none → h.air ≠ [] → Runs (.txStateReq txh 0#2) s (fun t => radio t
        ∧ only t (aRADIO_TX_CTRL c) ∧ t.fget (fRADIO_TX_CTRL_state_req c) = 0
        ∧ t.chain c = { h with sleepDue := true }))
    ∧ (here → 2 ≤ s.chainState c → h.start = none → h.air = [] → h.feStep < 4 → Runs (.txStateReq txh 0#2) s (fun t =>
        t = { s with regs := t.regs, radio := t.radio } ∧ t.chainState c = 0 ∧ (t.chain c).trsw = false
        ∧ (t.chain c).paEn = false ∧ (t.chain c).feStep = 0 ∧ (t.chain c).queue = h.queue))
    ∧ (here → s.chainState c = 0 → Runs (.txStateReq txh 0#2) s (fun t => radio t ∧ only t (aRADIO_TX_CTRL c)
        ∧ t.fget (fRADIO_TX_CTRL_state_req c) = 0 ∧ t.chain c = h))
    ∧ (here → s.chainState c ≠ 0 → Runs (.txStateReq txh 1#2) s (fun t => radio t ∧ only t (aRADIO_TX_CTRL c)
        ∧ t.fget (fRADIO_TX_CTRL_state_req c) = 1 ∧ t.chain c = { h with auto := false, sleepDue := false }))
    ∧ (2 ≤ v.toNat ∨ s.hasChain c = false → Runs (.txStateReq txh v) s (fun t => t = s))
    ∧ (s.hasChain c = true → ¬here → v.toNat < 2 → Runs (.txStateReq txh v) s (fun t =>
        s.OnlyRegs t (fun a => a = aRADIO_TX_CTRL c) ∧ t.fget (fRADIO_TX_CTRL_state_req c) = v.toNat))
    ∧ (h.waking = false ∨ s.pkg.stage ≠ .run → Runs (.txStandbyReached txh) s (fun t => t = s))
    ∧ (h.waking = true → s.pkg.stage = .run → h.start = none →
        (h.jtagHold = true ∨ (s.fget (fRADIO_TX_CTRL_state_req c) = 0 ∧ h.auto = false)
          ∨ (h.auto = true ∧ h.queue = [] ∧ h.air = [] ∧ h.feStep = 0
            ∧ (h.planSleep = true ∨ s.fget (fRADIO_TX_CTRL_state_req c) = 0))) →
        Runs (.txStandbyReached txh) s (fun t => radio t ∧ t.chainState c = 0 ∧ (t.chain c).queue = h.queue))
    ∧ (h.waking = true → s.pkg.stage = .run → h.jtagHold = false → h.sleepDue = false → h.off = false →
        (s.fget (fRADIO_TX_CTRL_state_req c) ≠ 0 ∧ h.auto = false) ∨ (h.auto = true ∧ h.queue ≠ []) →
        Runs (.txStandbyReached txh) s (fun t => radio t ∧ only t (aRADIO_TX_STATUS c) ∧ t.chainState c = 1
          ∧ t.chain c = { h with waking := false }))
    ∧ (s.pkg.power = .run → s.chainState c = 0 → s.autoWake c = true → h.queue ≠ [] → h.off = false →
        h.waking = false → s.fon (fRADIO_TX_STATUS_pa_gain_fault c) = false → Runs (.txAutoWake txh) s (fun t =>
          t = { s with radio := t.radio } ∧ radio t ∧ t.chain c = { h with waking := true, auto := true }))
    ∧ (s.chainState c ≠ 0 ∨ s.autoWake c = false ∨ h.queue = [] ∨ h.off = true ∨ h.waking = true →
        Runs (.txAutoWake txh) s (fun t => t = s))
    ∧ (s.chainState c ≠ 2 ∨ s.locked c = true → Runs (.txSynthLock txh) s (fun t => t = s))
    ∧ (s.chainState c = 2 → s.locked c = false → Runs (.txSynthLock txh) s (fun t => (t.chain c).calRun = none
        ∧ (t.chain c).cal = match h.calRun with
            | some l => calPut h.cal l s.radioTemp
            | none => h.cal))
    ∧ (s.chainState c = 2 → s.locked c = false → h.start = some x → x.phase = .hop → x.cmd.access = 2 →
        s.startLate c x = false →
        Runs (.txSynthLock txh) s (fun t => radio t ∧ only t (aRADIO_TX_STATUS c) ∧ t.locked c = true
          ∧ t.chainState c = 2 ∧ t.chain c = { h with
              start := some { x with phase := .go }, calRun := none
              cal := match h.calRun with
                | some l => calPut h.cal l s.radioTemp
                | none => h.cal }))
    ∧ (s.hasChain c = true → h.calReq = none → lo.toNat % 100 = 0 → inRange → Runs (.txCalGo txh lo) s (fun t =>
        radio t ∧ only t (aRADIO_TX_CAL c) ∧ t.chain c = { h with calReq := some lo.toNat }
        ∧ t.fon (fRADIO_TX_CAL_busy c) = true ∧ t.fget (fRADIO_TX_CAL_lo_khz c) = lo.toNat))
    ∧ (s.hasChain c = true → h.calReq ≠ none ∨ lo.toNat % 100 ≠ 0 ∨ ¬inRange → Runs (.txCalGo txh lo) s (fun t =>
        s.OnlyRegs t (fun a => a = aRADIO_TX_CAL c) ∧ t.fget (fRADIO_TX_CAL_lo_khz c) = lo.toNat
        ∧ t.fon (fRADIO_TX_CAL_busy c) = s.fon (fRADIO_TX_CAL_busy c)))
    ∧ (s.hasChain c = false → ∀ j ∈ [Instr.txCalGo txh lo, .txCalFlush txh], Runs j s (fun t => t = s))
    ∧ (2 ≤ s.chainState c → Runs (.txCalFlush txh) s (fun t => t.radio = s.radio ∧ ∀ a, t.reg a = s.reg a))
    ∧ (s.hasChain c = true → s.chainState c ≤ 1 → Runs (.txCalFlush txh) s (fun t => radio t
        ∧ (∀ a, t.reg a = s.reg a) ∧ t.chain c = { h with cal := [] }))
    ∧ (h.calReq = none ∨ s.chainState c ≠ 1 ∨ (∃ z ∈ h.queue, s.eligible c 200 z = true) →
        Runs (.txCalDone txh) s (fun t => t = s))
    ∧ (h.calReq = some g → s.chainState c = 1 → (∀ z ∈ h.queue, s.eligible c 200 z = false) → Runs (.txCalDone txh) s (fun t => radio t
        ∧ only t (aRADIO_TX_CAL c) ∧ t.fon (fRADIO_TX_CAL_busy c) = false
        ∧ t.chain c = { h with calReq := none, cal := calPut h.cal g s.radioTemp }))

/-- R94, R96, R98, R100, R101, R104. -/
def Obligations.TxCommands : Prop :=
  ∀ (s : State) (e : BitVec 7) (txh : Bool) (a v w7 : Word) (tag : BitVec 16) (b st : Nat)
    (rest : List (Nat × Nat × Nat)) (bs : List Byte) (z : TxStart),
    let c := b2n txh
    let k := b2n (v.getLsbD 16)
    let word (i : Nat) : Nat := if i = 7 then w7.toNat else (s.reg (aRADIO_TX_SUBMIT c i)).toNat
    let x := txCmdOf .sup (word 1 / 2 ^ 8 % 16) word
    let cap := s.subPower x.sub
    let goes (d : Nat) (p : TxCmd → Bool) (status : Nat) (t : State) : Prop :=
      (t.chain d).queue = (s.chain d).queue.filter (fun y => !p y)
        ∧ t.flight = s.flight ++ ((s.chain d).queue.filter p).map (fun y => doneFlight d y status (0, 0) 0)
        ∧ t = { s with regs := t.regs, radio := t.radio, flight := t.flight }
    let across := (s.linkTake (some (radioLink e.toNat))).2
    let open' : Prop := s.linkOpen (some (radioLink e.toNat)) = true
    let u : State := { across with radio := { across.radio with submits := rest } }
    let u := u.modEng e.toNat Engine.outDone
    let y := txCmdOf (.engine e.toNat) (u.engTenant e.toNat) (wordAt bs)
    let still (d : Nat) : Prop := (s.chain d).start = none ∧ (s.chain d).queue.Pairwise (fun y z => y.age ≠ z.age)
    (s.coreRuns e.toNat = true → s.hasChain c = true → Runs (.txSubmit e txh a) s (fun t =>
        t.radio = { s.radio with submits := s.radio.submits ++ [(e.toNat, c, a.toNat)] }
        ∧ t.eng e.toNat = { s.eng e.toNat with wait := some (0, 0#32) } ∧ (∀ m, m ≠ e.toNat → t.eng m = s.eng m)
        ∧ t = { s with radio := t.radio, engines := t.engines }))
    ∧ (s.coreRuns e.toNat = false ∨ s.hasChain c = false → Runs (.txSubmit e txh a) s (fun t => t = s))
    ∧ ((∀ q ∈ s.radio.submits, q.1 ≠ e.toNat) ∨ s.linkOpen (some (radioLink e.toNat)) = false →
        Runs (.txSubmitFetchDone e) s (fun t => t = s))
    ∧ (s.radio.submits = (e.toNat, c, b) :: rest → open' → s.clearMeets (aliasAddr e.toNat b) 32 = false → b % 8 = 0 →
        txMem (aliasAddr e.toNat b) = true →
        (u.dieOff (aliasAddr e.toNat b) || u.fenceOk (u.engTenant e.toNat) (aliasAddr e.toNat b) 32 false) = true →
        u.dmaRead (some (u.engTenant e.toNat)) e.toNat (aliasAddr e.toNat b) 32 = (some bs, u) →
        txWordsBad (wordAt bs) = false → u.txCheck c y = (none, u) → (u.chain c).queue.length < 64 →
        Runs (.txSubmitFetchDone e) s (fun t => (t.chain c).queue = (s.chain c).queue
            ++ [{ y with age := s.age, power := min (s.subPower y.sub) y.power, clamped := decide (s.subPower y.sub < y.power) }]
          ∧ t.radio.submits = rest ∧ t = { u with radio := t.radio, age := s.age + 1 }))
    ∧ (s.radio.submits = (e.toNat, c, b) :: rest → open' → s.clearMeets (aliasAddr e.toNat b) 32 = false →
        b % 8 ≠ 0 ∨ txMem (aliasAddr e.toNat b) = false → (s.eng e.toNat).wait = some (0, 0#32) → Runs (.txSubmitFetchDone e) s (fun t => t.radio.submits = rest
          ∧ t.eng e.toNat = { s.eng e.toNat with wait := none }
          ∧ t.flight = s.flight ++ [flightTo e.toNat 2 (0xB * 2 ^ 24 + c * 2 ^ 23) 0 0 0]
          ∧ t = { across with radio := t.radio, engines := t.engines, flight := t.flight }))
    ∧ (s.hasChain c = false ∨ s.linkOpen (some (1, false)) = false → Runs (.supTxSubmit txh w7) s (fun t => t = s))
    ∧ (s.hasChain c = true → s.linkOpen (some (1, false)) = true → txWordsBad word = true →
        Runs (.supTxSubmit txh w7) s (fun t => t.radio = s.radio ∧ t.fget (fRADIO_TX_RESULT_tag c) = x.tag
          ∧ t.fon (fRADIO_TX_RESULT_accepted c) = false ∧ t.fget (fRADIO_TX_RESULT_status c) = 0xB
          ∧ t.flight = s.flight ++ [doneFlight c x 0xB (0, 0) 0]))
    ∧ (s.hasChain c = true → s.linkOpen (some (1, false)) = true → txWordsBad word = false → s.txCheck c x = (none, s) → (s.chain c).queue.length < 64 →
        Runs (.supTxSubmit txh w7) s (fun t => (t.chain c).queue = (s.chain c).queue
            ++ [{ x with age := s.age, power := min cap x.power, clamped := decide (cap < x.power) }]
          ∧ t.fget (fRADIO_TX_RESULT_tag c) = x.tag ∧ t.fon (fRADIO_TX_RESULT_accepted c) = true
          ∧ t.fget (fRADIO_TX_RESULT_status c) = 0 ∧ (∀ z, z ≠ aRADIO_TX_RESULT c → t.reg z = s.reg z)
          ∧ t = { s with regs := t.regs, radio := t.radio, age := s.age + 1 }))
    ∧ (s.hasChain c = true → s.linkOpen (some (1, false)) = true → txWordsBad word = false →
        s.txCheck c x = (some st, s) → st < 16 →
        Runs (.supTxSubmit txh w7) s (fun t => t.radio = s.radio ∧ t.fget (fRADIO_TX_RESULT_tag c) = x.tag
          ∧ t.fon (fRADIO_TX_RESULT_accepted c) = false ∧ t.fget (fRADIO_TX_RESULT_status c) = st
          ∧ t.flight = s.flight ++ [doneFlight c x st (0, 0) 0]))
    ∧ (let p (y : TxCmd) : Bool := y.who == .engine e.toNat && y.tag == v.toNat % 2 ^ 16
      s.coreRuns e.toNat = true → open' → still k → (∀ y ∈ (s.chain k).queue, p y = true → y.Plain) →
        (∀ y ∈ (s.chain k).air, p y.cmd = false) → Runs (.txCancel e v) s (goes k p 0xD))
    ∧ (let p (y : TxCmd) : Bool := y.who == .sup && y.tag == tag.toNat
      s.linkOpen (some (1, false)) = true → still c → (∀ y ∈ (s.chain c).queue, p y = true → y.Plain) →
        (∀ y ∈ (s.chain c).air, p y.cmd = false) →
        Runs (.supTxCancel txh tag) s (goes c p 0xD))
    ∧ (let p (y : TxCmd) : Bool := decide (s.untilLatest y < 0)
      still c → (∀ y ∈ (s.chain c).queue, p y = true → y.Plain) →
        Runs (.txLatestStartExpiry txh) s (goes c p (s.lateStatus c)))
    ∧ ((s.coreRuns e.toNat = false ∨ s.linkOpen (some (radioLink e.toNat)) = false) → Runs (.txCancel e v) s (fun t => t = s))
    ∧ (s.linkOpen (some (1, false)) = false → Runs (.supTxCancel txh tag) s (fun t => t = s))
    ∧ ((s.chain c).start = some z → z.phase = .hop → s.untilLatest z.cmd < 0 → (s.chain c).queue = [] → z.cmd.node = .none → s.chainState c ≠ 0 →
        (∃ q, z.cmd.who = .engine q) ∨ z.cmd.who = .sup → Runs (.txLatestStartExpiry txh) s (fun t =>
          (t.chain c).start = none ∧ (t.chain c).calRun = (if t.chainState c = 0 then none else (s.chain c).calRun)
          ∧ t.flight = s.flight ++ [doneFlight c z.cmd 2 (0, 0) 0]))

/-- R90, R97, R98, R179, R180, R318, R330. -/
def Obligations.StartSequence : Prop :=
  ∀ (s : State) (txh : Bool) (x : TxCmd) (y : TxStart) (rms : BitVec 16) (n : Nat) (b : Bool) (m : Allowance),
    let c := b2n txh
    let h := s.chain c
    let len := psduRead x.mode x.len
    let readable : Prop := txMem x.buffer = true ∧ 0 < len ∧ s.dmaOk x.reader 128 x.buffer len false = true
      ∧ s.dieOff x.buffer = false ∧ s.unlaid x.buffer len = false ∧ s.Clean x.buffer len
    let p := if x.inl = [] then s.bytes x.buffer len else x.inl
    let ramp := if s.chainState c = 1 then s.fget (fRADIO_TX_FE_ramp_us c) else h.ramp
    let uj := s.txUj c (airThirds x.mode x.code x.len) ramp
    let u := dutyUnits x.mode x.code x.len ramp
    let cmd : TxCmd := { x with uj := uj, ujFrame := s.cinch.frame, units := u, bin := s.dutyBin }
    let clear : Prop := y.hit = false ∧ s.ccaBranch y.probe.1 y.probe.2 = true
      ∧ signedN 16 (s.branchLevel y.probe.1 y.probe.2 rms) < -(4 * (s.subThr y.cmd.sub : Int))
    (s.chainState c ≠ 0 → h.off = false → h.sleepDue = false → h.start = none → s.pkg.power = .run → h.air = [] →
        bestCmd (h.queue.filter (s.eligible c 0)) = some x → s.headMayStart c x = true →
        s.radio.agent.w = 0xFFFFFFFF → s.subDuty x.sub = 1000 → x.inl ≠ [] ∨ readable →
        (s.chainState c = 2 → s.locked c = true ∧ loOf x.freq ≠ h.lo) →
        Runs (.txStartSequence txh) s (fun t => (t.chain c).queue = h.queue.filter (fun z => z.age != x.age)
          ∧ (t.chain c).start = some { cmd := cmd, phase := .hop, join := false
                                       bits := onAir x.mode x.code x.urgent (framed x.mode p) }
          ∧ (t.chain c).lo = loOf x.freq ∧ t.chainState c = 2
          ∧ t.locked c = false
          ∧ (t.chain c).calRun = (if s.calValid c (loOf x.freq) then none else some (loOf x.freq))
          ∧ tabGet 0 t.radio.agent.used x.tenant = tabGet 0 s.radio.agent.used x.tenant + uj
          ∧ tabGet 0 (tabGet [] t.radio.duty.used (dutyKey x.sub s.dutyBin)) x.tenant
            = tabGet 0 (tabGet [] s.radio.duty.used (dutyKey x.sub s.dutyBin)) x.tenant + u
          ∧ t = { s with regs := t.regs, radio := t.radio }))
    ∧ (s.chainState c = 0 ∨ h.off = true ∨ h.sleepDue = true ∨ h.start ≠ none ∨ s.pkg.power.awake = false
          ∨ (s.chainState c = 2 ∧ s.locked c = false) ∨ h.queue.filter (s.eligible c 0) = [] →
        Runs (.txStartSequence txh) s (fun t => t = s))
    ∧ (h.start = none → ∀ j ∈ [Instr.ccaWindowEnd txh rms, .backoffExpiry txh], Runs j s (fun t => t = s))
    ∧ (h.start = some y → (y.phase ≠ .cca → Runs (.ccaWindowEnd txh rms) s (fun t => t = s))
        ∧ (y.phase ≠ .backoff → Runs (.backoffExpiry txh) s (fun t => t = s)))
    ∧ (h.start = some y → y.phase = .cca → clear → s.startLate c y = true → y.cmd.node = .none →
        (∃ q, y.cmd.who = .engine q) ∨ y.cmd.who = .sup → Runs (.ccaWindowEnd txh rms) s (fun t =>
          (t.chain c).start = none ∧ (t.chain c).queue = h.queue
          ∧ t.flight = s.flight ++ [doneFlight c y.cmd 3 (0, 0) 0]))
    ∧ (s.radio.agent.msg = none → Runs .agentMessage s (fun t => t = s))
    ∧ (h.start = some y → y.phase = .cca → clear → s.startLate c y = false → Runs (.ccaWindowEnd txh rms) s (fun t =>
        t.chain c = { h with start := some { y with phase := .go } } ∧ t = { s with radio := t.radio }))
    ∧ (h.start = some y → y.phase = .cca → ¬clear → y.cmd.access ≠ 1 → y.tries ≠ 4 →
        Runs (.ccaWindowEnd txh rms) s (fun t =>
          t.chain c = { h with start := some { y with phase := .backoff, tries := y.tries + 1, be := min (y.be + 1) 8 } }
          ∧ t.fget (fRADIO_LBT_COUNT_cca_busy c) = Nat.min (2 ^ (fRADIO_LBT_COUNT_cca_busy 0).width - 1)
            (s.fget (fRADIO_LBT_COUNT_cca_busy c) + 1)
          ∧ t = { s with regs := t.regs, radio := t.radio }))
    ∧ (h.start = some y → y.phase = .cca → ¬clear → y.cmd.access = 1 ∨ y.tries = 4 → y.cmd.node = .none →
        (∃ q, y.cmd.who = .engine q) ∨ y.cmd.who = .sup → Runs (.ccaWindowEnd txh rms) s (fun t =>
          (t.chain c).start = none ∧ (t.chain c).queue = h.queue
          ∧ t.flight = s.flight ++ [doneFlight c y.cmd 4 (0, 0) 0]))
    ∧ (h.start = some y → y.phase = .backoff → y.cmd.access ≠ 2 → s.probeOf y.cmd = some n →
        s.probeBranch n y.join = some b →
        1000 * (s.subCca y.cmd.sub + (if y.join then 0 else h.lead) + h.ramp : Nat) ≤ s.untilLatest y.cmd →
        Runs (.backoffExpiry txh) s (fun t => t = { s with radio := t.radio }
          ∧ t.chain c = { h with start := some { y with phase := .cca, probe := (n, b), hit := s.rxState n == 4 } }))
    ∧ (s.radio.agent.msg = some m → Runs .agentMessage s (fun t => t.radio.agent.w = m.w
        ∧ t.radio.agent.urgPm = m.urgPm ∧ t.radio.agent.msg = none ∧ t.radio.agent.used = s.radio.agent.used
        ∧ (∀ i, i < 16 → tabGet (0, 0) t.radio.agent.share i = m.share.getD i (0, 0)
          ∧ tabGet 0 t.radio.agent.engine i = m.engine.getD i 0)
        ∧ t = { s with radio := { s.radio with agent := t.radio.agent } }))

/-- R91, R101, R102, R337, R338. -/
def Obligations.TxOnAir : Prop :=
  ∀ (s : State) (txh : Bool) (x : TxCmd) (y : TxStart) (i : BitVec 2) (k : Carrier) (f : Nat × Nat) (n : Nat) (r : Bool),
    let c := b2n txh
    let h := s.chain c
    let step (q : BitVec 4) (p : State → Prop) : Prop := s.Steady → Runs (.frontEndStep txh q) s (fun t =>
      t = { s with regs := t.regs, radio := t.radio } ∧ p t)
    let a := acctOf (s.bytes (acctAddr n) 16)
    let e := ujOfTime (s.fget (fGIRTH_NCLASS_rx_uj_ms a.cls)) (airThirds x.mode x.code x.len)
      + (if r then s.fget (fGIRTH_NCLASS_reply_uj a.cls) else 0)
    let asked : Prop := h.queue.find? (fun z => z.node == .asked) = some x ∧ s.nodeOfCmd x = (some (n, r), s)
      ∧ s.Clean (acctAddr n) 16 ∧ a.day = s.nodeDay % 65536 ∧ n < 2 ^ 17
    (h.start = some y → y.phase = .go → y.join = false → h.air = [] → h.feStep = 0 → s.startLate c y = false →
      step 2#4 (fun t =>
        t.chainState c = 3 ∧ t.chain c = { h with
          feStep := 2, trsw := true, paMode := s.fon (fRADIO_TX_CTRL_tx_pa_mode c), blank := blankBands y.cmd }))
    ∧ (h.feStep = 2 → step 3#4 (fun t => t.chain c = { h with feStep := 3, paEn := true }))
    ∧ (h.start = some y → y.phase = .go → y.join = false → h.air = [] → h.feStep = 0 → s.startLate c y = true →
        y.cmd.node = .none → (∃ q, y.cmd.who = .engine q) ∨ y.cmd.who = .sup → s.Steady →
        Runs (.frontEndStep txh 2#4) s (fun t => (t.chain c).start = none
          ∧ t.flight = s.flight ++ [doneFlight c y.cmd 3 (0, 0) 0]))
    ∧ (h.start = some y → y.phase = .go → (y.join = false ∧ h.feStep = 3)
          ∨ (y.join = true ∧ h.air ≠ [] ∧ s.startLate c y = false) → step 4#4 (fun t =>
        (t.chain c).feStep = max 4 h.feStep ∧ (t.chain c).start = none
        ∧ (t.chain c).air = h.air ++ [{ cmd := y.cmd, bits := y.bits, symbols := airSymbols y.cmd.mode y.bits
                                        power := (y.cmd.power : Int) - 120
                                          + signedN 8 (if txh then s.fuses.paGainH else s.fuses.paGainL) }]))
    ∧ (step 5#4 (fun t => (t.chain c).air = h.air.map (fun k =>
        if k.first = none then { k with first := some (s.cinch.frame, s.nowNs) } else k)))
    ∧ (∀ q : BitVec 4, q ∈ [0#4, 1#4, 6#4, 10#4, 11#4, 12#4, 13#4, 14#4, 15#4] → step q (fun t => t = s))
    ∧ (h.feStep = 6 → step 7#4 (fun t => t.chain c = { h with feStep := 7, paEn := false }))
    ∧ (h.feStep = 7 → step 8#4 (fun t => t.chain c = { h with feStep := 8, trsw := false, paMode := false }))
    ∧ (h.feStep = 8 → step 9#4 (fun t => (t.chain c).feStep = 0 ∧ (t.chain c).blank = [] ∧ t.chainState c ≠ 3
        ∧ (t.chain c).queue = h.queue))
    ∧ (h.air[i.toNat]? = some k → k.first = some f → (∃ q, k.cmd.who = .engine q) ∨ k.cmd.who = .sup → s.Steady →
        Runs (.txCarrierEnd txh i) s (fun t =>
          (t.chain c).air = h.air.filter (fun z => z.cmd.age != k.cmd.age)
          ∧ ((t.chain c).air = [] → (t.chain c).feStep = 6)
          ∧ t.flight = s.flight ++ [doneFlight c k.cmd (b2n k.cmd.clamped) f k.cmd.units]
          ∧ t = { s with regs := t.regs, radio := t.radio, flight := t.flight }))
    ∧ (s.Steady → (h.air[i.toNat]? = none ∨ ∃ z, h.air[i.toNat]? = some z ∧ z.first = none) →
        Runs (.txCarrierEnd txh i) s (fun t => t = s))
    ∧ (h.queue.filter (fun z => s.eligible c 5 z && s.nodeDue z) = [] → Runs (.nodeAccountRequest txh) s (fun t => t = s))
    ∧ ((∀ z ∈ h.queue, z.node ≠ .asked) → Runs (.nodeAccountAnswer txh) s (fun t => t = s))
    ∧ (bestCmd (h.queue.filter (fun z => s.eligible c 5 z && s.nodeDue z)) = some x →
        Runs (.nodeAccountRequest txh) s (fun t => t = { s with radio := t.radio }
          ∧ t.chain c = { h with
              queue := h.queue.map (fun z => if z.age = x.age then { z with node := .asked } else z) }))
    ∧ (asked → r = false ∨ a.enforce = false ∨ a.spent + e ≤ a.allowance → a.spent + e < 2 ^ 32 →
        Runs (.nodeAccountAnswer txh) s (fun t => (∃ mj, (t.chain c).queue = h.queue.map (fun z =>
            if z.age = x.age then { z with node := .charged n e a.day mj } else z))
          ∧ (acctOf (t.bytes (acctAddr n) 16)).spent = a.spent + e
          ∧ s.OnlyBytes t (acctAddr n) 16
          ∧ t = { s with mem := t.mem, upkeep := t.upkeep, radio := t.radio, freeCount := t.freeCount }))
    ∧ (asked → r = true → a.enforce = true → a.allowance < a.spent + e → x.units = 0 → x.uj = 0 →
        (∃ q, x.who = .engine q) ∨ x.who = .sup → Runs (.nodeAccountAnswer txh) s (fun t =>
          (t.chain c).queue = h.queue.filter (fun z => z.age != x.age)
          ∧ t.flight = s.flight ++ [doneFlight c x 9 (0, 0) 0]
          ∧ (acctOf (t.bytes (acctAddr n) 16)).denied = true))

/-- Table 5-8, R134, R145–R152. -/
def Obligations.Ingress : Prop :=
  ∀ (s : State) (i : BitVec 9) (soft : List (BitVec 4)) (r : SyncRec) (q ten h mode code len : Nat)
    (rest : List RxReport) (core place x : Nat) (cx : CwCtx) (hc : HeldCw) (reason : Nat) (sw gn : Bool),
    let n := i.toNat
    let g := s.ingress n
    let wr := s.fget (fDECODER_RING_WR_count g.region g.tenant)
    let k := g.frame
    let f := s.frameRec k
    let m := codewords f.code f.len
    let one (fld : Fld) (t : State) : Prop := t.fget fld = (s.fget fld + 1) % 2 ^ fld.width
    let small : Prop := g.region < 4 ∧ g.tenant < 16
    let header : Prop := g.st = .header ∧ s.softOpen g.region = true ∧ s.ringsFree = true
    let seen := headerOf g.mode (headerWord g.mode (s.hardSoft g.mode (headerSoft g.mode) soft))
    let drawn := s.freeCount + headerSoft g.mode
    let open' : Prop := g.st = .body ∧ s.softOpen f.region = true ∧ s.ringsFree = true
    let body : Prop := open' ∧ s.decoder.frames.find? (fun e => e.1 == k) = some (k, f) ∧ f.ended = none
      ∧ f.region < 4 ∧ f.tenant < 16
    let endCame : Prop := ∃ a b c d l, takeReport n s.radio.reports = some (.ended a b c d, l)
    let psdu := uncodedPsdu f.mode f.len (s.hardSoft f.mode (8 * f.len) soft)
    let urg := decide (4 ≤ f.code)
    let req : HeldCw := { frame := k, cw := f.begun, region := f.region, tenant := f.tenant, urgent := urg
                          prio := if urg then 7 else s.tqPrio f.region f.tenant, age := s.age }
    let fills (e : Nat × CwCtx) : Bool := e.2.st == .fill && (s.frameRec e.2.frame).rx == n
    (takeReport n s.radio.reports = some (.sync q r ten h mode, rest) → g.st = .idle → s.softOpen h = true →
        Runs (.ingressSyncRecord i) s (fun t => t.radio = { s.radio with reports := rest }
          ∧ t.ingress n = { st := .header, sync := r, tenant := ten, region := h, mode := mode }
          ∧ t = { s with radio := t.radio, decoder := t.decoder }))
    ∧ (g.st ≠ .idle ∨ (∀ a b c d e l, takeReport n s.radio.reports = some (.sync a b c d e, l) → s.softOpen d = false) →
        Runs (.ingressSyncRecord i) s (fun t => t = s))
    ∧ (header → seen = none → small → Runs (.ingressHeader i soft) s (fun t =>
        t.ingress n = {} ∧ one (fDECODER_FCOUNT_hdr_fail g.tenant g.region) t ∧ t.rxState n ≠ 4
        ∧ t.decoder.frames = s.decoder.frames
        ∧ t = { s with regs := t.regs, decoder := t.decoder, freeCount := drawn }))
    ∧ (header → seen = some (code, len) → s.ringRoom g.region g.tenant len = false →
        small → Runs (.ingressHeader i soft) s (fun t => t.ingress n = {}
          ∧ one (fDECODER_FCOUNT_ring_full g.tenant g.region) t ∧ t.rxState n ≠ 4
          ∧ t.decoder.frames = s.decoder.frames
          ∧ t = { s with regs := t.regs, decoder := t.decoder, freeCount := drawn }))
    ∧ (¬header → Runs (.ingressHeader i soft) s (fun t => t = s))
    ∧ (header → seen = some (code, len) → s.ringRoom g.region g.tenant len = true →
        s.RingFlat g.region g.tenant wr 32 → Runs (.ingressHeader i soft) s (fun t =>
          t.ingress n = { g with st := .body, frame := s.decoder.next }
          ∧ t.fget (fDECODER_RING_WR_count g.region g.tenant) = (wr + entrySize len) % 2 ^ 24
          ∧ (∃ y : DecFrame, t.decoder.frames = s.decoder.frames ++ [(s.decoder.next, y)] ∧ y.rx = n ∧ y.code = code
            ∧ y.len = len ∧ y.start = wr ∧ y.tenant = g.tenant ∧ y.region = g.region ∧ y.sync = g.sync)
          ∧ t.bytes (s.ringKey g.region g.tenant wr) 32 = descBytes g.sync (descWord5 0 code len 0 false false 0) 0
          ∧ s.OnlyBytes t (s.ringKey g.region g.tenant wr) 32
          ∧ t = { s with regs := t.regs, decoder := t.decoder, mem := t.mem, upkeep := t.upkeep, freeCount := drawn }))
    ∧ (body → f.begun < m → (urg = true → s.urgentOpen f.region f.tenant = true) →
        s.grantCore f.region f.tenant urg = some core →
        (List.range 12).find? (fun p => (s.ctx (12 * core + p)).st == .free) = some place →
        Runs (.codewordStart i) s (fun t => t.ctx (12 * core + place)
            = { st := .fill, frame := k, cw := f.begun, tenant := f.tenant, urgent := urg, prio := req.prio
                age := s.age + 1 }
          ∧ (∀ z, z ≠ 12 * core + place → t.ctx z = s.ctx z) ∧ t.frameRec k = { f with begun := f.begun + 1 }
          ∧ t = { s with decoder := t.decoder, age := t.age }))
    ∧ (body → f.begun < m → urg = true → s.urgentOpen f.region f.tenant = false →
        s.grantCore f.region f.tenant false = some core →
        (List.range 12).find? (fun p => (s.ctx (12 * core + p)).st == .free) = some place →
        Runs (.codewordStart i) s (fun t => t.ctx (12 * core + place)
            = { st := .fill, frame := k, cw := f.begun, tenant := f.tenant, urgent := false
                prio := s.tqPrio f.region f.tenant, age := s.age + 1 }
          ∧ t.frameRec k = { f with begun := f.begun + 1, demoted := true }
          ∧ one (fDECODER_FCOUNT_urg_demoted f.tenant f.region) t
          ∧ t = { s with regs := t.regs, decoder := t.decoder, age := t.age }))
    ∧ (body → f.begun < m → (urg = true → s.urgentOpen f.region f.tenant = true) →
        s.grantCore f.region f.tenant urg = none → s.heldOf n < 2 →
        Runs (.codewordStart i) s (fun t => t.decoder.holds = s.decoder.holds ++ [req]
          ∧ t.frameRec k = { f with begun := f.begun + 1 } ∧ one (fDECODER_TQ_STATUS_held f.tenant f.region) t
          ∧ t = { s with regs := t.regs, decoder := t.decoder, age := t.age }))
    ∧ (body → f.begun < m → (urg = true → s.urgentOpen f.region f.tenant = true) →
        s.grantCore f.region f.tenant urg = none → 2 ≤ s.heldOf n → n < 320 → f.cap = false →
        (∀ e ∈ s.decoder.ctxs, e.2.frame ≠ k) → s.RingFlat f.region f.tenant f.start 32 →
        Runs (.codewordStart i) s (fun t => t.ingress n = {} ∧ t.rxState n ≠ 4
          ∧ one (fDECODER_OVR_dec_overrun n) t ∧ one (fDECODER_FCOUNT_overrun f.tenant f.region) t
          ∧ (∀ e ∈ t.decoder.holds, e.frame ≠ k) ∧ t.decoder.frames.any (fun e => e.1 == k) = false
          ∧ t.bytes (s.ringKey f.region f.tenant f.start) 32
            = descBytes (f.sync.ended (s.rx n).switched (s.rx n).gain)
              (descWord5 3 f.code f.len f.iterMax false (urg && !f.demoted) 1) s.nowNs
          ∧ s.OnlyBytes t (s.ringKey f.region f.tenant f.start) 32))
    ∧ (¬open' ∨ m ≤ f.begun → Runs (.codewordStart i) s (fun t => t = s))
    ∧ (s.softOpen f.region = true → s.decoder.ctxs.find? fills = some (x, cx) →
        Runs (.codewordFilled i soft) s (fun t => t.ctx x = { cx with st := .load, soft := soft }
          ∧ (∀ z, z ≠ x → t.ctx z = s.ctx z) ∧ t = { s with decoder := t.decoder }))
    ∧ (s.softOpen f.region = true → s.decoder.ctxs.find? fills = none →
        s.decoder.holds.find? (fun y => !y.full && (s.frameRec y.frame).rx == n) = some hc →
        Runs (.codewordFilled i soft) s (fun t =>
          t.decoder.holds = s.decoder.holds.map (fun y => if y.age = hc.age then { y with full := true, soft := soft } else y)
          ∧ t = { s with decoder := { s.decoder with holds := t.decoder.holds } }))
    ∧ (s.softOpen f.region = false ∨ (s.decoder.ctxs.find? fills = none
          ∧ s.decoder.holds.find? (fun y => !y.full && (s.frameRec y.frame).rx == n) = none) →
        Runs (.codewordFilled i soft) s (fun t => t = s))
    ∧ (open' → m ≤ f.begun → endCame →
        Runs (.ingressLastSoftBit i soft) s (fun t => exec (.ingressEndReport i) s = .next t))
    ∧ (¬open' ∨ f.begun < m → Runs (.ingressLastSoftBit i soft) s (fun t => t = s))
    ∧ (body → ¬endCame → m = 0 → f.stored = 0 → f.cap = false →
        s.RingFlat f.region f.tenant f.start (entrySize f.len) →
        psduGood f.mode psdu = true → Runs (.ingressLastSoftBit i soft) s (fun t => t.ingress n = {}
          ∧ t.rxState n ≠ 4 ∧ t.bytes (s.ringKey f.region f.tenant f.start + 32) f.len = psdu
          ∧ (∃ e, t.relay.queue = s.relay.queue ++ [e] ∧ e.start = f.start ∧ e.tenant = f.tenant ∧ e.region = f.region
            ∧ e.len = f.len ∧ e.sync = f.sync.ended (s.rx n).switched (s.rx n).gain)
          ∧ one (fDECODER_FCOUNT_ok f.tenant f.region) t
          ∧ t.decoder.frames.any (fun e => e.1 == k) = false
          ∧ s.OnlyBytes t (s.ringKey f.region f.tenant f.start) (32 + f.len)))
    ∧ (body → ¬endCame → m ≠ 0 → f.begun = m → f.stored < m →
        Runs (.ingressLastSoftBit i soft) s (fun t => t.ingress n = {}
        ∧ t.frameRec k = { f with lastIn := true, sync := f.sync.ended (s.rx n).switched (s.rx n).gain }
        ∧ t.rxState n ≠ 4 ∧ t = { s with regs := t.regs, decoder := t.decoder }))
    ∧ (s.ringsFree = false ∨ ¬endCame → Runs (.ingressEndReport i) s (fun t => t = s))
    ∧ (takeReport n s.radio.reports = some (.ended q reason sw gn, rest) → s.ringsFree = true → g.st ≠ .body →
        Runs (.ingressEndReport i) s (fun t => t.radio = { s.radio with reports := rest } ∧ t.ingress n
            = (if g.st = .header then {} else g)
          ∧ t = { s with radio := t.radio, decoder := t.decoder }))
    ∧ (takeReport n s.radio.reports = some (.ended q reason sw gn, rest) → body → f.cap = false →
        (∀ e ∈ s.decoder.ctxs, e.2.frame ≠ k) → (∀ e ∈ s.decoder.holds, e.frame ≠ k) →
        s.RingFlat f.region f.tenant f.start 32 → Runs (.ingressEndReport i) s (fun t =>
          t.radio = { s.radio with reports := rest } ∧ t.ingress n = {}
          ∧ t.decoder.frames = s.decoder.frames.filter (fun e => e.1 != k)
          ∧ t.bytes (s.ringKey f.region f.tenant f.start) 32 = descBytes (f.sync.ended sw gn)
            (descWord5 3 f.code f.len f.iterMax false (decide (4 ≤ f.code) && !f.demoted) reason) s.nowNs
          ∧ s.OnlyBytes t (s.ringKey f.region f.tenant f.start) 32))

/-- Table 5-9, R146–R152. -/
def Obligations.DecoderContexts : Prop :=
  ∀ (s : State) (x : BitVec 7) (core : BitVec 3) (e : BitVec 7) (v : Word) (m : Master)
    (rg : BitVec 2) (tn : BitVec 4) (y : Nat) (c : CwCtx),
    let k := x.toNat
    let cx := s.ctx k
    let f := s.frameRec cx.frame
    let off := cwFirst f.len (codewords f.code f.len) cx.cw
    let raw := packUp (s.ctxBytes cx) (s.ctxBits cx cx.iters cx.tie)
    let dec (t : State) : Prop := t = { s with decoder := t.decoder, freeCount := s.freeCount + cwLongest }
    let zero := s.ctxZero cx 0 s.freeCount
    let solved := s.ctxZero c (c.iters + 1) s.freeCount
    let busy (p : CwCtx → Prop) : Prop := ∃ z, z / 12 = k / 12 ∧ z ≠ k ∧ p (s.ctx z)
    let n := c.iters + 1
    let cap := if c.urgent then s.fget fDECODER_CAP_urg_cap else s.fget fDECODER_CAP_norm_cap
    let urgentWaits : Prop :=
      s.decoder.ctxs.any (fun z => z.1 / 12 == core.toNat && z.2.st == .ready && z.2.urgent) = true
    let inCore (z : Nat × CwCtx) : Bool := z.1 / 12 == core.toNat && z.2.st == .iterate
    let iterates : Prop := keysRise s.decoder.ctxs = true ∧ s.decoder.ctxs.find? inCore = some (y, c)
      ∧ s.decoder.frames.find? (fun z => z.1 == c.frame) = some (c.frame, s.frameRec c.frame)
      ∧ (s.frameRec c.frame).ended = none
    let rr := regionOf e.toNat
    let tt := s.engTenant e.toNat
    let rd := s.fget (fDECODER_RING_RD_count rr tt)
    let room := countDiff (s.fget (fDECODER_RING_WR_count rr tt)) rd
    let r := rg.toNat
    let t' := tn.toNat
    let put (u new old : Nat) : Nat := if u = t' then new else old
    let fits := r147 (fun u => put u (v.toNat % 32) (s.fget (fDECODER_TQ_guar r u)))
      (fun u => put u (v.toNat / 2 ^ 8 % 32) (s.fget (fDECODER_TQ_ceil r u)))
      (fun u => put u (v.toNat / 2 ^ 16 % 32) (s.fget (fDECODER_TQ_urg_max r u))) (resOf (s.fget fDECODER_RESERVE_res) r)
    let merged := resMerge (s.fget fDECODER_RESERVE_res) v.toNat 8
    let resFits := (List.range 4).all (fun z => r147 (fun u => s.fget (fDECODER_TQ_guar z u))
      (fun u => s.fget (fDECODER_TQ_ceil z u)) (fun u => s.fget (fDECODER_TQ_urg_max z u)) (resOf merged z))
    (keysRise s.decoder.ctxs = true → cx.st = .load → zero = true → Runs (.contextLoadDone x) s (fun t => dec t
        ∧ t.ctx k = { cx with st := .store, tie := s.freeCount }))
    ∧ (cx.st ≠ .load → Runs (.contextLoadDone x) s (fun t => t = s))
    ∧ (keysRise s.decoder.ctxs = true → cx.st = .load → zero = false → busy (fun z => z.st = .iterate) →
        Runs (.contextLoadDone x) s (fun t => dec t ∧ t.ctx k = { cx with st := .ready, tie := s.freeCount }
          ∧ ∀ z, z ≠ k → t.ctx z = s.ctx z))
    ∧ (keysRise s.decoder.ctxs = true → cx.st = .load → zero = false →
        ¬busy (fun z => z.st = .iterate ∨ z.st = .ready) → Runs (.contextLoadDone x) s (fun t => dec t
          ∧ t.ctx k = { cx with st := .iterate, tie := s.freeCount } ∧ ∀ z, z ≠ k → t.ctx z = s.ctx z))
    ∧ (s.decoder.ctxs.find? inCore = none → Runs (.iterationEnd core) s (fun t => t = s))
    ∧ (keysRise s.decoder.ctxs = true → s.decoder.ctxs.find? inCore = some (y, c) → s.decoder.holds = [] →
        (s.frameRec c.frame).ended ≠ none → Runs (.iterationEnd core) s (fun t => t.ctx y = {}))
    ∧ (iterates → solved = true → Runs (.iterationEnd core) s (fun t => dec t
        ∧ t.ctx y = { c with st := .store, iters := n, tie := s.freeCount }
        ∧ t.frameRec c.frame = { s.frameRec c.frame with iterMax := max (s.frameRec c.frame).iterMax n }))
    ∧ (iterates → solved = false → cap ≤ n → Runs (.iterationEnd core) s (fun t => dec t
        ∧ t.ctx y = { c with st := .store, iters := n, tie := s.freeCount } ∧ (t.frameRec c.frame).cap = true
        ∧ (t.frameRec c.frame).iterMax = max (s.frameRec c.frame).iterMax n))
    ∧ (iterates → solved = false → n < cap → c.urgent = true ∨ ¬urgentWaits → Runs (.iterationEnd core) s (fun t =>
        dec t ∧ t.ctx y = { c with iters := n, tie := s.freeCount } ∧ ∀ z, z ≠ y → t.ctx z = s.ctx z))
    ∧ (iterates → solved = false → n < cap → c.urgent = false → urgentWaits → Runs (.iterationEnd core) s (fun t =>
        t.fget (fDECODER_CORE_STATUS_preempt core.toNat)
          = (s.fget (fDECODER_CORE_STATUS_preempt core.toNat) + 1) % 2 ^ 16
        ∧ t = { s with regs := t.regs, decoder := t.decoder, freeCount := s.freeCount + cwLongest }))
    ∧ (cx.st ≠ .store ∨ s.ringsFree = false → Runs (.contextStoreDone x) s (fun t => t = s))
    ∧ (cx.st = .store → s.ringsFree = true → s.decoder.holds = [] → f.lastIn = false → f.ended = none →
        s.decoder.frames.find? (fun z => z.1 == cx.frame) = some (cx.frame, f) →
        s.RingFlat f.region f.tenant f.start (entrySize f.len) → off + raw.length ≤ f.len →
        Runs (.contextStoreDone x) s (fun t => t.ctx k = {} ∧ (∀ z, z ≠ k → t.ctx z = s.ctx z)
          ∧ t.frameRec cx.frame = { f with stored := f.stored + 1 }
          ∧ t.bytes (s.ringKey f.region f.tenant f.start + 32 + off) raw.length
            = pn9Whiten (pn9Run (8 * off) 0x1FF).2 raw
          ∧ s.OnlyBytes t (s.ringKey f.region f.tenant f.start + 32 + off) raw.length
          ∧ t = { s with decoder := t.decoder, mem := t.mem, upkeep := t.upkeep }))
    ∧ (s.coreRuns e.toNat = false → Runs (.ringRdWrite e v) s (fun t => t = s))
    ∧ (s.coreRuns e.toNat = true → (∀ z ∈ s.decoder.frames, z.2.region = rr → z.2.tenant = tt →
          countDiff (v.toNat % 2 ^ 24) rd ≤ countDiff z.2.start rd) →
        countDiff (v.toNat % 2 ^ 24) rd ≤ room → Runs (.ringRdWrite e v) s (fun t =>
          t.fget (fDECODER_RING_RD_count rr tt) = v.toNat % 2 ^ 24 ∧ t.fon (fDECODER_TQ_STATUS_rd_err tt rr) = false
          ∧ s.OnlyRegs t (fun a => a = aDECODER_RING_RD rr tt ∨ a = aDECODER_TQ_STATUS tt rr)))
    ∧ (s.coreRuns e.toNat = true → room < countDiff (v.toNat % 2 ^ 24) rd ∨ (∃ z ∈ s.decoder.frames, z.2.region = rr
          ∧ z.2.tenant = tt ∧ countDiff z.2.start rd < countDiff (v.toNat % 2 ^ 24) rd) → Runs (.ringRdWrite e v) s (fun t =>
        t.fon (fDECODER_TQ_STATUS_rd_err tt rr) = true
        ∧ s.OnlyRegs t (fun a => a = aDECODER_TQ_STATUS tt rr)))
    ∧ (s.regOpen m (aDECODER_TQ r t') true = true → s.hasRegion r = true → fits = true → v.toNat / 2 ^ 24 % 8 ≠ 7 →
        Runs (.decoderTqWrite m rg tn v) s (fun t => t.fget (fDECODER_TQ_guar r t') = v.toNat % 32
          ∧ t.fget (fDECODER_TQ_ceil r t') = v.toNat / 2 ^ 8 % 32
          ∧ t.fget (fDECODER_TQ_urg_max r t') = v.toNat / 2 ^ 16 % 32
          ∧ t.fget (fDECODER_TQ_prio r t') = v.toNat / 2 ^ 24 % 8
          ∧ t.fon (fDECODER_TQ_deliver_bad r t') = v.getLsbD 31
          ∧ t.prioFlight = s.prioFlight ++ [.decoder r t' (v.toNat / 2 ^ 24 % 8)]
          ∧ (∀ a, a ≠ aDECODER_TQ r t' → t.reg a = s.reg a)
          ∧ t = { s with regs := t.regs, prioFlight := t.prioFlight }))
    ∧ (s.regReach m (aDECODER_TQ r t') = false → Runs (.decoderTqWrite m rg tn v) s (fun t => t = s))
    ∧ (s.regReach m aDECODER_RESERVE = false → Runs (.decoderReserveWrite m v) s (fun t => t = s))
    ∧ (s.regOpen m (aDECODER_TQ r t') true = true → s.hasRegion r = false ∨ fits = false → Runs (.decoderTqWrite m rg tn v) s (fun t => t = s))
    ∧ (s.regOpen m aDECODER_RESERVE true = true → resFits = true → Runs (.decoderReserveWrite m v) s (fun t =>
        t.fget fDECODER_RESERVE_res = merged ∧ s.OnlyRegs t (fun a => a = aDECODER_RESERVE)))
    ∧ (s.regOpen m aDECODER_RESERVE true = true → resFits = false → Runs (.decoderReserveWrite m v) s (fun t => t = s))

/-- R164, R167, R424, Tables 6-6 and 6-7. -/
def Obligations.RelayVerdicts : Prop :=
  ∀ (s : State) (draw : BitVec 16) (e : RelayEntry) (rest : List RelayEntry) (k : Nat) (j : RelayJob) (out : List Byte)
    (more : List (Nat × List Byte)) (a : AliasEntry) (ad : Nat) (n : Node) (b st ch sub : Nat),
    let p := s.entryBytes e
    let f := frameOf p e.len
    let here : Prop := s.Takes e rest ∧ s.fon fRELAY_CTRL_en = true ∧ s.Clean 0x04000000 0x520000
    let floods : Prop := f.flood = true ∧ 0 < f.ttl
    let sound : Prop := here ∧ e.mode ≠ 6 ∧ f.malformed = false ∧ s.started f.tenant = true
    let rein : Prop := sound ∧ ¬floods
    let w := modeWidth e.mode
    let freq := s.fget (fRADIO_RX_FREQ_freq_hz e.rx)
    let onPath : Prop := s.chainFor freq w = some ch ∧ s.subOf freq w = some sub
    let bad := s.badTenant e f
    let owner (u : Nat) : Nat := if s.started u then u else e.tenant
    let zeroed (t : State) : Prop := ∀ i, 16 ≤ i → i < e.len → t.byte (s.entryKey e + 32 + i) = 0#8
    let seenNow (t : State) (src ctr : Nat) : Prop := ∃ q, (t.seen q).valid = true ∧ (t.seen q).src = src
      ∧ (t.seen q).ctr = ctr ∧ (t.seen q).dlv = true ∧ (t.seen q).tenant = e.tenant
    let frame (t : State) : Prop :=
      t = { s with regs := t.regs, mem := t.mem, upkeep := t.upkeep, relay := t.relay, flight := t.flight }
    let c := (p.getD 1 0#8).toNat
    let f1 : Prop := here ∧ e.mode = 6 ∧ c % 16 < 4 ∧ c / 2 ^ 4 % 4 = 0 ∧ c / 2 ^ 7 = 0 ∧ 2 ≤ e.len
    let addr := beNat ((p.drop 2).take 3)
    let waits (p : RelayEntry → Bool) : Prop := s.relayNext p = none
    let done : Prop := s.relay.job = some j ∧ j.entry = e ∧ j.psdu = p ∧ e.mode ≠ 6 ∧ j.tenant < 16 ∧ e.region < 4
      ∧ e.tenant < 16 ∧ s.ringsFree = true ∧ s.Clean 0x04000000 0x520000
      ∧ s.RingFlat e.region e.tenant e.start (entrySize e.len)
    (waits (fun y => s.fon fRELAY_CTRL_en && y.mode != 6) → Runs (.relayHandle draw) s (fun t => t = s))
    ∧ (waits (fun y => s.fon fRELAY_CTRL_en && y.mode == 6) → Runs .relayHandleF1 s (fun t => t = s))
    ∧ (waits (fun _ => !s.fon fRELAY_CTRL_en) → Runs .relaySort s (fun t => t = s))
    ∧ (s.relay.job = none ∨ s.cipher.relayDone = [] ∨ s.ringsFree = false →
        Runs .relayVerifyResult s (fun t => t = s))
    ∧ (here → e.mode ≠ 6 → f.malformed = true → Runs (.relayHandle draw) s (fun t =>
        t.relay = { s.relay with queue := rest } ∧ s.Judged t e 8 true ∧ zeroed t
        ∧ s.Counted t (fRELAY_TCOUNT_plain (owner bad)) ∧ t.flight = s.flight ∧ frame t))
    ∧ (rein → f.secured = false → s.fon (fRELAY_TCFG_plain_ok f.tenant) = false → Runs (.relayHandle draw) s (fun t =>
        t.relay.queue = rest ∧ s.Judged t e 6 true ∧ s.Counted t (fRELAY_TCOUNT_plain f.tenant) ∧ t.flight = s.flight
        ∧ frame t))
    ∧ (rein → f.secured = false → s.fon (fRELAY_TCFG_plain_ok f.tenant) = true → f.tenant = e.tenant →
        s.seenLookup f.src f.ctr = none → Runs (.relayHandle draw) s (fun t => t.relay.queue = rest
          ∧ s.Judged t e 1 false ∧ seenNow t f.src f.ctr ∧ t.flight = s.flight ++ [s.frameFlight e e.tenant 1]
          ∧ s.Counted t (fRELAY_TCOUNT_delivered e.tenant) ∧ frame t))
    ∧ (rein → f.secured = false → s.fon (fRELAY_TCFG_plain_ok f.tenant) = true → s.seenLookup f.src f.ctr = some k →
        (s.seen k).dlv = true → (s.seen k).relay ≠ .pending → Runs (.relayHandle draw) s (fun t => t.relay.queue = rest
          ∧ s.Judged t e 2 true ∧ t.seen k = { s.seen k with count := min ((s.seen k).count + 1) 15 }
          ∧ s.Counted t (fRELAY_TCOUNT_dup f.tenant) ∧ t.flight = s.flight ∧ frame t))
    ∧ (rein → f.secured = true → s.relayKey f (s.nodeLookup f.src).1 ≠ .absent → Runs (.relayHandle draw) s (fun t =>
        (∃ i, t.relay.job = some i ∧ i.entry = e ∧ i.tenant = f.tenant) ∧ t.relay.queue = rest
        ∧ (∃ q, t.cipher.queue = s.cipher.queue ++ [q] ∧ q.who = .relay ∧ q.op = 5 ∧ q.tlen = 4
          ∧ q.inl = (f.nonce, f.aad, (p.take (e.len - 4)).drop 16))
        ∧ t = { s with relay := t.relay, cipher := t.cipher }))
    ∧ (sound → floods → f.secured = false → s.fon (fRELAY_TCFG_plain_ok f.tenant) = true →
        s.fon (fRELAY_TCFG_relay_en f.tenant) = true → s.seenLookup f.src f.ctr = none → onPath →
        (List.range 256).find? (fun i => !s.relay.bufs.contains i) = some b →
        0x02000000 ≤ s.entryKey e → s.entryKey e + entrySize e.len ≤ 0x04000000 → Runs (.relayHandle draw) s (fun t =>
          t.bytes (0x04500000 + 512 * b) e.len = leBytes 2 (f.fc - 2 ^ 8) ++ p.drop 2
          ∧ ∃ q, (t.seen q).valid = true ∧ (t.seen q).src = f.src ∧ (t.seen q).ctr = f.ctr
            ∧ (t.seen q).relay = .pending))
    ∧ (done → s.cipher.relayDone = (st, out) :: more → st ≠ 0 → st ≠ 1 → f.secured = true → ¬floods →
        s.seenLookup f.src f.ctr = none → Runs .relayVerifyResult s (fun t => t.relay.job = none
          ∧ t.cipher = { s.cipher with relayDone := more } ∧ s.Judged t e 5 true
          ∧ s.Counted t (fRELAY_TCOUNT_unknown (owner f.tenant)) ∧ t.flight = s.flight))
    ∧ (done → s.cipher.relayDone = (0, out) :: more → j.byNode = true → j.node = some (ad, f.src, k) → k < f.ctr →
        j.tenant = e.tenant → f.tenant = e.tenant → f.type = 0 → f.ackReq = true → f.dst = s.airAddr →
        s.fon (fRELAY_TCFG_ack_en e.tenant) = true → ¬floods → s.seenLookup f.src f.ctr = none → onPath →
        e.sync.era = s.cinch.era → s.cipher.queue.length < 32 → Runs .relayVerifyResult s (fun t =>
          ∃ z head x, t.cipher.queue = s.cipher.queue ++ [z] ∧ z.who = .unit (.seal ch head x) ∧ z.op = 4
            ∧ z.byRec = true ∧ z.key = j.record ∧ x.startF = e.endAt.1 ∧ x.startNs = e.endAt.2 + 1000000 ∧ x.prio = 7
            ∧ x.sub = sub ∧ x.power = s.fget (fRELAY_TCFG_ack_power e.tenant) ∧ x.tenant = e.tenant))
    ∧ (done → s.cipher.relayDone = (1, out) :: more → Runs .relayVerifyResult s (fun t => t.relay.job = none
        ∧ t.cipher = { s.cipher with relayDone := more } ∧ s.Judged t e 3 true
        ∧ s.Counted t (fRELAY_TCOUNT_mic_fail (owner j.tenant)) ∧ t.flight = s.flight))
    ∧ (done → s.cipher.relayDone = (0, out) :: more → j.node = none → j.byNode = false → j.tenant = e.tenant →
        f.tenant = e.tenant → (f.type ≠ 0 ∨ f.ackReq = false) → ¬floods →
        s.seenLookup f.src f.ctr = none → out.length ≤ e.len - 16 → Runs .relayVerifyResult s (fun t =>
          t.relay.job = none ∧ s.Judged t e 1 false ∧ t.bytes (s.entryKey e + 48) out.length = out
          ∧ seenNow t f.src f.ctr ∧ t.flight = s.flight ++ [s.frameFlight e e.tenant 1]
          ∧ s.Counted t (fRELAY_TCOUNT_delivered e.tenant)))
    ∧ (s.Takes e rest → s.fon fRELAY_CTRL_en = false → e.mode ≠ 6 → 20 ≤ e.len → f.type < 8 → f.tenant = e.tenant →
        Runs .relaySort s (fun t => t.relay = { s.relay with queue := rest } ∧ s.Judged t e 1 false
          ∧ t.flight = s.flight ++ [s.frameFlight e e.tenant 1] ∧ s.Counted t (fRELAY_TCOUNT_delivered e.tenant)))
    ∧ (s.Takes e rest → s.fon fRELAY_CTRL_en = false → e.mode ≠ 6 → 20 ≤ e.len → f.type < 8 → f.tenant ≠ e.tenant →
        e.tenant ≠ 0 → Runs .relaySort s (fun t => t.relay = { s.relay with queue := rest } ∧ s.Judged t e 4 true
          ∧ zeroed t ∧ t.flight = s.flight ∧ s.Counted t (fRELAY_TCOUNT_foreign (owner f.tenant))))
    ∧ (f1 → s.aliasFind addr = none → Runs .relayHandleF1 s (fun t => t.relay = { s.relay with queue := rest }
        ∧ s.Judged t e 5 true ∧ s.Counted t fOLDTREE_COUNT_alias_miss
        ∧ s.Counted t (fRELAY_TCOUNT_unknown e.tenant) ∧ t.flight = s.flight ∧ frame t))
    ∧ (here → e.mode = 6 → c % 16 < 4 → c / 2 ^ 4 % 4 = 0 → c / 2 ^ 7 % 2 = 1 → 13 ≤ e.len →
        s.aliasFind addr = some a → (s.nodeLookup a.node).1 = some (ad, n) → n.tenant = a.tenant →
        s.fuses.oldTree.getLsbD 30 = true → Runs .relayHandleF1 s (fun t => t.relay.queue = rest
          ∧ (∃ i, t.relay.job = some i ∧ i.entry = e ∧ i.tenant = a.tenant ∧ i.psdu = p)
          ∧ (∃ q, t.cipher.queue = s.cipher.queue ++ [q] ∧ q.who = .relay ∧ q.op = 5 ∧ q.tlen = 2 ∧ q.byRec = true
            ∧ q.key = n.record
            ∧ q.inl = ((p.drop 2).take 5 ++ (p.drop 1).take 1 ++ List.replicate 7 0#8, p.take 7,
              (p.take (e.len - 2)).drop 7))
          ∧ t = { s with relay := t.relay, cipher := t.cipher }))
    ∧ (f1 → s.aliasFind addr = some a → (s.nodeLookup a.node).1 = some (ad, n) → n.tenant = a.tenant →
        a.tenant = e.tenant → s.fon (fRELAY_TCFG_plain_ok a.tenant) = true → c / 2 ^ 6 % 2 = 0 →
        s.seenLookup n.id (0x80000000 + beNat ((p.drop 5).take 2)) = none → Runs .relayHandleF1 s (fun t =>
          t.relay.queue = rest ∧ s.Judged t e 1 false ∧ seenNow t n.id (0x80000000 + beNat ((p.drop 5).take 2))
          ∧ t.flight = s.flight ++ [s.frameFlight e e.tenant 1] ∧ s.Counted t (fRELAY_TCOUNT_delivered e.tenant)
          ∧ frame t))

/-- R173, R175, R201, R202, R423, R426. -/
def Obligations.RelaySupport : Prop :=
  ∀ (s : State) (i : BitVec 4) (m : Master) (a : BitVec 24) (slot : BitVec 12) (x : TxCmd) (r : RelayTx) (st : Nat)
    (first : Option (Nat × Nat)) (rest : List (TxCmd × Nat × Option (Nat × Nat))) (v : Reserve) (k : Nat)
    (sent : List Nat),
    let only (f : Fld) (t : State) : Prop := s.Counted t f ∧ ∀ b, b ≠ f.addr → t.reg b = s.reg b
    let w := s.fget fOLDTREE_ALIAS_tenant
    let id := s.fget fOLDTREE_ALIAS_node_id
    let al (t : State) (q : Nat) : AliasEntry := tabGet {} t.relay.aliases q
    let ways := (List.range 4).map (fun b => 4 * aliasSet a.toNat + b)
    let setOk : Prop := isNodeId id = true ∧ s.declared w = true
    let answers (n : Nat) (t : State) : Prop := t.fget fOLDTREE_ALIAS_status = n
      ∧ t.fget fOLDTREE_ALIAS_addr = a.toNat ∧ t = { s with regs := t.regs, relay := t.relay }
      ∧ ∀ b, b ≠ aOLDTREE_ALIAS_w0 → b ≠ aOLDTREE_ALIAS_w1 → b ≠ aOLDTREE_ALIAS_w2 → t.reg b = s.reg b
    let entry : AliasEntry := { valid := true, addr := a.toNat, tenant := w, node := id }
    let stored (q : Nat) (z : AliasEntry) (t : State) : Prop := al t q = z ∧ ∀ b, b ≠ q → al t b = al s b
    let n := slot.toNat
    let next := decide (n * 250000 < s.nowNs)
    let fr := (s.cinch.frame + b2n next) % 2 ^ 32
    let ch := s.fget fCINCH_BEACON_chain
    let due : Prop := s.cinch.started = true ∧ n < 3900 ∧ s.fon fCINCH_BEACON_en = true ∧ s.cinch.stepDue = false
      ∧ (s.reg (aCINCH_PLAN (s.bankFor next) n)).getLsbD 17 = true
    let open' : Prop := s.regOpen m aOLDTREE_ALIAS_w0 true = true
    let latency (q : Nat × Nat) : Nat := (s.untilNs q.1 q.2 - s.untilNs r.endF r.endNs).toNat
    let mode := s.fget fCINCH_BEACON_mode
    (s.relay.done = [] → Runs .relayTxCompletion s (fun t => t = s))
    ∧ (s.relay.done = (x, st, first) :: rest → (∀ q, x.who = .relay q → q.kind ≠ .ack ∧ q.kind ≠ .relay) →
        Runs .relayTxCompletion s (fun t => t = { s with relay := { s.relay with done := rest } }))
    ∧ (s.relay.done = (x, st, first) :: rest → x.who = .relay r → r.kind = .relay → 1 < st → Runs .relayTxCompletion s
        (fun t => (if r.cut then only (fRELAY_TCOUNT_suppressed x.tenant) t
            else if st = 2 ∨ st = 4 then t.regs = s.regs else only (fRELAY_TCOUNT_no_relay x.tenant) t)
          ∧ (∀ b, r.buf = some b → t.relay.bufs = s.relay.bufs.filter (fun z => z != b))
          ∧ t = { s with regs := t.regs, relay := { s.relay with done := rest, bufs := t.relay.bufs } }))
    ∧ (∀ q, s.relay.done = (x, st, some q) :: rest → x.who = .relay r → r.kind = .relay → st ≤ 1 → x.urgent = true →
        r.era = s.cinch.era → x.tenant < 16 → Runs .relayTxCompletion s (fun t =>
          s.Counted t (fRELAY_TCOUNT_relayed x.tenant) ∧ s.Counted t fRELAY_URG_LAT_radiated
          ∧ t.fget fRELAY_URG_LAT_last_ns = latency q % 2 ^ 32
          ∧ (r.limit < latency q → s.Counted t fRELAY_URG_LAT_over) ∧ t.relay.done = rest
          ∧ t = { s with regs := t.regs, relay := t.relay, upkeep := t.upkeep }))
    ∧ (s.relay.done = (x, st, first) :: rest → x.who = .relay r → r.kind = .ack → Runs .relayTxCompletion s (fun t =>
        only (if st ≤ 1 then fRELAY_TCOUNT_ack_sent x.tenant else fRELAY_TCOUNT_ack_lost x.tenant) t
        ∧ t = { s with regs := t.regs, relay := { s.relay with done := rest } }))
    ∧ (s.relay.done = (x, st, first) :: rest → x.who = .relay r → r.kind = .relay → st ≤ 1 → x.urgent = false →
        Runs .relayTxCompletion s (fun t => only (fRELAY_TCOUNT_relayed x.tenant) t ∧ t.relay.done = rest
          ∧ (∀ b, r.buf = some b → t.relay.bufs = s.relay.bufs.filter (fun z => z != b))
          ∧ t = { s with regs := t.regs, relay := t.relay, upkeep := t.upkeep }))
    ∧ ((s.chain 0).reserves[i.toNat]? = none → Runs (.reservationStart i) s (fun t =>
        t = { s with radio := t.radio } ∧ ∀ q, t.chain q = s.chain q))
    ∧ ((s.chain 0).reserves[i.toNat]? = none → Runs (.reservationEnd i) s (fun t => t = s))
    ∧ ((s.chain 0).reserves[i.toNat]? = some v →
        (s.chain 0).air.any (fun q => q.first.isSome && s.isReply v q.cmd) = true → Runs (.reservationEnd i) s (fun t =>
          t.chain 0 = { s.chain 0 with reserves := (s.chain 0).reserves.eraseIdx i.toNat } ∧ t.chain 1 = s.chain 1
          ∧ t = { s with radio := t.radio }))
    ∧ (s.regReach m aOLDTREE_ALIAS_w0 = false → ∀ c ∈ [Instr.aliasSet m a, .aliasDelete m a, .aliasGet m a],
        Runs c s (fun t => t = s))
    ∧ ((s.chain 0).reserves[i.toNat]? = some v → Runs (.reservationStart i) s (fun t => t = { s with radio := t.radio }
        ∧ (t.chain 0).reserves[i.toNat]? = some { v with stands := true }
        ∧ (∀ q, q ≠ i.toNat → (t.chain 0).reserves[q]? = (s.chain 0).reserves[q]?) ∧ t.chain 1 = s.chain 1))
    ∧ ((s.chain 0).reserves[i.toNat]? = some v →
        (s.chain 0).air.any (fun q => q.first.isSome && s.isReply v q.cmd) = false → Runs (.reservationEnd i) s (fun t =>
          t.chain 0 = { s.chain 0 with reserves := (s.chain 0).reserves.eraseIdx i.toNat } ∧ t.chain 1 = s.chain 1
          ∧ only fOLDTREE_COUNT_res_unused t ∧ t = { s with regs := t.regs, radio := t.radio }))
    ∧ (open' → setOk → s.aliasKey a.toNat = some k → Runs (.aliasSet m a) s (fun t => answers 0 t
        ∧ stored k entry t))
    ∧ (open' → setOk → s.aliasKey a.toNat = none → ways.find? (fun q => !(al s q).valid) = some k →
        Runs (.aliasSet m a) s (fun t => answers 0 t ∧ stored k entry t))
    ∧ (open' → setOk → s.aliasKey a.toNat = none → ways.find? (fun q => !(al s q).valid) = none →
        Runs (.aliasSet m a) s (fun t => answers 2 t ∧ t.relay = s.relay))
    ∧ (open' → ¬setOk → Runs (.aliasSet m a) s (fun t => answers 3 t ∧ t.relay = s.relay))
    ∧ (open' → s.aliasKey a.toNat = some k → Runs (.aliasDelete m a) s (fun t => answers 0 t
        ∧ stored k {} t))
    ∧ (open' → s.aliasKey a.toNat = some k → (al s k).tenant < 16 → (al s k).node < 2 ^ 32 →
        Runs (.aliasGet m a) s (fun t => answers 0 t ∧ t.relay = s.relay ∧ t.fon fOLDTREE_ALIAS_valid = true
          ∧ t.fget fOLDTREE_ALIAS_tenant = (al s k).tenant ∧ t.fget fOLDTREE_ALIAS_node_id = (al s k).node))
    ∧ (open' → s.aliasKey a.toNat = none → Runs (.aliasDelete m a) s (fun t => answers 1 t
        ∧ t.relay = s.relay))
    ∧ (open' → s.aliasKey a.toNat = none → Runs (.aliasGet m a) s (fun t => answers 1 t ∧ t.relay = s.relay
        ∧ t.fon fOLDTREE_ALIAS_valid = false))
    ∧ (¬due → Runs (.beaconBuild slot) s (fun t => t = s))
    ∧ (s.cinch.beaconDone = [] → Runs .beaconCompletion s (fun t => t = s))
    ∧ (due → mode < 3 ∨ mode = 4 → (s.keySlot 1).valid = true → s.hasChain ch = true →
        Runs (.beaconBuild slot) s (fun t => s.Counted t fTABLE_BB_CTR_bb_ctr
          ∧ (∃ q head y, q.who = .unit (.seal ch head y) ∧ q.op = 4 ∧ q.byRec = false ∧ q.key = 1 ∧ head.length = 16
            ∧ y.who = .beacon ∧ y.startF = fr ∧ y.startNs = n * 250000 ∧ y.prio = 7 ∧ y.mode = mode
            ∧ y.freq = s.fget fCINCH_BEACON_freq_hz
            ∧ (if s.cipher.queue.length < 32 then t.cipher = { s.cipher with queue := s.cipher.queue ++ [q] }
              else t.cipher = { s.cipher with waiting := s.cipher.waiting ++ [q] }))
          ∧ t = { s with regs := t.regs, cipher := t.cipher }))
    ∧ (due → (s.keySlot 1).valid = false ∨ s.hasChain ch = false ∨ ¬(mode < 3 ∨ mode = 4) → Runs (.beaconBuild slot) s (fun t => only fCINCH_COUNT_beacon_fail t
        ∧ t = { s with regs := t.regs }))
    ∧ (s.cinch.beaconDone = st :: sent → Runs .beaconCompletion s (fun t =>
        only (if st ≤ 1 then fCINCH_COUNT_beacon_sent else fCINCH_COUNT_beacon_fail) t
        ∧ t = { s with regs := t.regs, cinch := { s.cinch with beaconDone := sent } }))

/-- R187, R190–R195. -/
def Obligations.CinchServo : Prop :=
  ∀ (s : State) (x : BitVec 30) (p : Bool) (m : Master) (v : Word) (i k : Nat),
    let cin (t : State) : Prop := t = { s with regs := t.regs, cinch := t.cinch }
    let newest (src : Nat) (o : Int) (t : State) : Prop :=
      let y := t.source src
      let z := s.source src
      y.last = o ∧ y.taken = true ∧ (z.qualified = true → y.qualified = true)
        ∧ (if z.expected then y.offs = (o :: z.offs).take 4 ∧ y.fresh = true ∧ y.missing = 0 ∧ y.since = 0
          else y.offs = z.offs ∧ y.fresh = z.fresh ∧ y.qualified = z.qualified)
        ∧ ∀ j, j ≠ src → t.source j = s.source j
    let untaken (src : Nat) : Prop := (s.source src).taken = false
    let late : Prop := ∀ y, s.cinch.ppsAt = some y → 20000000 ≤ s.mono - y
    let n := b2n p
    let s1 := if s.cinch.started && decide (x.toNat < s.frameLen) then s.cinchTo x.toNat else s
    let sec := (s1.ptpTime n).1 + 1
    let src := (sec % 2 ^ 32 + 2 ^ 32 - s.fget fCINCH_EPOCH_epoch) % 2 ^ 32
    let po : Int := signedN 32 (s.cinch.frame + 2 ^ 32 - src) * 1000000000 + (s1.nowNs : Int)
    let w (j : Nat) : Nat := (s.reg (aCINCH_AIR_OBS_w0 + 4 * j)).toNat
    let w4 := v.toNat ||| 1
    let dev := w4 / 2 ^ 20 % 2 ^ 12
    let str := w4 / 2 ^ 16 % 16
    let age := (s.cinch.frame + 2 ^ 32 - w 0) % 2 ^ 32
    let ao : Int := signedN 32 (w 0 + 2 ^ 32 - w 2) * 1000000000 + ((w 1 % 2 ^ 30 : Nat) : Int)
      - ((w 3 % 2 ^ 30 : Nat) : Int) - (s.fget (fCINCH_AIR_NBR_air_delay_ns i) : Int)
      - (if age ≤ 2 then s.adjsSince (w 0) else 0)
    let timely : Prop := age ≤ 2 ∨ 2 ^ 31 ≤ age
    let free : Prop := s.cinch.started = true ∧ s.cinch.decided = false ∧ 400000000 * 8000000000 ≤ s.cinch.tu
      ∧ ∀ j, 1 ≤ j → j ≤ 4 → (s.source j).fresh = true
    let atD : Prop := free ∧ s.cinch.reacquire = false
    let air : Prop := s.regOpen m aCINCH_AIR_OBS_w4 true = true
    let o := (s.source k).last
    let lim := s.slewLimit
    let chosen (t : State) : Prop := cin t ∧ t.cinch.decided = true ∧ t.fget fCINCH_STATUS_source = k
      ∧ t.fget fCINCH_STATUS_stratum = (s.source k).stratum % 16 ∧ t.fget fCINCH_OFFSET_offset = satField 32 o
    let runs : Prop := s.selectSource = some k
      ∧ (s.cinchState = 1 ∨ (s.cinchState = 2 ∧ s.fget fCINCH_STATUS_source = k))
    let r := signedN 16 (v.toNat % 65536)
    (s.cinch.started = false → Runs (.ppsEdge x) s (fun t => t = s))
    ∧ (s.cinch.started = true → late → (s.source 1).taken = true → Runs (.ppsEdge x) s (fun t =>
        t = { s with regs := t.regs, cinch := { s.cinch with ppsAt := some s.mono } }
        ∧ s.Counted t fPINMUX_CINCH_IN_edges))
    ∧ (s.cinch.started = true → late → untaken 1 → Runs (.ppsEdge x) s (fun t => cin t
        ∧ newest 1 (wrapSec ((x.toNat : Int) - signedN 16 (s.fget fCINCH_PPS_CFG_pps_offset_ns))) t
        ∧ (t.source 1).stratum = min 15 (s.fget fCINCH_PPS_CFG_pps_stratum + 1)
        ∧ t.cinch.ppsAt = some s.mono ∧ s.Counted t fPINMUX_CINCH_IN_edges))
    ∧ (s.cinch.started = true → ¬late → Runs (.ppsEdge x) s (fun t => t = { s with regs := t.regs }
        ∧ s.Counted t fPINMUX_CINCH_IN_extra))
    ∧ (Runs (.ptpRollover p x) s (fun t => t.ptpTime n = (sec % 2 ^ 48, 0)
        ∧ t.wired.ppsOut = (s.wired.ppsOut || (s.fon fPINMUX_PPS_en && s.fget fPINMUX_PPS_pps_port == n))
        ∧ (s.cinch.started = true → s.fon (fCINCH_PTP_CFG_ptp_ok n) = true → untaken (2 + n) → po.natAbs ≤ 500000000 →
          newest (2 + n) po t)
        ∧ (s.cinch.started = false ∨ s.fon (fCINCH_PTP_CFG_ptp_ok n) = false → t.cinch = s1.cinch)))
    ∧ Runs .ppsOutFall s (fun t => t = { s with wired := { s.wired with ppsOut := false } })
    ∧ (s.regReach m aCINCH_AIR_OBS_w4 = false → Runs (.airObsSubmit m v) s (fun t => t = s))
    ∧ (s.regReach m aCINCH_CTRL = false → Runs (.reacquire m v) s (fun t => t = s))
    ∧ (s.regReach m aCINCH_RATE = false → Runs (.rateWrite m v) s (fun t => t = s))
    ∧ (air → s.airNbr dev = some i → timely → untaken 4 → w4.testBit 15 = false → str ≠ 15 →
        str < s.fget fCINCH_STATUS_stratum → ao.natAbs ≤ 500000000 → Runs (.airObsSubmit m v) s (fun t => cin t
          ∧ newest 4 ao t ∧ (t.source 4).stratum = str + 1
          ∧ (t.source 4).period = 2 ^ s.fget (fCINCH_AIR_NBR_period i)))
    ∧ (air → s.airNbr dev = none ∨ ¬timely ∨ w4.testBit 15 = true ∨ str = 15 ∨ s.fget fCINCH_STATUS_stratum ≤ str → Runs (.airObsSubmit m v) s (fun t => t = { s with regs := t.regs }
        ∧ s.Counted t fCINCH_COUNT_obs_refused))
    ∧ (s.cinch.started = false ∨ s.cinch.decided = true → Runs .cinchDecision s (fun t => t = s))
    ∧ (s.cinch.started = true → s.cinch.decided = false → Runs .cinchDecision s (fun t => t.cinch.decided = true
        ∧ 400000000 * 8000000000 ≤ t.cinch.tu ∧ t.cinch.frame = s.cinch.frame ∧ t.cinch.reacquire = false
        ∧ t = { s with regs := t.regs, cinch := t.cinch, mono := t.mono, girth := t.girth, flight := t.flight }))
    ∧ (free → s.cinch.reacquire = true → s.selectSource = some k → Runs .cinchDecision s (fun t => chosen t
        ∧ t.cinch.adj = wrapSec o ∧ t.cinch.stepDue = true ∧ t.cinchState = 1 ∧ t.cinch.reacquire = false
        ∧ s.Counted t fCINCH_COUNT_sets))
    ∧ (atD → s.selectSource = some k → s.cinchState = 3 → o.natAbs ≤ 2000000 → Runs .cinchDecision s (fun t => chosen t
        ∧ t.cinch.adj = clampI (-lim) lim o ∧ t.cinchState = 1))
    ∧ (atD → s.selectSource = none → s.cinchState = 1 ∨ s.cinchState = 2 → Runs .cinchDecision s (fun t => cin t
        ∧ t.cinch.decided = true ∧ t.cinchState = 3 ∧ t.cinch.adj = 0 ∧ t.fget fCINCH_STATUS_source = 0
        ∧ t.cinch.held = s.cinch.held ∧ t.fon fCINCH_STATUS_locked = false))
    ∧ (atD → runs → o.natAbs ≤ 2000000 → Runs .cinchDecision s (fun t => chosen t
        ∧ t.cinch.adj = clampI (-lim) lim o ∧ t.cinch.held = clampI (-80000) 80000 (s.cinch.held + o)
        ∧ t.cinch.stepDue = s.cinch.stepDue))
    ∧ (atD → runs → 2000000 < o.natAbs → s.cinch.stepOpen = true → Runs .cinchDecision s (fun t => chosen t
        ∧ t.cinch.adj = o ∧ t.cinch.stepDue = true ∧ t.cinch.lastStep = some s.cinch.frame ∧ t.cinchState = 1
        ∧ s.Counted t fCINCH_COUNT_steps))
    ∧ (atD → runs → 2000000 < o.natAbs → s.cinch.stepOpen = false → Runs .cinchDecision s (fun t => chosen t
        ∧ t.cinch.adj = (if 0 < o then lim else -lim) ∧ s.Counted t fCINCH_COUNT_step_deferred))
    ∧ (atD → s.selectSource = some k → s.cinchState = 0 → Runs .cinchDecision s (fun t => chosen t
        ∧ t.cinch.adj = wrapSec o ∧ t.cinch.stepDue = true ∧ t.cinchState = 1 ∧ s.Counted t fCINCH_COUNT_sets))
    ∧ (s.cinchState ≠ 3 ∨ s.cinch.holdOut = true ∨ s.cinch.holdFrames < s.fget fCINCH_SERVO_holdover_keep →
        Runs .holdoverKeepExpiry s (fun t => t = s))
    ∧ (s.cinchState = 3 → s.cinch.holdOut = false → s.fget fCINCH_SERVO_holdover_keep ≤ s.cinch.holdFrames →
        Runs .holdoverKeepExpiry s (fun t => t.cinch = { s.cinch with holdOut := true }
          ∧ t.fget fCINCH_STATUS_stratum = 15 ∧ t.fon fCINCH_STATUS_alarm_hold = true
          ∧ (∃ d, t.flight = s.flight ++ [flightTo 128 11 (2 * 2 ^ 24 + d) 0 0 0])
          ∧ t = { s with regs := t.regs, cinch := t.cinch, log := t.log, flight := t.flight }))
    ∧ (s.regOpen m aCINCH_CTRL true = true → Runs (.reacquire m v) s (fun t => t.cinch = { s.cinch with reacquire := true } ∧ cin t
        ∧ t.fget fCINCH_CTRL_prio = v.toNat % 2 ^ 16 ∧ t.fget fCINCH_CTRL_src_en = v.toNat / 2 ^ 16 % 16
        ∧ ∀ a, a ≠ aCINCH_CTRL → t.reg a = s.reg a))
    ∧ (s.regOpen m aCINCH_RATE true = true → s.cinchState = 0 ∨ s.cinchState = 3 → r.natAbs ≤ 10000 → Runs (.rateWrite m v) s (fun t =>
        t = { s with cinch := { s.cinch with held := 8 * r } }))
    ∧ (s.regOpen m aCINCH_RATE true = true → (s.cinchState ≠ 0 ∧ s.cinchState ≠ 3) ∨ 10000 < r.natAbs → Runs (.rateWrite m v) s (fun t =>
        t = s))

/-- R186, R196, R200, R204, R405, R406, Table 7-3. -/
def Obligations.CinchFrames : Prop :=
  ∀ (s : State) (slot : BitVec 12) (m : Master) (bank : Bool) (v drift : Word) (island : BitVec 2),
    let n := slot.toNat
    let e := s.reg (aCINCH_PLAN s.planBank n)
    let named := (List.range 16).filter (fun u => e.getLsbD u && s.started u)
    let i := island.toNat
    let x0 := s.extNow i
    let x : ExtSt := { x0 with tu := x0.tu + signedN 32 drift.toNat * 7812500 }
    let off := (s.extDiff x).natAbs
    let others (t : State) : Prop := ∀ j, j ≠ i → t.ext j = s.ext j
    let held : Prop := s.Steady ∧ s.fon fGIRTH_CTRL_auto = false ∧ s.fon fGIRTH_CTRL_force = false
    (s.cinch.started = false ∨ s.cinch.decided = false → Runs .cinchBoundary s (fun t => t = s))
    ∧ (s.cinch.started = true → s.cinch.decided = true → held → Runs .cinchBoundary s (fun t =>
          t.cinch.frame = s.cinch.renumber.getD ((s.cinch.frame + 1) % 2 ^ 32) ∧ t.cinch.prev = s.cinch.frame
          ∧ t.cinch.lastAdj = s.cinch.adj ∧ t.cinch.rate = s.cinch.held ∧ t.cinch.adj = 0 ∧ t.cinch.decided = false
          ∧ t.cinch.stepDue = false ∧ t.cinch.renumber = none
          ∧ t.cinch.era = (if s.cinch.stepDue then s.cinch.era + 1 else s.cinch.era)
          ∧ (∀ j, j < 4 → (t.ext j).frame = t.cinch.frame ∧ (t.ext j).prevLen = s.frameLen)
          ∧ t.log.fenceCount = [] ∧ t.log.eccCount = []))
    ∧ (s.cinch.started = true → s.cinch.decided = true → s.cinch.stepDue = false → s.cinch.renumber = none → s.Steady →
        s.fon fGIRTH_CTRL_auto = false → s.fon fGIRTH_CTRL_force = false → Runs .cinchBoundary s (fun t =>
          t.cinch.frame = (s.cinch.frame + 1) % 2 ^ 32 ∧ t.cinch.prev = s.cinch.frame ∧ t.cinch.lastAdj = s.cinch.adj
          ∧ t.cinch.rate = s.cinch.held ∧ t.cinch.adj = 0 ∧ t.cinch.decided = false ∧ t.cinch.slot = 0
          ∧ t.fget fGIRTH_FRAME_frame = s.cinch.frame % 2 ^ 32 ∧ t.radio.agent.used = []
          ∧ (∃ a, t.radio.agent.msg = some a) ∧ t.log.fenceCount = [] ∧ t.log.eccCount = []
          ∧ t.cinch.outRise = (if s.fon fPINMUX_CINCH_OUT_en = false then s.cinch.outRise
              else if s.outOffset < 0 then none else some (t.cinch.frame, s.outOffset.toNat))
          ∧ t.relay = s.relay ∧ t.cipher = s.cipher ∧ t.decoder = s.decoder ∧ t.engines = s.engines))
    ∧ (s.cinch.started = true → s.cinch.slot < n → n < 4000 → n * 250000 < s.frameLen →
        Runs (.slotStart slot) s (fun t => t.cinch.slot = n ∧ n * 250000 * 8000000000 ≤ t.cinch.tu
          ∧ t.cinch.frame = s.cinch.frame
          ∧ t.flight = s.flight ++ named.map (fun u =>
            flightTo (s.fget (fRELAY_TCFG_target u)) 5 n s.cinch.frame 0 0)
          ∧ t.wired.strobe = (s.wired.strobe || e.getLsbD 16)
          ∧ t = { s with regs := t.regs, cinch := t.cinch, flight := t.flight, wired := t.wired, timers := t.timers
                         mono := t.mono, girth := t.girth }))
    ∧ (s.cinch.started = false ∨ n ≤ s.cinch.slot ∨ 4000 ≤ n ∨ s.frameLen ≤ n * 250000 →
        Runs (.slotStart slot) s (fun t => t = s))
    ∧ Runs .slotStrobeEnd s (fun t => t = { s with wired := { s.wired with strobe := false } })
    ∧ Runs .cinchOutFall s (fun t => t.outLevel = false ∧ t = { s with cinch := { s.cinch with
        out := false, outRise := if s.outRisen then none else s.cinch.outRise } })
    ∧ (s.regReach m aCINCH_PLAN_CTRL = false → Runs (.planSwapRequest m) s (fun t => t = s))
    ∧ (s.regReach m (aCINCH_PLAN (b2n bank) n) = false → Runs (.planWrite m bank slot v) s (fun t => t = s))
    ∧ (s.regOpen m aCINCH_PLAN_CTRL true = true → Runs (.planSwapRequest m) s (fun t => t.fon fCINCH_PLAN_CTRL_swap = true
        ∧ t.planBank = s.planBank ∧ s.OnlyRegs t (fun a => a = aCINCH_PLAN_CTRL)))
    ∧ (s.regOpen m (aCINCH_PLAN (b2n bank) n) true = true → b2n bank ≠ s.planBank → n < 4000 → Runs (.planWrite m bank slot v) s (fun t =>
        t.reg (aCINCH_PLAN (b2n bank) n) = BitVec.ofNat 32 (v.toNat % 2 ^ 18)
        ∧ s.OnlyRegs t (fun a => a = aCINCH_PLAN (b2n bank) n)))
    ∧ (s.regOpen m (aCINCH_PLAN (b2n bank) n) true = true → b2n bank = s.planBank ∨ 4000 ≤ n → Runs (.planWrite m bank slot v) s (fun t => t = s))
    ∧ (s.cinch.started = false → Runs (.extenderUpdate island drift) s (fun t => t = s))
    ∧ (s.cinch.started = true → 8 * 1024 < off → Runs (.extenderUpdate island drift) s (fun t =>
        t.fon fCINCH_STATUS_ext_slip = true ∧ others t
        ∧ t.ext i = { x with frame := s.cinch.frame, tu := s.cinch.tu, rate := s.cinch.rate, len := s.frameLen }
        ∧ (∃ d, t.flight = s.flight ++ [flightTo 128 11 (2 * 2 ^ 24 + d) 0 0 0])
        ∧ t = { s with regs := t.regs, log := t.log, flight := t.flight, cinch := { s.cinch with ext := t.cinch.ext } }))
    ∧ (s.cinch.started = true → off ≤ 8 * 1024 → Runs (.extenderUpdate island drift) s (fun t =>
        t.ext i = { x with rate := s.cinch.rate, len := s.frameLen } ∧ others t
        ∧ t = { s with cinch := { s.cinch with ext := t.cinch.ext } }))

/-- R206–R223. -/
def Obligations.NodePorts : Prop :=
  ∀ (s : State) (p : BitVec 2) (x : PortCmd) (a w : Nat) (n : Node),
    let k := p.toNat
    let q := s.asker x.core
    let A := aliasAddr x.core x.addr
    let clean : Prop := s.Clean 0x04000000 0x400000 ∧ s.Clean 0x04520000 0x10000
    let ans (t : State) (op st way set : Nat) : Prop := t.Answered k x op st way set s.flight
    let found : Prop := (s.nodeLookup (x.w 1)).1 = some (a, n)
    let d := x.w 1
    let e : Node := { nodeOf (x.blk.drop 16) with valid := true }
    let u := e.tenant
    let base := s.fget (fTABLE_TQUOTA_rec_base u)
    let count := s.fget (fTABLE_TQUOTA_rec_count u)
    let restore := bitN (x.w 0) 16
    let pinFull := s.nodePinned u == s.fget (fTABLE_TQUOTA_max_pinned u)
    let may : Prop := isNodeId d = true ∧ e.id = d ∧ e.here = (e.home == s.device) ∧ base ≤ e.record
      ∧ e.record < base + count ∧ (q = none ∨ (q = some u ∧ restore = false))
    let set := s.nodeSet d
    let fresh : Node := if restore then e
      else { e with heard := s.cinch.frame, hit := true, clear1 := false, receiver := 0, branch := 0, mode := 0
                    rssi := 0, vcount := 0 }
    let w0 := x.w 4
    let M := aliasAddr x.core (x.w 1)
    let len := x.w 2 % 2 ^ 9
    let m := ixtOf (s.bytes M len)
    let copy : Ixt := { m with src := s.device, msgId := s.fget fTABLE_MSG_ID_msg_id, flooded := false, byNode := false }
    let wr := s.fget (fTABLE_TINBOX_wr m.tenant)
    let room := (copy.bytes.length + 7) / 8 * 8
    let z := s.relay.sweepSet
    let way (i : Nat) : Node := nodeOf (s.bytes (nodeAddr z i) 32)
    let ops : List (Nat × Instr) := [(1, .lookup p), (2, .insert p), (3, .delete p), (4, .readWay p), (5, .routeSet p)
      , (6, .routeGet p), (7, .forward p), (8, .inboxRd p)]
    let rd := s.fget (fTABLE_TINBOX_rd w)
    (∀ o ∈ ops, s.portCmd k = none → Runs o.2 s (fun t => t = s))
    ∧ (∀ o ∈ ops, s.portReady k = true → s.portPick ≠ some k ∨ s.relayAsks = true → Runs o.2 s (fun t => t = s))
    ∧ (∀ o ∈ ops, s.portReady k = true → s.portCmd k = some x → x.w 0 / 2 ^ 28 % 16 ≠ o.1 → Runs o.2 s (fun t => t = s))
    ∧ (∀ o ∈ ops, s.portCmd k = some x → x.blk = [] → s.dmaWaits x.core (A, 48) = true → Runs o.2 s (fun t => t = s))
    ∧ (∀ o ∈ ops, s.portCmd k = some x → x.blk = [] → s.dmaWaits x.core (A, 48) = false → s.dieOff A = false →
        windowOff A = none → s.dmaOk q x.core A 48 false = true → s.dmaKey x.core A = some A → s.unlaid A 48 = false →
        s.Clean A 48 → ({ x with blk := s.bytes A 48 } : PortCmd).malformed = false → Runs o.2 s (fun t =>
          t.portCmd k = some { x with blk := s.bytes A 48 } ∧ (∀ i, i ≠ k → t.portCmd i = s.portCmd i)
          ∧ t = { s with relay := t.relay }))
    ∧ (s.PortHolds k x 8 → q = none ∨ (q = some w ∧ (2 ^ 24 ≤ d
          ∨ countDiff (s.fget (fTABLE_TINBOX_wr w)) rd < countDiff (d % 2 ^ 24) rd)) →
        Runs (.inboxRd p) s (fun t => ans t 8 8 0 0 ∧ s.Counted t fTABLE_COUNT_bad_cmd))
    ∧ (s.PortHolds k x 5 → q ≠ none → Runs (.routeSet p) s (fun t => ans t 5 7 0 0 ∧ s.OnlyBytes t (A + 8) 40))
    ∧ (s.PortHolds k x 6 → q ≠ none → Runs (.routeGet p) s (fun t => ans t 6 7 0 0 ∧ s.OnlyBytes t (A + 8) 40))
    ∧ (s.PortHolds k x 2 → isNodeId d = false ∨ e.id ≠ d → Runs (.insert p) s (fun t => ans t 2 8 0 0
        ∧ s.OnlyBytes t (A + 8) 40))
    ∧ (s.PortHolds k x 7 → bitN (x.w 0) 18 = false → len < 16 ∨ 483 < len → Runs (.forward p) s (fun t =>
        ans t 7 8 0 0 ∧ s.OnlyBytes t (A + 8) 40))
    ∧ (clean → s.PortHolds k x 3 → (s.nodeLookup d).1 = none → Runs (.delete p) s (fun t => ans t 3 3 0 0
        ∧ s.OnlyBytes t (A + 8) 40))
    ∧ (s.fon fTABLE_CFG_sweep_en = false ∨ s.pkg.power.awake = false → Runs .sweepStep s (fun t => t = s))
    ∧ (clean → s.PortHolds k x 1 → found → sees q n = true → Runs (.lookup p) s (fun t => ans t 1 0 (wayOf a).2 (wayOf a).1
        ∧ t.bytes (A + 16) 32 = nodeBytes n ∧ s.OnlyBytes t (A + 8) 40))
    ∧ (clean → s.PortHolds k x 1 → (s.nodeLookup d).1 = none → Runs (.lookup p) s (fun t => ans t 1 3 0 0
        ∧ t.bytes (A + 16) 32 = x.blk.drop 16 ∧ s.OnlyBytes t (A + 8) 40))
    ∧ (clean → s.PortHolds k x 3 → found → sees q n = true → Runs (.delete p) s (fun t =>
        ans t 3 0 (wayOf a).2 (wayOf a).1 ∧ t.bytes a 32 = nodeBytes { n with valid := false }))
    ∧ (clean → s.PortHolds k x 4 → q = none → d < 2 ^ 17 → Runs (.readWay p) s (fun t => ans t 4 0 (d % 8) (d / 8)
        ∧ t.bytes (A + 16) 32 = nodeBytes (nodeOf (s.bytes (nodeAddr (d / 8) (d % 8)) 32)) ∧ s.OnlyBytes t (A + 8) 40))
    ∧ (clean → s.PortHolds k x 4 → q ≠ none → Runs (.readWay p) s (fun t => ans t 4 7 0 0))
    ∧ (clean → s.PortHolds k x 2 → may → (s.nodeLookup d).1 = none → s.nodeEntries u ≠ count →
        (e.pinned && pinFull) = false → s.insertWay (s.nodeWays set 0 8).1 = some (w, n) → n.valid = false → w < 8 →
        Runs (.insert p) s (fun t => ans t 2 1 w set ∧ t.bytes (nodeAddr set w) 32 = nodeBytes fresh
          ∧ ∀ j, (j < nodeAddr set w ∨ nodeAddr set w + 32 ≤ j) → (j < A + 8 ∨ A + 48 ≤ j) → t.byte j = s.byte j))
    ∧ (clean → s.PortHolds k x 2 → may → found → sees q n = true → (e.pinned && !n.pinned && pinFull) = false →
        Runs (.insert p) s (fun t => ans t 2 0 (wayOf a).2 (wayOf a).1
          ∧ t.bytes a 32 = nodeBytes (n.updated e restore) ∧ n.ctr ≤ (n.updated e restore).ctr))
    ∧ (clean → s.PortHolds k x 5 → q = none → d < 4096 → w0 / 2 ^ 27 % 8 < 5 → w0 / 2 ^ 24 % 8 ≠ 7 →
        (d = s.device ↔ w0 / 2 ^ 27 % 8 = 1) → w0 / 2 ^ 30 % 2 = 0 ∨ s.nbrCount < 16 → s.nbrCount ≤ 16 →
        Runs (.routeSet p) s (fun t => ans t 5 0 0 0 ∧ t.bytes (routeAddr d) 16 = (x.blk.drop 16).take 16))
    ∧ (clean → s.PortHolds k x 6 → q = none → d < 4096 → Runs (.routeGet p) s (fun t => ans t 6 0 0 0
        ∧ t.bytes (A + 16) 16 = s.bytes (routeAddr d) 16 ∧ s.OnlyBytes t (A + 8) 40))
    ∧ (s.PortHolds k x 8 → q = some w → d < 2 ^ 24 → countDiff d (s.fget (fTABLE_TINBOX_rd w))
          ≤ countDiff (s.fget (fTABLE_TINBOX_wr w)) (s.fget (fTABLE_TINBOX_rd w)) → Runs (.inboxRd p) s (fun t =>
        ans t 8 0 0 0 ∧ t.fget (fTABLE_TINBOX_rd w) = d ∧ ∀ b, b ≠ (fTABLE_TINBOX_rd w).addr → t.reg b = s.reg b))
    ∧ (s.PortHolds k x 7 → bitN (x.w 0) 18 = false → bitN (x.w 0) 17 = false → 16 ≤ len → len ≤ 483 →
        s.dmaOk q x.core M len false = true → s.dmaKey x.core M = some M → s.unlaid M len = false → s.Clean M len →
        s.dieOff M = false → windowOff M = none →
        m.version = 1 → m.kind = 0 → len = 16 + m.length → (q = none ∨ q = some m.tenant) → m.dst = s.device →
        s.started m.tenant = true → s.fon (fTABLE_TINBOX_valid m.tenant) = true →
        countDiff wr (s.fget (fTABLE_TINBOX_rd m.tenant)) + room ≤ s.inboxSize m.tenant → Runs (.forward p) s (fun t =>
          t.fget (fTABLE_TINBOX_wr m.tenant) = (wr + room) % 2 ^ 24 ∧ s.Counted t fTABLE_MSG_ID_msg_id
          ∧ s.Counted t fTABLE_COUNT_fwd_sent ∧ t.portCmd k = none
          ∧ ∃ f g, t.flight = s.flight ++ f ++ [flightTo (s.fget (fTABLE_TINBOX_target m.tenant)) 6
              ((wr + room) % 2 ^ 24) (s.reg (aTABLE_TINBOX_w0 m.tenant)).toNat 0 0] ++ g))
    ∧ (clean → s.fon fTABLE_CFG_sweep_en = true → s.pkg.power.awake = true → z < 16384 → Runs .sweepStep s (fun t =>
        t.relay = { s.relay with sweepSet := (z + 1) % 16384 }
        ∧ (∀ i, i < 8 → (way i).valid = true → (way i).pinned = false →
          t.bytes (nodeAddr z i) 32 = nodeBytes (way i).sweep)
        ∧ (∀ i, i < 8 → (way i).valid = false ∨ (way i).pinned = true →
          t.bytes (nodeAddr z i) 32 = s.bytes (nodeAddr z i) 32)
        ∧ s.OnlyBytes t (nodeAddr z 0) 256
        ∧ t = { s with regs := t.regs, mem := t.mem, upkeep := t.upkeep, relay := t.relay }))

/-- R296, R304, R306, R307, Tables 12-5 and 12-6. -/
def Obligations.CipherGrants : Prop :=
  ∀ (s s1 : State) (j : Job) (i u k : Nat) (iv aad d pt ctx : List Byte) (x : List Byte × List Byte × List Byte × List Byte),
    let data := d.take j.dataLen
    let tag := d.drop j.dataLen
    let named : Prop := (j.byRec = false ∧ k = j.key % 256 ∧ (s.keySlot k).valid = true)
      ∨ (j.byRec = true ∧ s.cacheFind j.key = some k)
    let key := (s.keySlot k).key
    let ready (op : Nat) : Prop := s.Grants op i u j ∧ s.keyAllowed j = true ∧ named ∧ j.ctx = 0
      ∧ s.jobInput j = (some (iv, aad, d, ctx), s)
    let out (o : List Byte) : List (Nat × List Byte) := if j.noOut || o.isEmpty then [] else [(j.dst, o)]
    let frame (t : State) : Prop := t = { s with cipher := t.cipher, age := t.age, freeCount := t.freeCount }
      ∧ t.cipher = { s.cipher with slots := t.cipher.slots, queue := t.cipher.queue, running := t.cipher.running
                                   maskSeed := t.cipher.maskSeed, maskBlocks := t.cipher.maskBlocks }
      ∧ ∀ z, (t.keySlot z).key = (s.keySlot z).key ∧ (t.keySlot z).valid = (s.keySlot z).valid
    let masks (t : State) : Prop := s.cipher.maskBlocks + j.chain < 65536 →
      t.cipher.maskBlocks = s.cipher.maskBlocks + j.chain ∧ t.cipher.maskSeed = s.cipher.maskSeed
    let runs (op : Nat) (c : Instr) (st : Nat) (o : List Byte) : Prop := ready op → Runs c s (fun t =>
      s.Started t i u j { slots := [k], status := st, writes := out o, result := o } ∧ frame t ∧ (st = 0 → masks t))
    let j0 := gcmJ0 iv
    let ctr := (aesCtrRun key 4 (ctrInc 4 j0) (blocksOf data)).1
    let mac (ct : List Byte) : List Byte :=
      gcmTag key (ghash (gcmH key) (ghash (gcmH key) 0 (blocksOf aad)) (blocksOf ct)) aad.length data.length j0
        (2 * j.tlen)
    let each : List (Nat × Instr) := [(1, .ecbEnc), (2, .ecbDec), (3, .ctr), (4, .ccmEnc), (5, .ccmDec), (6, .gcmEnc),
      (7, .gcmDec), (8, .kwWrap), (9, .kwUnwrap)]
    let v := s.stageAsk
    runs 1 .ecbEnc 0 (aesEcb (aesEnc key) data)
    ∧ runs 2 .ecbDec 0 (aesEcb (aesDec key) data)
    ∧ runs 3 .ctr 0 (aesCtrRun key 16 (takePad 16 iv) (blocksOf data)).1
    ∧ runs 4 .ccmEnc 0 ((ccmEnc key iv aad data (2 * j.tlen)).1 ++ (ccmEnc key iv aad data (2 * j.tlen)).2)
    ∧ (ccmDec key iv aad data tag = some pt → runs 5 .ccmDec 0 pt)
    ∧ (ccmDec key iv aad data tag = none → runs 5 .ccmDec 1 [])
    ∧ (j.last = true → runs 6 .gcmEnc 0 (ctr ++ mac ctr))
    ∧ (j.last = true → mac data = tag → runs 7 .gcmDec 0 ctr)
    ∧ (j.last = true → mac data ≠ tag → runs 7 .gcmDec 1 [])
    ∧ runs 8 .kwWrap 0 (kwWrap key data)
    ∧ (ready 9 → kwUnwrap key d = some pt → Runs .kwUnwrap s (fun t =>
        s.Started t i u j { slots := [k], key := pt } ∧ frame t ∧ masks t))
    ∧ (ready 9 → kwUnwrap key d = none → Runs .kwUnwrap s (fun t =>
        s.Started t i u j { slots := [k], status := 9 } ∧ frame t))
    ∧ (∀ z ∈ each, s.Grants z.1 i u j → s.jobInput j = (none, s1) → s1.cipher.waiting = [] → Runs z.2 s (fun t =>
        s1.Started t i u j { status := 6 } ∧ t = { s1 with cipher := t.cipher, age := t.age }))
    ∧ (∀ z ∈ each, s.Grants z.1 i u j → s.jobInput j = (some x, s) → s.keyAllowed j = false → Runs z.2 s (fun t =>
        s.Started t i u j { status := 4 } ∧ frame t))
    ∧ (∀ z ∈ each, s.Grants z.1 i u j → s.jobInput j = (some x, s) → s.keyAllowed j = true → named → j.ctx ≠ 0 →
        j.ctxSeal = false → (s.keySlot k).clearCtx = false → Runs z.2 s (fun t =>
          s.Started t i u j { slots := [k], status := 4 } ∧ frame t))
    ∧ (∀ z ∈ each, s.Grants z.1 i u j → s.jobInput j = (some x, s) → s.keyAllowed j = true → j.byRec = false →
        (s.keySlot (j.key % 256)).valid = false → Runs z.2 s (fun t => s.Started t i u j { status := 3 } ∧ frame t))
    ∧ (∀ z ∈ each, v.freeUnit false = none ∨ (∀ a b, v.nextJob false = some (a, b) → b.op ≠ z.1) →
        Runs z.2 s (fun t => t = v))

/-- R300, R309, R313, R314. -/
def Obligations.CipherRecords : Prop :=
  ∀ (s s1 : State) (j : Job) (i u : Nat) (iv aad d c pub kek : List Byte) (draw : BitVec 256),
    let input : Prop := s.jobInput j = (some (iv, aad, d, c), s)
    let ready (op : Nat) : Prop := s.Grants op i u j ∧ j.ctx = 0 ∧ input
    let frame (t : State) : Prop := t = { s with cipher := t.cipher, age := t.age, freeCount := t.freeCount }
      ∧ t.cipher = { s.cipher with queue := t.cipher.queue, running := t.cipher.running
                                   maskSeed := t.cipher.maskSeed, maskBlocks := t.cipher.maskBlocks }
    let k := j.key % 4
    let mine : Prop := j.tenant = none ∨ j.tenant = some (s.fget (fECC_KEY_CTRL_owner k))
    let w := (s.recTenant j.key 16).getD 0
    let rec' (op : Nat) : Prop := s.Grants op i u j ∧ s.keyAllowed j = true ∧ input
    let set' : List Nat := [16 + w]
    let both : List Nat := [16 + w, 32 + w]
    let v := s.stageAsk
    let each : List (Nat × Instr) := [(10, .sha256), (11, .ecdsaVerify), (12, .ecdsaSign draw), (13, .nkeySet)
      , (14, .nkeyDerive), (15, .nkeyErase)]
    let ecc (op : Nat) : Bool := decide (10 ≤ op ∧ op ≤ 12)
    (ready 10 → j.last = true → Runs .sha256 s (fun t => frame t ∧ s.Started t i 4 j { writes :=
        if j.noOut then [] else [(j.dst, shaOut (shaBlocks 10 shaH0 (d ++ shaPad d.length)))] }))
    ∧ (ready 11 → s.dmaRead j.tenant j.core j.dst 64 = (some pub, s) → Runs .ecdsaVerify s (fun t => frame t
        ∧ s.Started t i 4 j { status := if ecdsaVerify pub d iv then 0 else 0x0C }))
    ∧ (ready 12 → mine → s.fon (fECC_KEY_CTRL_valid k) = true → s.cipher.failed = false →
        Runs (.ecdsaSign draw) s (fun t => frame t ∧ s.Started t i 4 j { writes := if j.noOut then []
          else [(j.dst, ecdsaSign (tabGet 0 s.cipher.priv k) (scalarOf draw.toNat) d)] }))
    ∧ (ready 12 → ¬mine → Runs (.ecdsaSign draw) s (fun t => frame t ∧ s.Started t i 4 j { status := 4 }))
    ∧ (ready 12 → mine → s.fon (fECC_KEY_CTRL_valid k) = false → Runs (.ecdsaSign draw) s (fun t => frame t
        ∧ s.Started t i 4 j { status := 3 }))
    ∧ (ready 12 → mine → s.fon (fECC_KEY_CTRL_valid k) = true → s.cipher.failed = true →
        Runs (.ecdsaSign draw) s (fun t => frame t ∧ s.Started t i 4 j { status := 10 }))
    ∧ (rec' 13 → s.nodeKek j.key = some kek → (kwUnwrap kek d).isSome = true → Runs .nkeySet s (fun t => frame t
        ∧ s.Started t i u j { slots := set', key := d }))
    ∧ (rec' 13 → s.nodeKek j.key = some kek → kwUnwrap kek d = none → Runs .nkeySet s (fun t => frame t
        ∧ s.Started t i u j { slots := set', status := 9 }))
    ∧ (rec' 13 → s.nodeKek j.key = none → (s.recTenant j.key 16).isSome = true → Runs .nkeySet s (fun t => frame t
        ∧ s.Started t i u j { slots := set', status := 3 }))
    ∧ (rec' 14 → s.nodeKek j.key = some kek → (s.keySlot (32 + w)).valid = true → Runs .nkeyDerive s (fun t => frame t
        ∧ s.Started t i u j { slots := both, key := kwWrap kek (aesEnc (s.keySlot (32 + w)).key d) }))
    ∧ (rec' 14 → s.nodeKek j.key = none ∨ (s.keySlot (32 + w)).valid = false → (s.recTenant j.key 16).isSome = true →
        Runs .nkeyDerive s (fun t => frame t ∧ s.Started t i u j { slots := both, status := 3 }))
    ∧ (rec' 15 → Runs .nkeyErase s (fun t => frame t ∧ s.Started t i u j { key := List.replicate 24 0#8 }))
    ∧ (∀ z ∈ each, s.Grants z.1 i u j → s.jobInput j = (none, s1) → s1.cipher.waiting = [] → Runs z.2 s (fun t =>
        s1.Started t i u j { status := 6 } ∧ t = { s1 with cipher := t.cipher, age := t.age }))
    ∧ (∀ z ∈ each, 13 ≤ z.1 → s.Grants z.1 i u j → input → s.keyAllowed j = false → Runs z.2 s (fun t => frame t
        ∧ s.Started t i u j { status := 4 }))
    ∧ (∀ z ∈ each, v.freeUnit (ecc z.1) = none ∨ (∀ a b, v.nextJob (ecc z.1) = some (a, b) → b.op ≠ z.1) →
        Runs z.2 s (fun t => t = v))

/-- R297, R302, R307, R309, R314–R316. -/
def Obligations.CipherKeys : Prop :=
  ∀ (s : State) (u : BitVec 3) (r : Running) (v : BitVec 28) (i : BitVec 2) (draw : BitVec 256) (op : EccOp)
    (raw : List Bool) (w : Word) (rest : List Word) (n q : Nat) (x : TxCmd) (ch : Nat) (head : List Byte),
    let k := v.toNat % 256
    let data := (List.range 4).foldl (fun acc z => acc ++ leBytes 4 (s.reg (aCIPHER_KEY_DATA z)).toNat) []
    let cleared (t : State) : Prop := ∀ z, z < 4 → t.reg (aCIPHER_KEY_DATA z) = 0#32
    let others (t : State) : Prop := t.cipher.running = s.cipher.running.filter (fun x => !(x.unit == r.unit))
    let ended (t : State) (status : Nat) : Prop := others t
      ∧ t.flight = s.flight ++ [flightTo n 4 (status * 2 ^ 20 + r.job.tag) r.job.desc 0 0]
    let noKeygen : Prop := ∀ j ∈ s.cipher.queue, j.op < 16
    let found : Prop := s.cipher.running.find? (fun x => x.unit == u.toNat && decide (x.job.op < 16)) = some r ∧ noKeygen
    let runs : Prop := found ∧ r.job.who = .core n q
    let good : Prop := r.erased = false ∧ r.status = 0
    let sealing : Prop := found ∧ r.job.who = .unit (.seal ch head x) ∧ r.writes = [] ∧ r.job.op = 4 ∧ r.erased = false
    let e := i.toNat
    let only (t : State) : Prop := t = { s with regs := t.regs, cipher := t.cipher }
    let only' (t : State) : Prop := t = { s with regs := t.regs, cipher := t.cipher, age := t.age }
    let R := recAddr r.job.key
    let wrapped := kwWrap (beBytes 16 s.fuses.secret) (beBytes 32 (tabGet 0 s.cipher.priv e))
    let ran (h : RawTests) : RawTests × Bool × Bool := h.bits raw
    let failed (h : RawTests) (t : State) : Prop :=
      t.cipher = { s.cipher with fifo := [], raw := {}, failed := true, retestAt := s.mono + 400000 }
        ∧ t.fon fTRNG_STATUS_ok = false ∧ ((ran h).2.1 = true → t.fon fTRNG_STATUS_rct_fail = true)
        ∧ ((ran h).2.2 = true → t.fon fTRNG_STATUS_apt_fail = true)
        ∧ t = { s with regs := t.regs, cipher := t.cipher, log := t.log }
    let fails (h : RawTests) : Prop := ((ran h).2.1 || (ran h).2.2) = true
    let on := s.fon fTRNG_STATUS_startup_done
    let now : RawTests := if on then s.cipher.raw else {}
    (s.cipher.running.find? (fun x => x.unit == u.toNat && decide (x.job.op < 16)) = none →
        Runs (.cipherJobComplete u) s (fun t => t = s))
    ∧ (runs → r.erased = true → Runs (.cipherJobComplete u) s (fun t => ended t 2 ∧ only { t with flight := s.flight }))
    ∧ (runs → r.erased = false → r.status ≠ 0 → Runs (.cipherJobComplete u) s (fun t => ended t r.status
        ∧ only { t with flight := s.flight }))
    ∧ (runs → good → r.writes = [] → r.job.op ≤ 8 ∨ (10 ≤ r.job.op ∧ r.job.op ≤ 12) →
        Runs (.cipherJobComplete u) s (fun t => ended t 0 ∧ s.Counted t fCIPHER_COUNT_ok
          ∧ only { t with flight := s.flight }))
    ∧ (∀ a b, runs → good → r.writes = [(a, b)] → b ≠ [] → r.job.op ≤ 8 ∨ (10 ≤ r.job.op ∧ r.job.op ≤ 12) →
        s.dmaWaits n (a, b.length) = false → s.dieOff a = false →
        s.dmaOk r.job.tenant n a b.length true = true → s.dmaKey n a = some a → s.noStore a b.length = false →
        s.Clean a b.length → Runs (.cipherJobComplete u) s (fun t => ended t 0 ∧ t.bytes a b.length = b
          ∧ s.OnlyBytes t a b.length ∧ s.Counted t fCIPHER_COUNT_ok))
    ∧ (∀ a b, runs → good → r.writes = [(a, b)] → b ≠ [] → r.job.tenant = none → s.dmaWaits n (a, b.length) = false →
        s.dmaOk none n a b.length true = false → Runs (.cipherJobComplete u) s (fun t => ended t 6 ∧ t.mem = s.mem))
    ∧ (∀ a b, runs → good → r.writes = [(a, b)] → s.dmaWaits n (a, b.length) = true →
        Runs (.cipherJobComplete u) s (fun t => t = s))
    ∧ (runs → good → r.writes = [] → r.job.op = 9 → 1 ≤ r.job.dst % 256 → Runs (.cipherJobComplete u) s (fun t =>
        ended t 0 ∧ (t.keySlot (r.job.dst % 256)).key = r.key ∧ (t.keySlot (r.job.dst % 256)).valid = true
        ∧ ∀ z, z ≠ r.job.dst % 256 → t.keySlot z = s.keySlot z))
    ∧ (runs → good → r.writes = [] → r.job.op = 13 ∨ r.job.op = 14 → r.key.length = 24 → s.Clean R 24 →
        Runs (.cipherJobComplete u) s (fun t => ended t 0 ∧ t.bytes R 24 = r.key ∧ s.OnlyBytes t R 24
          ∧ ∀ z, s.cacheFind r.job.key = some z → (t.keySlot z).valid = false))
    ∧ (runs → good → r.writes = [] → r.job.op = 15 → r.key.length = 24 → s.Clean R 24 →
        Runs (.cipherJobComplete u) s (fun t => t.bytes R 24 = r.key ∧ s.OnlyBytes t R 24
          ∧ (∀ z, s.cacheFind r.job.key = some z → (t.keySlot z).valid = false
            ∧ ∀ y ∈ t.cipher.running, y.slots.contains z = true → y.erased = true)))
    ∧ (found → r.job.who = .relay → r.erased = false → r.writes = [] → r.job.op = 5 → Runs (.cipherJobComplete u) s
        (fun t => others t ∧ t.cipher.relayDone
          = s.cipher.relayDone ++ [(r.status, if r.status = 0 then r.result else [])] ∧ only t))
    ∧ (sealing → x.who = .beacon → r.status ≠ 0 → Runs (.cipherJobComplete u) s (fun t => others t
        ∧ s.Counted t fCINCH_COUNT_beacon_fail ∧ only t))
    ∧ (sealing → x.who = .beacon → r.status = 0 → s.hasChain ch = true → (s.chain ch).queue.length < 64 →
        Runs (.cipherJobComplete u) s (fun t => others t
          ∧ ((∃ y, (t.chain ch).queue = (s.chain ch).queue ++ [y] ∧ y.who = .beacon ∧ y.startF = x.startF
              ∧ y.startNs = x.startNs ∧ y.prio = x.prio ∧ y.mode = x.mode ∧ y.freq = x.freq ∧ y.inl = head ++ r.result
              ∧ t.cinch = s.cinch)
            ∨ (∃ z, t.cinch.beaconDone = s.cinch.beaconDone ++ [z] ∧ (t.chain ch).queue = (s.chain ch).queue))))
    ∧ (s.cipher.running.find? (fun x => x.unit == u.toNat && x.erased) = none → Runs (.jobAbort u) s (fun t => t = s))
    ∧ (s.cipher.running.find? (fun x => x.unit == u.toNat && x.erased) = some r → r.job.who = .core n q → noKeygen →
        Runs (.jobAbort u) s (fun t => ended t 2 ∧ s.Counted t fCIPHER_COUNT_key_erased))
    ∧ (1 ≤ k → k < 64 → Runs (.loadKey v) s (fun t => cleared t ∧ only t ∧ t.keySlot k = {
          valid := true, key := data, clearCtx := v.getLsbD 19, used := s.age,
          owner := if 48 ≤ k then v.toNat / 2 ^ 20 % 16 else slotOwner k {} }
        ∧ (∀ z, z ≠ k → t.keySlot z = s.keySlot z)))
    ∧ (k = 0 ∨ 64 ≤ k → Runs (.loadKey v) s (fun t => cleared t ∧ t = { s with regs := t.regs }
        ∧ t.fon fCIPHER_STATUS_cmd_err = true))
    ∧ (k = 0 → Runs (.zeroize v) s (fun t => cleared t ∧ t = { s with regs := t.regs }
        ∧ t.fon fCIPHER_STATUS_cmd_err = true))
    ∧ (1 ≤ k → Runs (.zeroize v) s (fun t => cleared t ∧ only t ∧ (t.keySlot k).valid = false ∧ (t.keySlot k).key = []
        ∧ (t.keySlot k).owner = (s.keySlot k).owner
        ∧ (∀ x ∈ t.cipher.running, x.slots.contains k = true → x.erased = true)
        ∧ (∀ z, z ≠ k → t.keySlot z = s.keySlot z)))
    ∧ (s.fon (fECC_KEY_CTRL_busy e) = true → ∀ c ∈ [Instr.keygen i draw, .eccZeroize i, .eccSave i],
        Runs c s (fun t => t = s))
    ∧ (s.fon (fECC_KEY_CTRL_busy e) = false →
        (Runs (.keygen i draw) s (fun t => t.fon (fECC_KEY_CTRL_busy e) = true ∧ only' t
          ∧ t.cipher.eccOps = s.cipher.eccOps ++ [(e, .keygen draw.toNat)]
          ∧ ∃ j : Job, j.op = 16 ∧ j.key = e ∧ j.who = .unit .keygen
            ∧ (j ∈ t.cipher.queue ∨ j ∈ t.cipher.waiting ∨ ∃ y ∈ t.cipher.running, y.job = j)))
        ∧ (Runs (.eccZeroize i) s (fun t => t.fon (fECC_KEY_CTRL_busy e) = true ∧ only t
          ∧ t.cipher.eccOps = s.cipher.eccOps ++ [(e, .zeroize)]))
        ∧ (Runs (.eccSave i) s (fun t => t.fon (fECC_KEY_CTRL_busy e) = true ∧ only t
          ∧ t.cipher.eccOps = s.cipher.eccOps ++ [(e, .save)])))
    ∧ (s.cipher.eccOps.find? (fun x => x.1 == e) = none → Runs (.eccKeyOpDone i) s (fun t => t = s))
    ∧ (s.cipher.eccOps.find? (fun x => x.1 == e) = some (e, op) → s.eccWaits e op = true →
        Runs (.eccKeyOpDone i) s (fun t => t = s))
    ∧ (s.cipher.eccOps.find? (fun x => x.1 == e) = some (e, op) → op ≠ .save → s.eccWaits e op = false →
        (∀ y, op = .keygen y → s.cipher.failed = false) →
        Runs (.eccKeyOpDone i) s (fun t => only' t ∧ t.fon (fECC_KEY_CTRL_busy e) = false
          ∧ t.fon (fECC_KEY_CTRL_valid e) = (op != .zeroize)
          ∧ (∀ y, op = .keygen y → tabGet 0 t.cipher.priv e = scalarOf y)
          ∧ (op = .zeroize → tabGet 0 t.cipher.priv e = 0)
          ∧ t.cipher.eccOps = s.cipher.eccOps.filter (fun x => !(x.1 == e))))
    ∧ (s.cipher.eccOps.find? (fun x => x.1 == e) = some (e, .save) → s.fon (fECC_KEY_CTRL_valid e) = true →
        s.Clean (0x0500F000 + e * 0x40) wrapped.length → Runs (.eccKeyOpDone i) s (fun t =>
          t.fon (fECC_KEY_CTRL_busy e) = false ∧ t.bytes (0x0500F000 + e * 0x40) wrapped.length = wrapped
          ∧ s.OnlyBytes t (0x0500F000 + e * 0x40) wrapped.length
          ∧ t.cipher.eccOps = s.cipher.eccOps.filter (fun x => !(x.1 == e))))
    ∧ (on = false → s.cipher.failed = false → raw.length = 4096 → ¬fails {} → Runs (.trngStartupDone raw) s (fun t =>
        t.fon fTRNG_STATUS_startup_done = true ∧ t.fon fTRNG_STATUS_ok = true
        ∧ t.cipher = { s.cipher with raw := (ran {}).1, maskSeed := t.cipher.maskSeed }
        ∧ t = { s with regs := t.regs, cipher := t.cipher, freeCount := t.freeCount }
        ∧ ∀ a, a ≠ fTRNG_STATUS_ok.addr → t.reg a = s.reg a))
    ∧ (on = false → s.cipher.failed = false → raw.length = 4096 → fails {} →
        Runs (.trngStartupDone raw) s (fun t => failed {} t))
    ∧ (on = true ∨ s.cipher.failed = true ∨ raw.length ≠ 4096 → Runs (.trngStartupDone raw) s (fun t => t = s))
    ∧ (s.fon fTRNG_STATUS_ok = true → raw.length = 256 → ¬fails s.cipher.raw → Runs (.trngConditionerOutput raw) s
        (fun t => t = { s with cipher := { s.cipher with
          raw := (ran s.cipher.raw).1
          fifo := if s.cipher.fifo.length ≤ 62 then
              s.cipher.fifo ++ [(conditioned raw).extractLsb' 0 32, (conditioned raw).extractLsb' 32 32]
            else s.cipher.fifo } }))
    ∧ (s.fon fTRNG_STATUS_ok = true → raw.length = 256 → fails s.cipher.raw →
        Runs (.trngConditionerOutput raw) s (fun t => failed s.cipher.raw t))
    ∧ (s.fon fTRNG_STATUS_ok = false ∨ raw.length ≠ 256 → Runs (.trngConditionerOutput raw) s (fun t => t = s))
    ∧ (s.cipher.fifo = w :: rest → Runs .trngDataRead s (fun t =>
        t = { s with cipher := { s.cipher with fifo := rest } }))
    ∧ (s.cipher.fifo = [] → Runs .trngDataRead s (fun t => t = s))
    ∧ (s.cipher.failed = false → fails now → Runs (.trngTestFail raw) s (fun t => failed now t))
    ∧ (s.cipher.failed = false → ¬fails now → Runs (.trngTestFail raw) s (fun t =>
        t = { s with cipher := { s.cipher with raw := (ran now).1 } }))
    ∧ (s.cipher.failed = true → Runs (.trngTestFail raw) s (fun t => t = s))
    ∧ (s.cipher.failed = true → s.cipher.retestAt ≤ s.mono → raw.length = 4096 → Runs (.trngRetest raw) s (fun t =>
        (¬fails {} → t.cipher = { s.cipher with failed := false, raw := (ran {}).1, maskSeed := t.cipher.maskSeed }
          ∧ t.fon fTRNG_STATUS_ok = true
          ∧ t = { s with regs := t.regs, cipher := t.cipher, freeCount := t.freeCount })
        ∧ (fails {} → t = { s with cipher := { s.cipher with retestAt := s.mono + 400000 } })))
    ∧ (s.cipher.failed = false ∨ s.mono < s.cipher.retestAt ∨ raw.length ≠ 4096 →
        Runs (.trngRetest raw) s (fun t => t = s))
    ∧ (∀ (b : Bool) (l : List Bool), ((({} : RawTests).bits (List.replicate 41 b ++ l)).2.1) = true)

/-- R319–R323, R329, R48. The resolution of a sample is log entry 42. -/
def Obligations.GirthMeter : Prop :=
  ∀ (s : State) (k : BitVec 3) (ua mv shunt vbus v : Word) (level : Bool) (m : Master) (sel : BitVec 5) (lo hi : Nat)
    (e : BitVec 7) (n : BitVec 17),
    let x := tabGet 0 s.girth.frac k.toNat + ua.toNat * mv.toNat
    let flow := signedN 32 shunt.toNat
    let y (q : Nat) : Nat := tabGet 0 s.girth.frac q + flow.natAbs * vbus.toNat * s.fget fGIRTH_PACK_CFG_vbus_div * 10000
      / (256 * s.fget fGIRTH_PACK_CFG_shunt_uohm)
    let adds (t : State) (q d : Nat) : Prop := t.ledger q = (s.ledger q + d) % 2 ^ 64
    let still (t : State) (qs : List Nat) : Prop := (∀ q, q ≤ 10 → q ∉ qs → t.ledger q = s.ledger q)
      ∧ t = { s with regs := t.regs, girth := { s.girth with frac := t.girth.frac } }
    let key := latchKey m sel.toNat
    let latched (t : State) (z : Option Nat) : Prop := tabGet none t.girth.latch key = z
      ∧ (∀ q, q ≠ key → tabGet none t.girth.latch q = tabGet none s.girth.latch q)
      ∧ t = { s with girth := { s.girth with latch := t.girth.latch } }
    let reads (h : Nat) : Prop := counterIs sel.toNat = true ∧ s.regOpen m (counterAddr m sel.toNat + h) false = true
    let writes (q : Master) : List (Nat × Instr) := [(aGIRTH_LEDGER 8 1, .packEstWrite q v),
      (aGIRTH_CTRL, .girthCtrlWrite q v), (aGIRTH_NACC_w0, .naccRead q n), (aGIRTH_NACC_w0, .naccSet q n),
      (aGIRTH_NACC_w0, .naccCharge q n), (aGIRTH_NACC_w0, .naccClear q n)]
    let low := s.girth.estLo.getD (s.ledger 8 % 2 ^ 32)
    (s.meterOn = false ∨ k.toNat = 0 ∨ 5 < k.toNat → Runs (.meterSample k ua mv) s (fun t => t = s))
    ∧ (s.meterOn = false ∨ flow = 0 → Runs (.packSample shunt vbus) s (fun t => t = s))
    ∧ (s.pkg.mains = level → Runs (.mainsOkEdge level) s (fun t => t = s))
    ∧ (counterIs sel.toNat = false ∨ s.regReach m (counterAddr m sel.toNat) = false →
        Runs (.ledgerLowRead m sel) s (fun t => t = s))
    ∧ (counterIs sel.toNat = false ∨ s.regReach m (counterAddr m sel.toNat + 4) = false →
        Runs (.ledgerHighRead m sel) s (fun t => t = s))
    ∧ (∀ c ∈ writes m, s.regReach m c.1 = false → Runs c.2 s (fun t => t = s))
    ∧ (s.meterOn = true → 1 ≤ k.toNat → k.toNat ≤ 5 → Runs (.meterSample k ua mv) s (fun t =>
        adds t k.toNat (x / 10000000) ∧ adds t 0 (x / 10000000) ∧ still t [0, k.toNat]
        ∧ tabGet 0 t.girth.frac k.toNat = x % 10000000))
    ∧ (s.meterOn = true → 0 < flow → Runs (.packSample shunt vbus) s (fun t =>
        adds t 6 (y 6 / 10000000) ∧ adds t 8 (y 6 / 10000000) ∧ still t [6, 8]
        ∧ tabGet 0 t.girth.frac 6 = y 6 % 10000000))
    ∧ (s.meterOn = true → flow < 0 → Runs (.packSample shunt vbus) s (fun t =>
        adds t 7 (y 7 / 10000000) ∧ t.ledger 8 = s.ledger 8 - y 7 / 10000000 ∧ still t [7, 8]
        ∧ tabGet 0 t.girth.frac 7 = y 7 % 10000000))
    ∧ (s.pkg.mains ≠ level → Runs (.mainsOkEdge level) s (fun t =>
        t = { s with pkg := { s.pkg with mains := level }, girth := { s.girth with debounce := true } }))
    ∧ (reads 0 → Runs (.ledgerLowRead m sel) s (fun t => latched t (some (s.counter sel.toNat / 2 ^ 32)))
        ∧ (s.ledgerLow m sel.toNat).1 = BitVec.ofNat 32 (s.counter sel.toNat))
    ∧ (reads 4 → tabGet none s.girth.latch key = some hi → Runs (.ledgerHighRead m sel) s (fun t => latched t none)
        ∧ (s.ledgerHigh m sel.toNat).1 = BitVec.ofNat 32 hi)
    ∧ (reads 4 → tabGet none s.girth.latch key = none → Runs (.ledgerHighRead m sel) s (fun t => t = s)
        ∧ (s.ledgerHigh m sel.toNat).1 = BitVec.ofNat 32 (s.counter sel.toNat / 2 ^ 32))
    ∧ (s.regOpen m (aGIRTH_LEDGER 8 1) true = true → lo = low → lo < 2 ^ 32 →
        Runs (.packEstWrite m v) s (fun t => t.ledger 8 = v.toNat * 2 ^ 32 + lo ∧ t.girth.estLo = none
          ∧ (∀ q, q ≤ 10 → q ≠ 8 → t.ledger q = s.ledger q)
          ∧ t = { s with regs := t.regs, girth := { s.girth with estLo := none } }))
    ∧ (s.regOpen m aGIRTH_CTRL true = true → v.toNat / 2 ^ 24 % 4 < v.toNat / 2 ^ 26 % 4 →
        Runs (.girthCtrlWrite m v) s (fun t => t = s))
    ∧ (s.regOpen m aGIRTH_CTRL true = true → v.toNat / 2 ^ 26 % 4 ≤ v.toNat / 2 ^ 24 % 4 →
        Runs (.girthCtrlWrite m v) s (fun t => (t.reg aGIRTH_CTRL).toNat / 2 ^ 24 = v.toNat / 2 ^ 24
          ∧ t.fget fGIRTH_CTRL_up_hold = (if v.toNat % 2 ^ 16 = 0 then s.fget fGIRTH_CTRL_up_hold else v.toNat % 2 ^ 16)
          ∧ s.OnlyRegs t (fun a => a = aGIRTH_CTRL)))
    ∧ (∀ c ∈ writes (.core (.eng e)), s.regReach (.core (.eng e)) c.1 = true → Runs c.2 s (fun t => s.Counted t (fTENANT_FVIOL_register (s.engTenant e.toNat))
        ∧ t = { s with regs := t.regs, log := t.log, flight := t.flight }))

/-- R336, R337, R339, Table 13-4. What SET keeps, and BAD_REC, are log entry 53. -/
def Obligations.NodeAccounts : Prop :=
  ∀ (s : State) (m : Master) (r : BitVec 17),
    let n := r.toNat
    let a0 := acctOf (s.bytes (acctAddr n) 16)
    let day := s.nodeDay % 65536
    let a : Account := if a0.day = day then a0 else { a0 with spent := 0, day := day, denied := false }
    let opened : Prop := s.regOpen m aGIRTH_NACC_w0 true = true
    let ok : Prop := opened ∧ (s.recTenant n 16).isSome = true ∧ s.Clean (acctAddr n) 16
    let holds (t : State) (b : Account) (status : Nat) : Prop := t.bytes (acctAddr n) 16 = acctBytes b
      ∧ s.OnlyBytes t (acctAddr n) 16 ∧ t.fget fGIRTH_NACC_status = status
      ∧ t = { s with regs := t.regs, mem := t.mem, upkeep := t.upkeep, freeCount := t.freeCount }
    let arg := s.fget fGIRTH_NACC_arg
    let arg2 := s.fget fGIRTH_NACC_arg2
    let beyond : Prop := a.enforce = true ∧ a.allowance < a.spent + arg
    (ok → Runs (.naccRead m r) s (fun t => holds t a 0 ∧ t.fget fGIRTH_NACC_arg = a.allowance
        ∧ t.fget fGIRTH_NACC_arg2 = a.spent ∧ t.fget fGIRTH_NACC_life_mj = a.life % 2 ^ 28))
    ∧ (ok → Runs (.naccSet m r) s (fun t =>
        holds t { a with allowance := arg, cls := arg2 % 16, enforce := bitN arg2 4, life := 0 } 0))
    ∧ (ok → beyond → Runs (.naccCharge m r) s (fun t => holds t { a with denied := true } 1
        ∧ s.Counted t fGIRTH_COUNT_node_deny))
    ∧ (ok → ¬beyond → a.spent + arg < 2 ^ 32 → Runs (.naccCharge m r) s (fun t => ∃ mj, arg / 1000 ≤ mj
        ∧ mj ≤ (arg + 999) / 1000
        ∧ holds t { a with spent := a.spent + arg, life := min 0xFFFFFFFF (a.life + mj) } 0))
    ∧ (ok → ¬beyond → 2 ^ 32 ≤ a.spent + arg → Runs (.naccCharge m r) s (fun t => ∃ mj z, arg / 1000 ≤ mj
        ∧ mj ≤ (arg + 999) / 1000 ∧ holds t { a with spent := z, life := min 0xFFFFFFFF (a.life + mj) } 0))
    ∧ (s.regReach m aGIRTH_NACC_w0 = false → ∀ c ∈ [Instr.naccRead m r, .naccSet m r, .naccCharge m r, .naccClear m r],
        Runs c s (fun t => t = s))
    ∧ (ok → Runs (.naccClear m r) s (fun t => holds t {} 0))
    ∧ (opened → (s.recTenant n 16).isNone = true → ∀ c ∈ [Instr.naccRead m r, .naccSet m r, .naccCharge m r,
        .naccClear m r], Runs c s (fun t => t.fget fGIRTH_NACC_status = 2 ∧ s.OnlyRegs t (fun x => x = aGIRTH_NACC_w3)))

/-- R342–R346, Tables 13-5 to 13-8. -/
def Obligations.PowerEntries : Prop :=
  ∀ (s : State) (m : Master) (v : Word),
    let opened : Prop := s.regOpen m aPWR_CTRL true = true
    let idle : Prop := opened ∧ s.pkg.power = .run ∧ s.pkg.stage = .run ∧ s.fon fGIRTH_STATUS_changing = false
    let busy : Prop := opened ∧ s.pkg.power = .run ∧ s.fon fGIRTH_STATUS_changing = true ∧ s.changeOver = false
    let taken (t : State) (p : PowerSt) : Prop := t.pkg = { s.pkg with power := p, fired := 0, reqWait := 0 }
    let asked (t : State) : Prop := t.fget fPWR_CTRL_wake_en = v.toNat / 2 ^ 8 % 2 ^ 8
      ∧ (∀ n, n < Config.receivers s.variant → t.fon (fRADIO_RX_STATUS_plan_off n) = true)
    let waits (t : State) (k : Nat) : Prop := t = { s with regs := t.regs, pkg := { s.pkg with reqWait := k } }
      ∧ (∀ a, a ≠ aPWR_CTRL → t.reg a = s.reg a)
    let quiet : Prop := s.airSilent = true ∧ s.flashWrites = false
    let noFlash : Prop := s.flash.act = none ∧ s.flash.susp = none
    let ledger (k : Nat) : Prop := ledgerCopy ≤ k ∧ k < ledgerCopy + 0x110
    let kept (t : State) (deep byp : Bool) : Prop := s.Cut t deep aPWR_WAKE_SRC byp
      ∧ (∀ k, keptKey deep k = true → ¬ledger k → t.byte k = s.byte k)
      ∧ t.upkeep.burnGroup = s.upkeep.burnGroup
      ∧ ∀ g, g < 32 → tabGet none t.pkg.ioHeld g
        = (if (s.fget fPWR_IOHOLD_hold).testBit g then s.pinLevel g else none)
    (s.regReach m aPWR_CTRL = false → ∀ c ∈ [Instr.sleepRequest m v, .deepSleepRequest m v, .offRequest m v],
        Runs c s (fun t => t = s))
    ∧ (s.pkg.power ≠ .toSleep ∨ s.airSilent = false → Runs .sleepEntry s (fun t => t = s))
    ∧ (s.pkg.power ≠ .toDeep ∨ s.airSilent = false → Runs .deepSleepEntry s (fun t => t = s))
    ∧ (s.pkg.power ≠ .armed → Runs .offEntry s (fun t => t = s))
    ∧ (s.pkg.power = .toSleep → quiet → s.pkg.fired ≠ 0 → Runs .sleepEntry s (fun t => t.pkg.power = .run
        ∧ t.pkg.fired = 0 ∧ t.fget fPWR_STATUS_state = 0 ∧ t.fget fPWR_WAKE_SRC_source = lowestSource s.pkg.fired
        ∧ t.fget fPWR_WAKE_SRC_plan = s.plan))
    ∧ (idle → Runs (.sleepRequest m v) s (fun t => taken t .toSleep ∧ asked t))
    ∧ (idle → Runs (.deepSleepRequest m v) s (fun t => taken t .toDeep ∧ asked t))
    ∧ (idle → (s.chain 0).air ≠ [] ∨ (s.chain 1).air ≠ [] → Runs (.offRequest m v) s (fun t => taken t .toOff ∧ asked t))
    ∧ (idle → quiet → Runs (.offRequest m v) s (fun t => t.pkg.power = .armed ∧ t.fon fPWR_STATUS_off_armed = true
        ∧ t.pathState 0 = 0 ∧ t.pathState 1 = 0 ∧ t.fon (fETH_STATUS_link 0) = false
        ∧ t.fon (fETH_STATUS_link 1) = false ∧ asked t))
    ∧ (busy → Runs (.sleepRequest m v) s (fun t => waits t 2) ∧ Runs (.deepSleepRequest m v) s (fun t => waits t 3)
        ∧ Runs (.offRequest m v) s (fun t => waits t 4))
    ∧ (s.pkg.power = .toSleep → quiet → s.pkg.fired = 0 → Runs .sleepEntry s (fun t =>
        t.pkg = { s.pkg with power := .sleep } ∧ t.fget fPWR_STATUS_state = 2 ∧ t.fget fPWR_WAKE_SRC_plan = s.plan
        ∧ (∀ n, n ≤ 128 → (t.eng n).hold = true) ∧ t.pathState 0 = 0 ∧ t.pathState 1 = 0
        ∧ (t.path 0).lnaByp = s.fon fSTIRRUP_CFG_en
        ∧ (noFlash → (s.chain 0).start = none → (s.chain 1).start = none → t.mem = s.mem)))
    ∧ (s.pkg.power = .toDeep → quiet → noFlash → s.Uncut → s.pkg.fired = 0 → Runs .deepSleepEntry s (fun t =>
        kept t true (s.fon fSTIRRUP_CFG_en)
        ∧ t.pkg.power = .deepSleep ∧ t.pkg.slept = 3 ∧ t.pkg.sleptAt = s.rtc.sec
        ∧ t.pkg.wakeEn = s.fget fPWR_CTRL_wake_en
          + (if s.fon fPWR_WAKE_SRC_surv_active && !bitN (s.fget fPWR_CTRL_wake_en) 0 then 1 else 0)
        ∧ t.fget fPWR_WAKE_SRC_plan = s.plan))
    ∧ (s.pkg.power = .armed → s.Uncut → Runs .offEntry s (fun t =>
        (∀ k, keptKey false k = true → t.byte k = s.byte k) ∧ kept t false false
        ∧ t.reg aPWR_WAKE_SRC = s.reg aPWR_WAKE_SRC ∧ t.pkg.power = .off ∧ t.pkg.supplies = false ∧ t.pkg.slept = 4))
    ∧ Runs .wakeNRelease s (fun t => t = { s with pkg := { s.pkg with alarmPull := false } })

/-- R74, R320, R334, R335, R345, R347, R348. -/
def Obligations.PowerWakes : Prop :=
  ∀ (s : State) (m : Master) (b : List Byte) (also : BitVec 6),
    let deep (k : Nat) : Prop := s.pkg.power = .deepSleep ∧ s.wakeEnabled k = true ∧ s.pkg.fired = 0
      ∧ s.pkg.stage = .hold ∧ s.pkg.supplies = true ∧ s.pkg.resetLow = false ∧ s.pkg.hot = false ∧ s.pkg.causes = 0
    let fires (k : Nat) : Nat := Nat.lor (2 ^ (k - 1)) (s.wakeMask also.toNat)
    let record (t : State) (k : Nat) : Prop := t.fget fPWR_WAKE_SET_fired = fires k
      ∧ t.fget fPWR_WAKE_SRC_source = lowestSource (fires k) ∧ t.fget fPWR_WAKE_TIME_rtc_s = s.rtcLow
      ∧ t.fget fPWR_WAKE_SRC_wakes = satInc 0xFFFF (s.fget fPWR_WAKE_SRC_wakes)
    let woken (t : State) (k : Nat) (p : PkgSt) (g : GirthSt) : Prop := record t k
      ∧ t.fget fSYS_RESET_REASON_cause = 7 ∧ t.fget fPWR_STATUS_state = 3 ∧ (t.path 0).lnaByp = false
      ∧ t.pkg.bootSel < 4 ∧ t = { s with
        regs := t.regs, girth := g, radio := t.radio, freeCount := t.freeCount
        pkg := { p with power := .run, stage := .reference, bootSel := t.pkg.bootSel, ioHeld := [] } }
    let waiting : Prop := s.pkg.power = .toSleep ∨ s.pkg.power = .toDeep ∨ s.pkg.power = .toOff ∨ s.pkg.power = .armed
      ∨ s.pkg.power = .off
    let keptFor (k : Nat) : PkgSt := { s.pkg with fired := Nat.lor s.pkg.fired (fires k) }
    let alarm : Prop := s.rtc.byTick = true ∧ s.rtcLow = s.fget fPWR_WAKE_AT_alarm_s
    let id := (b.drop 2).take 3
    let heard : Prop := s.stirrupOn = true ∧ b.length = 6 ∧ leNat (b.take 2) = 0xC355
    let crcOk : Prop := leNat (b.drop 5) = id.foldl crc8Byte 0
    let settled : State → Prop := fun t => t = { s with
      regs := t.regs, girth := { s.girth with debounce := false }, pkg := { s.pkg with mainsDeb := s.pkg.mains } }
    (¬alarm → Runs (.wakeAlarm also) s (fun t => t = s))
    ∧ (s.wakeCounts 2 = false → Runs (.wakeNLow also) s (fun t => t = s))
    ∧ (s.girth.debounce = false → Runs (.mainsDebounceExpiry also) s (fun t => t = s))
    ∧ (¬heard ∨ (crcOk ∧ leNat id ≠ s.stirrupId ∧ (leNat id ≠ 0xFFFFFF ∨ s.fon fSTIRRUP_CFG_all_en = false)) →
        Runs (.stirrupMatch b also) s (fun t => t = s))
    ∧ (s.pkg.window = false → Runs .survivalWindowEnd s (fun t => t = s))
    ∧ (s.regReach m aGIRTH_STATUS = false → Runs (.die1Ready m) s (fun t => t = s))
    ∧ (deep 1 → alarm → Runs (.wakeAlarm also) s (fun t => woken t 1 s.pkg s.girth))
    ∧ (deep 2 → Runs (.wakeNLow also) s (fun t => woken t 2 s.pkg s.girth))
    ∧ (deep 3 → s.girth.debounce = true → s.pkg.mains = true → s.pkg.mainsDeb = false →
        Runs (.mainsDebounceExpiry also) s (fun t =>
          woken t 3 { s.pkg with mainsDeb := true } { s.girth with debounce := false }))
    ∧ (deep 4 → heard → crcOk → leNat id = s.pkg.callId ∨ (leNat id = 0xFFFFFF ∧ s.fon fSTIRRUP_CFG_all_en = true) →
        Runs (.stirrupMatch b also) s (fun t =>
        woken t 4 s.pkg s.girth ∧ t.fget fSTIRRUP_COUNT_matched = satInc 0xFFFF (s.fget fSTIRRUP_COUNT_matched)))
    ∧ (heard → ¬crcOk → Runs (.stirrupMatch b also) s (fun t => s.OnlyRegs t (fun a => a = fSTIRRUP_COUNT_crc_fail.addr)
        ∧ t.fget fSTIRRUP_COUNT_crc_fail = satInc 0xFFFF (s.fget fSTIRRUP_COUNT_crc_fail)))
    ∧ (s.pkg.power = .sleep → s.wakeEnabled 2 = true → s.pkg.fired = 0 → s.pkg.reqWait = 0 → Runs (.wakeNLow also) s (fun t =>
        record t 2 ∧ t.pkg.power = .run ∧ t.fget fPWR_STATUS_state = 0 ∧ (t.eng 128).hold = false))
    ∧ (waiting → s.wakeCounts 2 = true → Runs (.wakeNLow also) s (fun t => t = { s with pkg := keptFor 2 }))
    ∧ (waiting → s.pkg.power ≠ .off → s.wakeCounts 1 = true → alarm → Runs (.wakeAlarm also) s (fun t =>
        t = { s with pkg := keptFor 1 }))
    ∧ (s.pkg.power = .off → s.wakeEnabled 1 = true → alarm → Runs (.wakeAlarm also) s (fun t =>
        t = { s with pkg := { keptFor 1 with alarmPull := true } }))
    ∧ (s.pkg.power = .run → Runs (.wakeNLow also) s (fun t => t = s) ∧ Runs (.wakeAlarm also) s (fun t => t = s))
    ∧ (s.pkg.power = .run → s.girth.debounce = true → Runs (.mainsDebounceExpiry also) s (fun t => settled t
        ∧ t.fon fGIRTH_STATUS_mains_ok = s.pkg.mains ∧ (∀ a, a ≠ aGIRTH_STATUS → t.reg a = s.reg a)))
    ∧ (s.pkg.window = true → s.fon fGIRTH_STATUS_mains_ok = true ∨ (0 < s.pkg.winCloses ∧ s.pkg.winBetter = true) →
        Runs .survivalWindowEnd s (fun t => t.plan = 2 ∧ t.fon fPWR_WAKE_SRC_surv_active = false
          ∧ t = { s with regs := t.regs, flight := s.flight ++ [flightTo 128 11 (4 * 2 ^ 24 + 2) 0 0 0],
                         pkg := { s.pkg with window := false } }))
    ∧ (s.pkg.window = true → s.fon fGIRTH_STATUS_mains_ok = false → s.pkg.winCloses = 0 ∨ s.pkg.winBetter = false →
        s.pkg.power = .run → s.pkg.stage = .run → s.fon fGIRTH_STATUS_changing = false →
        Runs .survivalWindowEnd s (fun t =>
          t.pkg = { s.pkg with window := false, power := .toDeep, fired := 0, reqWait := 0 }
          ∧ t.fget fPWR_WAKE_AT_alarm_s = (s.fget fPWR_WAKE_TIME_rtc_s + s.fget fSURV_CFG_period_s) % 2 ^ 32))
    ∧ (s.regOpen m aGIRTH_STATUS true = true → s.die1Up = true → s.Steady → Runs (.die1Ready m) s (fun t =>
        t.fon fGIRTH_STATUS_die1_ready = true ∧ t.girth.die1Wait = false
        ∧ (s.girth.die1Wait = false → s.OnlyRegs t (fun a => a = aGIRTH_STATUS))))
    ∧ (s.regOpen m aGIRTH_STATUS true = true → s.die1Up = false → Runs (.die1Ready m) s (fun t => t = s))

/-- R76–R78, R350, R355, R357, R358. R40, R42, R43. What is a transaction, and what an access delivers that ends without an answer, is log entry 56. -/
def Obligations.UpkeepAndLatigo : Prop :=
  (∀ (s : State) (v : Word) (k lo hi : Nat) (rest : List Nat) (x : LogItem) (more : List LogItem),
      let sys := bitN v.toNat 28
      let r := v.toNat / 2 ^ 26 % 4
      let f := v.toNat % 2 ^ 7
      let l := v.toNat / 2 ^ 12 % 2 ^ 7
      let base := if sys then 0x04000000 else 0x02000000 + r * 0x800000
      let go : Prop := bitN v.toNat 31 = true ∧ s.fon fMEM_CLEAR_busy = false
      let bad : Prop := l < f ∨ (sys = true ∧ f < 96) ∨ s.windowMeets sys r f l = true
      let fields (t : State) : Prop := t.fget fMEM_CLEAR_space = b2n sys ∧ t.fget fMEM_CLEAR_region = r
        ∧ t.fget fMEM_CLEAR_last = l ∧ t.fget fMEM_CLEAR_first = f
      let g := s.upkeep.burnGroup
      let p := burnPlace 0 9 g
      let K := burnKey p.1 p.2
      let cnt := fMEM_CNT_corrected (memCode K)
      let lost := fMEM_CNT_uncorrectable (memCode K)
      let burns : Prop := s.fon fMEM_BURN_CFG_en = true ∧ s.pkg.power.asleep = false ∧ s.burnFree = true
      let words (n : Nat) : Nat := ((List.range 64).filter (fun w => popc (s.flipAt (K + 8 * w)) == n)).length
      let next (t : State) : Prop := t.upkeep.burnGroup = (g + 1) % 131584
        ∧ t.fget fMEM_BURN_STATUS_mem = (burnPlace 0 9 ((g + 1) % 131584)).1
        ∧ t.fget fMEM_BURN_STATUS_passes = (s.fget fMEM_BURN_STATUS_passes + (if (g + 1) % 131584 = 0 then 1 else 0))
            % 2 ^ fMEM_BURN_STATUS_passes.width
      let code := v.toNat / 2 ^ 16
      let a := logAddr x.seq
      let head (c : Nat) : Nat := (c + x.tenant * 2 ^ 16 + x.engine * 2 ^ 24 + x.seq % 2 ^ 32 * 2 ^ 32) % 2 ^ 64
      let two (d e : Nat) : Nat := d % 2 ^ 32 + e % 2 ^ 32 * 2 ^ 32
      let logged (t : State) (b : List LogItem) (n size : Nat) : Prop := s.OnlyBytes t n size
        ∧ t = { s with mem := t.mem, upkeep := t.upkeep, log := { s.log with buf := b } }
      (s.upkeep.wback = k :: rest → Runs .eccWriteback s (fun t => t.flipAt k = 0#72
          ∧ (∀ j, j ≠ k → t.flipAt j = s.flipAt j) ∧ t.upkeep.wback = rest.filter (fun j => !(j == k))
          ∧ t = { s with upkeep := { s.upkeep with flips := t.upkeep.flips, wback := t.upkeep.wback } }))
      ∧ (s.upkeep.wback = [] → Runs .eccWriteback s (fun t => t = s))
      ∧ (¬go → Runs (.memClear v) s (fun t => fields t ∧ t.fon fMEM_CLEAR_busy = s.fon fMEM_CLEAR_busy
          ∧ t.fon fMEM_CLEAR_err = (s.fon fMEM_CLEAR_err && !bitN v.toNat 29) ∧ s.OnlyRegs t (fun y => y = aMEM_CLEAR)))
      ∧ (s.upkeep.clearing = none → Runs .memClearDone s (fun t => t = s))
      ∧ (go → ¬bad → Runs (.memClear v) s (fun t => t.fon fMEM_CLEAR_busy = true ∧ fields t
          ∧ t.upkeep = { s.upkeep with clearing := some (base + f * 0x10000, base + (l + 1) * 0x10000) }
          ∧ t = { s with regs := t.regs, upkeep := t.upkeep } ∧ (∀ y, y ≠ aMEM_CLEAR → t.reg y = s.reg y)))
      ∧ (go → bad → Runs (.memClear v) s (fun t => fields t ∧ t.fon fMEM_CLEAR_err = true ∧ t.fon fMEM_CLEAR_busy = false
          ∧ s.OnlyRegs t (fun y => y = aMEM_CLEAR)))
      ∧ (s.upkeep.clearing = some (lo, hi) → Runs .memClearDone s (fun t => t.fon fMEM_CLEAR_busy = false
          ∧ (∀ j, lo ≤ j → j < hi → t.byte j = memDefault j ∧ t.flipAt j = 0#72)
          ∧ (∀ j, j < lo ∨ hi ≤ j → t.byte j = s.byte j ∧ t.flipAt j = s.flipAt j) ∧ t.upkeep.clearing = none
          ∧ t = { s with regs := t.regs, mem := t.mem, upkeep := t.upkeep }))
      ∧ (¬burns → Runs .burnisherGroup s (fun t => t = s))
      ∧ (burns → s.burnReach p.1 p.2 = false → Runs .burnisherGroup s (fun t => next t
          ∧ t = { s with regs := t.regs, upkeep := { s.upkeep with burnGroup := t.upkeep.burnGroup } }
          ∧ ∀ y, y ≠ aMEM_BURN_STATUS → t.reg y = s.reg y))
      ∧ (burns → s.burnReach p.1 p.2 = true →
          (∀ w, w < 64 → popc (s.flipAt (K + 8 * w)) ≤ 1) → Runs .burnisherGroup s (fun t =>
            (∀ w, w < 64 → t.flipAt (K + 8 * w) = 0#72) ∧ (∀ j, j < K ∨ K + 512 ≤ j → t.flipAt j = s.flipAt j)
            ∧ t.fget cnt = (s.fget cnt + words 1) % 2 ^ cnt.width ∧ next t
            ∧ (∀ y, y ≠ aMEM_BURN_STATUS → y ≠ cnt.addr → t.reg y = s.reg y)
            ∧ (∀ j, j < K ∨ K + 512 ≤ j → (j ∈ t.upkeep.wback ↔ j ∈ s.upkeep.wback))
            ∧ t = { s with regs := t.regs
                           upkeep := { t.upkeep with clearing := s.upkeep.clearing } }))
      ∧ (burns → s.burnReach p.1 p.2 = true →
          (∀ w, w < 64 → popc (s.flipAt (K + 8 * w)) ≤ 2) → Runs .burnisherGroup s (fun t =>
            (∀ w, w < 64 → t.flipAt (K + 8 * w) = if popc (s.flipAt (K + 8 * w)) = 2 then s.flipAt (K + 8 * w) else 0#72)
            ∧ t.fget cnt = (s.fget cnt + words 1) % 2 ^ cnt.width
            ∧ t.fget lost = (s.fget lost + words 2) % 2 ^ lost.width ∧ next t ∧ (∀ j, t.byte j = s.byte j)))
      ∧ (0x8000 ≤ code → s.log.buf.length < 16 → Runs (.logAdd v) s (fun t => s.Counted t fSYS_LOG_SEQ_seq
          ∧ t.log = { s.log with buf := s.log.buf ++ [{ code := code
                                                        tenant := if bitN v.toNat 11 then 0x80 else v.toNat / 2 ^ 12 % 16
                                                        engine := v.toNat % 2 ^ 7
                                                        seq := s.fget fSYS_LOG_SEQ_seq
                                                        frame := s.logFrame
                                                        rtc := s.rtcLow
                                                        d0 := (s.reg aSYS_LOG_ADD_w1).toNat
                                                        d1 := (s.reg aSYS_LOG_ADD_w2).toNat
                                                        d2 := (s.reg aSYS_LOG_ADD_w3).toNat
                                                        d3 := (s.reg aSYS_LOG_ADD_w4).toNat }] }
          ∧ t = { s with regs := t.regs, log := t.log }))
      ∧ (0x8000 ≤ code → 16 ≤ s.log.buf.length → Runs (.logAdd v) s (fun t => s.Saturated t fSYS_LOG_DROP_dropped
          ∧ s.OnlyRegs t (fun y => y = fSYS_LOG_DROP_dropped.addr)))
      ∧ (code < 0x8000 → Runs (.logAdd v) s (fun t => t = s))
      ∧ (s.log.buf = [] → Runs .logWriteStep s (fun t => t = s))
      ∧ (s.log.buf = x :: more → x.step = 0 → Runs .logWriteStep s (fun t => t.num a 8 = head 0
          ∧ logged t ({ x with step := 1 } :: more) a 8))
      ∧ (s.log.buf = x :: more → x.step = 1 → Runs .logWriteStep s (fun t => t.num (a + 8) 8 = two x.frame x.rtc
          ∧ t.num (a + 16) 8 = two x.d0 x.d1 ∧ t.num (a + 24) 8 = two x.d2 x.d3
          ∧ logged t ({ x with step := 2 } :: more) (a + 8) 24))
      ∧ (s.log.buf = x :: more → 2 ≤ x.step → Runs .logWriteStep s (fun t => t.num a 8 = head x.code
          ∧ logged t more a 8)))
    ∧ (∀ (s : State) (l resend : BitVec 3) (i : BitVec 7) (k : Nat) (b : Bool),
      let n := l.toNat
      let ended (t : State) (p : Nat → Prop) (lost : Bool) : Prop :=
        let hit (x : Option (Nat × Nat)) : Prop := ∃ q, x = some (n, q) ∧ p q
        (∀ y, y ∈ t.linkTxns n ↔ y ∈ s.linkTxns n ∧ ¬p y.1) ∧ (∀ j, j ≠ n → t.linkTxns j = s.linkTxns j)
        ∧ (∀ c, c ≤ 128 → ∃ y z, ∃ gone : Bool,
            let e := s.eng c
            let drops (o : OutAcc) : Prop := gone = true ∧ lost = true ∧ hit o.txn ∧ o.msgId.isSome = true
            (∀ o, o ∈ e.outs → drops o ∨ o ∈ (t.eng c).outs ∨
                (hit o.txn ∧ { o with txn := none, kind := if lost then lostKind o.kind y z else o.kind }
                  ∈ (t.eng c).outs))
            ∧ ((∀ o ∈ e.outs, ¬drops o) → (t.eng c).outs.length = e.outs.length
                ∧ ∀ (j : Nat) (o : OutAcc), e.outs[j]? = some o →
                  (hit o.txn → (t.eng c).outs[j]? = some { o with
                    txn := none, kind := if lost then lostKind o.kind y z else o.kind })
                  ∧ (¬hit o.txn → (t.eng c).outs[j]? = some o))
            ∧ (∀ o, o ∈ (t.eng c).outs → ¬hit o.txn)
            ∧ (hit e.waitTxn → (t.eng c).waitTxn = none
                ∧ (t.eng c).wait = if lost then e.wait.map (fun w => (w.1, y)) else e.wait)
            ∧ (¬hit e.waitTxn → (t.eng c).waitTxn = e.waitTxn ∧ (t.eng c).wait = e.wait)
            ∧ t.eng c = { e with outs := (t.eng c).outs, wait := (t.eng c).wait, waitTxn := (t.eng c).waitTxn }
            ∧ ∀ (f : Flight) (id : Nat), f.msg = some (id, c) →
              (f ∈ t.flight ↔ f ∈ s.flight ∧ ∀ o ∈ e.outs, drops o → o.msgId ≠ some id))
        ∧ (∀ f, (∀ id c, f.msg = some (id, c) → 128 < c) → (f ∈ t.flight ↔ f ∈ s.flight)) ∧ t.flight.Sublist s.flight
        ∧ (∀ y, y ≠ (fLATIGO_STATUS_state n).addr → y ≠ (fLATIGO_ERRCNT_crc_err n).addr → t.reg y = s.reg y)
        ∧ t = { s with regs := t.regs, engines := t.engines, flight := t.flight, freeCount := t.freeCount
                       pkg := { s.pkg with links := t.pkg.links } }
      let up : Prop := s.hasLink n = true ∧ s.linkState n = 2
      ((s.linkTxns n)[i.toNat]? = some (k, b) → Runs (.latigoTransactionDone l i) s (fun t =>
          ended t (fun q => q = k) false ∧ t.linkState n = s.linkState n))
      ∧ ((s.linkTxns n)[i.toNat]? = some (k, b) → Runs (.latigoTimeoutExpiry l i) s (fun t =>
          ended t (fun q => q = k) true ∧ s.Saturated t (fLATIGO_ERRCNT_timeout_cnt n)
          ∧ t.linkState n = s.linkState n))
      ∧ ((s.linkTxns n)[i.toNat]? = none → Runs (.latigoTransactionDone l i) s (fun t => t = s)
          ∧ Runs (.latigoTimeoutExpiry l i) s (fun t => t = s))
      ∧ (¬up → Runs (.latigoCrcError l resend) s (fun t => t = s))
      ∧ (s.linkState n ≠ 3 → Runs (.latigoRetrainEnd l) s (fun t => t = s))
      ∧ (up → resend ≠ 7#3 → Runs (.latigoCrcError l resend) s (fun t => s.Saturated t (fLATIGO_ERRCNT_crc_err n)
          ∧ s.OnlyRegs t (fun a => a = (fLATIGO_ERRCNT_crc_err n).addr)))
      ∧ (up → Runs (.latigoCrcError l 7#3) s (fun t => ended t (fun _ => True) true ∧ t.linkState n = 3
          ∧ s.Saturated t (fLATIGO_ERRCNT_crc_err n) ∧ s.Saturated t (fLATIGO_ERRCNT_resend_exh n)))
      ∧ (s.linkState n = 3 → Runs (.latigoRetrainEnd l) s (fun t => t.linkState n = 2
          ∧ s.OnlyRegs t (fun a => a = (fLATIGO_STATUS_state n).addr))))

/-- R364–R367, R369–R371, R374, Tables 15-3 and 15-4. The order of refusals is log entry 46. -/
def Obligations.FlashStarts : Prop :=
  ∀ (s : State) (m : Master) (tag : BitVec 16) (r : FlashCmd) (g : BitVec 7),
    let c (op : Nat) : FlashCmd := { op := op, tag := tag.toNat, addr := s.fget fXSPI_CMD_addr
                                     buf := s.fget fXSPI_CMD_buf, len := s.fget fXSPI_CMD_length, start := s.mono }
    let opened : Prop := s.regOpen m aXSPI_CMD_w0 true = true
    let nests (x : FlashCmd) (op : Nat) : Prop := s.fget fXSPI_CTRL_mode ≠ 2 ∧ x.op = 3 ∧ s.flash.outer = none
      ∧ s.flash.known = none ∧ op ≠ 3 ∧ (s.flash.susp.isSome = true ∨ op ≠ 2)
    let free (op : Nat) : Prop := opened ∧ ∀ x, s.flash.cmd = some x → nests x op
    let outer : FlashSt := match s.flash.cmd with
      | none => s.flash
      | some x => { s.flash with outer := some x, outerTries := s.flash.tries }
    let base (op : Nat) : FlashSt := { outer with
      cmd := some (c op), known := s.flashRefusal (c op), page := (c op).addr, tries := 0, checked := false, badLines := [] }
    let shows (t : State) (op : Nat) : Prop := t.fon fXSPI_STATUS_busy = true ∧ t.fget fXSPI_STATUS_op = op
    let started (op : Nat) (i : Instr) : Prop := Runs i s (fun t => shows t op
      ∧ t = { s with regs := t.regs, flash := base op } ∧ ∀ a, a ≠ aXSPI_STATUS → t.reg a = s.reg a)
    let reads (q : Master) : List (Nat × Instr) :=
      [(1, .flashRead q tag), (4, .blank q tag), (5, .hcheck q tag), (6, .verify q tag)]
    let writes (q : Master) : List (Nat × Instr) := [(2, .flashProgram q tag), (3, .flashErase q tag)]
    let a := (c 3).addr
    let e := eraseCountKey (a / 0x10000)
    let lines (lo hi : Nat) : List (Nat × List Byte) :=
      s.flash.lines.filter (fun x => decide (hi ≤ x.1 * lineBytes) || decide ((x.1 + 1) * lineBytes ≤ lo))
    (s.regReach m aXSPI_CMD_w0 = false → ∀ z ∈ reads m ++ writes m, Runs z.2 s (fun t => t = s))
    ∧ (s.regReach (.core (.eng g)) aXSPI_CMD_w0 = true → ∀ z ∈ reads (.core (.eng g)) ++ writes (.core (.eng g)),
        Runs z.2 s (fun t => s.Counted t (fTENANT_FVIOL_register (s.engTenant g.toNat))
          ∧ t = { s with regs := t.regs, log := t.log, flight := t.flight }))
    ∧ (∀ z ∈ reads m, free z.1 → z.1 ≠ 6 ∨ (s.flashRefusal (c 6)).isSome = true → started z.1 z.2)
    ∧ (free 6 → s.flashRefusal (c 6) = none → Runs (.verify m tag) s (fun t => shows t 6 ∧ t.flash = base 6
          ∧ (∃ j : Job, j.op = 17 ∧ j.who = .unit .image
            ∧ (j ∈ t.cipher.queue ∨ j ∈ t.cipher.waiting ∨ ∃ y ∈ t.cipher.running, y.job = j))
          ∧ t = { s with regs := t.regs, flash := t.flash, cipher := t.cipher, age := t.age }
          ∧ ∀ x, x ≠ aXSPI_STATUS → t.reg x = s.reg x))
    ∧ (∀ z ∈ writes m, free z.1 → (s.flashRefusal (c z.1)).isSome = true → started z.1 z.2)
    ∧ (free 2 → s.flashRefusal (c 2) = none → Runs (.flashProgram m tag) s (fun t => shows t 2
          ∧ t.flash = { base 2 with lines := lines (c 2).addr ((c 2).addr + (c 2).len) }
          ∧ t = { s with regs := t.regs, flash := t.flash } ∧ ∀ x, x ≠ aXSPI_STATUS → t.reg x = s.reg x))
    ∧ (free 3 → s.flashRefusal (c 3) = none → a < 2 ^ 28 → s.Clean e 4 → Runs (.flashErase m tag) s (fun t => shows t 3
          ∧ t.flash = { base 3 with lines := lines a (a + 0x10000), act := some (.erase a) }
          ∧ t.num opRecord 8 = 3 * 2 ^ 60 + a ∧ t.num e 4 = satInc 0xFFFFFFFF (s.num e 4)
          ∧ (∀ k, (k < opRecord ∨ opRecord + 8 ≤ k) → (k < e ∨ e + 4 ≤ k) → t.byte k = s.byte k)
          ∧ s.Counted t fXSPI_COUNT_erases
          ∧ (s.fget fXSPI_WEAR_erase_warn = t.num e 4 → t.fon fXSPI_WEAR_warned = true)
          ∧ t = { s with regs := t.regs, mem := t.mem, upkeep := t.upkeep, flash := t.flash, log := t.log }))
    ∧ (opened → s.flash.cmd = some r → ∀ z ∈ reads m ++ writes m, ¬nests r z.1 → Runs z.2 s (fun t =>
        t.fon fXSPI_STATUS_go_refused = true ∧ s.Counted t fXSPI_COUNT_busy
        ∧ s.OnlyRegs t (fun a => a = aXSPI_STATUS ∨ a = aXSPI_COUNT_w3)))

/-- R363–R366, R368, R370, R371, R376. -/
def Obligations.FlashEnds : Prop :=
  ∀ (s : State) (ok : Bool) (c : FlashCmd) (st code det K B a b n : Nat) (more : List Nat) (line : BitVec 22),
    let sized (f : Fld) (v : Nat) : Nat := v % 2 ^ f.width
    let freed (f : FlashSt) : FlashSt := { f with
      cmd := s.flash.outer, outer := none, known := none, checked := false, badLines := [], dqsLine := 0, dqs := 0
      tries := s.flash.outerTries, outerTries := 0 }
    let ended (t : State) (f : FlashSt) (st code det : Nat) : Prop :=
      t.fget fXSPI_RESULT_status = sized fXSPI_RESULT_status st
      ∧ t.fget fXSPI_RESULT_boot_code = sized fXSPI_RESULT_boot_code code
      ∧ t.fget fXSPI_RESULT_tag = sized fXSPI_RESULT_tag c.tag
      ∧ t.fget fXSPI_RESULT2_detail = sized fXSPI_RESULT2_detail det
      ∧ t.flash = freed f ∧ (s.flash.outer = none → t.fon fXSPI_STATUS_busy = false)
      ∧ (∀ e, s.flash.outer = some e → t.fon fXSPI_STATUS_busy = s.fon fXSPI_STATUS_busy
          ∧ t.fget fXSPI_STATUS_op = sized fXSPI_STATUS_op e.op)
      ∧ (st = 1 → s.Counted t fXSPI_COUNT_not_blank) ∧ (st = 2 → s.Counted t fXSPI_COUNT_protected)
      ∧ (st = 6 → s.Counted t fXSPI_COUNT_fails)
    let only (t : State) : Prop := t = { s with regs := t.regs, flash := t.flash, freeCount := t.freeCount }
      ∧ ∀ x, x ≠ aXSPI_RESULT → x ≠ aXSPI_RESULT2 → x ≠ aXSPI_STATUS → x ≠ aXSPI_COUNT_w2 → x ≠ aXSPI_COUNT_w3 →
        t.reg x = s.reg x
    let runs (op : Nat) : Prop := s.flash.cmd = some c ∧ c.op = op ∧ s.flash.known = none
    let reading (op : Nat) : Prop := runs op ∧ s.flash.act = none ∧ s.flash.susp = none
    let cell (i : Nat) : Byte :=
      if s.flash.badLines.contains ((c.addr + i) / lineBytes) then 0#8 else s.byte (flashKey (c.addr + i))
    let filled : Prop := ∀ i, i < c.len → cell i = 0xFF#8
    let notBlank : Prop := n < c.len ∧ cell n ≠ 0xFF#8 ∧ ∀ i, i < n → cell i = 0xFF#8
    let ready : FlashSt := { s.flash with checked := true, badLines := [], dqsLine := 0, dqs := 0 }
    let head := s.headerCheck (s.bytes K 256)
    let bank := s.verifyBank c.addr
    let k := flashKey a
    let programs : Prop := runs 2 ∧ s.flash.act = some (.program a) ∧ b = pageEnd a (c.addr + c.len) ∧ a ≤ b ∧ s.Steady
    let sourced : Prop := programs ∧ s.dmaKey 128 (c.buf + (a - c.addr)) = some B ∧ s.Clean B (b - a)
      ∧ s.clearMeets B (b - a) = false
    let again (lim us : Nat) : Prop := s.flash.tries < lim ∧ s.retryFits c us = true
    let eraseAgain := again (s.fget fXSPI_CTRL_erase_retry) (s.fget fXSPI_DEV1_terase_ms * 1000)
    let pageAgain := again (s.fget fXSPI_CTRL_prog_retry) (s.fget fXSPI_DEV1_tpp_us)
    let noPage : Prop := ∀ x, s.flash.cmd = some x → x.op ≠ 2
    let rest := more.filter (fun x => x != n)
    let written (t : State) : Prop := t.bytes k (b - a) = s.bytes B (b - a) ∧ s.Counted t fXSPI_COUNT_programs
      ∧ (∀ j, (j < k ∨ flashKey b ≤ j) → (j < opRecord ∨ opRecord + 8 ≤ j) → t.byte j = s.byte j)
    let after : FlashSt := { s.flash with act := none, tries := 0, page := b }
    let l := line.toNat
    let rereads := if s.flash.dqsLine = l then s.flash.dqs else 0
    let slow : Prop := s.flash.act = none ∧ (s.flash.miss.head? = some l ∨ s.lineInCmd l = true)
    (s.flash.cmd = none → Runs (.flashCmdDone ok) s (fun t => t = s))
    ∧ (s.flash.cmd = some c → s.flash.known = some (st, code, det) → Runs (.flashCmdDone ok) s (fun t =>
        ended t s.flash st code det ∧ only t))
    ∧ (reading 1 → s.dieOff c.buf = false → s.dmaKey 128 c.buf = some K → s.clearMeets K c.len = false →
        s.noStore K c.len = false → s.Clean K c.len → Runs (.flashCmdDone ok) s (fun t => ended t s.flash 0 0 0
          ∧ (∀ i, i < c.len → t.byte (K + i) = cell i) ∧ s.OnlyBytes t K c.len))
    ∧ (runs 1 → s.dmaKey 128 c.buf = some K → s.clearMeets K c.len = true → Runs (.flashCmdDone ok) s (fun t => t = s))
    ∧ (runs c.op → c.op ≠ 3 → c.op ≠ 5 → s.flash.act.isSome = true → Runs (.flashCmdDone ok) s (fun t => t = s))
    ∧ (runs 5 → s.dmaKey 128 c.buf = some K → s.clearMeets K 256 = true → Runs (.flashCmdDone ok) s (fun t => t = s))
    ∧ (reading 4 → filled → Runs (.flashCmdDone ok) s (fun t =>
        ended t s.flash 0 0 0 ∧ only t))
    ∧ (reading 4 → notBlank → Runs (.flashCmdDone ok) s (fun t =>
        ended t s.flash 1 0 (c.addr + n) ∧ only t))
    ∧ (reading 2 → s.flash.checked = true → Runs (.flashCmdDone ok) s (fun t => t = s))
    ∧ (reading 2 → s.flash.checked = false → notBlank → Runs (.flashCmdDone ok) s (fun t =>
        ended t s.flash 1 0 (c.addr + n) ∧ only t))
    ∧ (reading 2 → s.flash.checked = false → filled → s.flash.stop = false → s.flash.miss = [] → s.flash.page < 2 ^ 32 →
        Runs (.flashCmdDone ok) s (fun t => t.flash = { ready with act := some (.program s.flash.page) }
          ∧ t.num opRecord 8 = 2 * 2 ^ 60 + s.flash.page ∧ s.OnlyBytes t opRecord 8
          ∧ t = { s with mem := t.mem, upkeep := t.upkeep, flash := t.flash, freeCount := t.freeCount }))
    ∧ (reading 2 → s.flash.checked = false → filled → s.flash.stop = false → s.flash.miss ≠ [] →
        Runs (.flashCmdDone ok) s (fun t => t = { s with flash := ready, freeCount := t.freeCount }))
    ∧ (reading 2 → s.flash.checked = false → filled → s.flash.stop = true → c.addr < 2 ^ 32 →
        Runs (.flashCmdDone ok) s (fun t => ended t ready 8 0 0 ∧ t.num opRecord 8 = 2 * 2 ^ 60 + c.addr
          ∧ s.OnlyBytes t opRecord 8))
    ∧ (runs 5 → (∀ p, s.flash.act ≠ some (.program p)) → s.clearMeets K 256 = false → s.dmaKey 128 c.buf = some K → s.Clean K 256 → Runs (.flashCmdDone ok) s (fun t => only t
        ∧ ended t s.flash (if head = 1 then 0 else 7) (if head = 1 then 0 else head) 0))
    ∧ (reading 6 → s.imageGranted = false → Runs (.flashCmdDone ok) s (fun t => t = s))
    ∧ (reading 6 → s.imageGranted = true → (∀ j ∈ s.cipher.queue, j.op < 16) → Runs (.flashCmdDone ok) s (fun t =>
        t = { s with regs := t.regs, flash := t.flash, cipher := { s.cipher with
          running := s.cipher.running.filter (fun y => y.job.op != 17) } }
        ∧ (∀ x, x ≠ aXSPI_RESULT → x ≠ aXSPI_RESULT2 → x ≠ aXSPI_STATUS → t.reg x = s.reg x)
        ∧ ended t s.flash (if bank = 1 then 0 else 7) (if bank = 1 then 0 else bank) (if bank = 1 then
          refusedMask (s.manifest (s.header (flashKey c.addr)) (flashKey c.addr))
            (fieldLe (s.header (flashKey c.addr)) 0x28 1) * 65536 else 0)))
    ∧ (runs 3 → s.flash.act = none → Runs (.flashCmdDone ok) s (fun t => t = s))
    ∧ (runs 3 → s.flash.act = some (.erase a) → a < 2 ^ 28 → eraseAgain → Runs (.flashCmdDone false) s (fun t =>
        t.flash.cmd = some c ∧ t.flash.act = some (.erase a) ∧ t.flash.tries = s.flash.tries + 1
        ∧ s.Counted t fXSPI_COUNT_retries ∧ s.Counted t fXSPI_COUNT_erases ∧ t.num opRecord 8 = 3 * 2 ^ 60 + a))
    ∧ (runs 3 → s.flash.act = some (.erase a) → ¬eraseAgain → Runs (.flashCmdDone false) s (fun t =>
        ended t { s.flash with act := none } 6 0 a ∧ t.num opRecord 8 = 0
        ∧ (∀ j, (j < k ∨ k + 0x10000 ≤ j) → (j < opRecord ∨ opRecord + 8 ≤ j) → t.byte j = s.byte j)))
    ∧ (runs 3 → s.flash.act = some (.erase a) →
        Runs (.flashCmdDone true) s (fun t => ended t { s.flash with act := none } 0 0 0 ∧ t.num opRecord 8 = 0
          ∧ (a < 0x10000000 → ∀ j, k ≤ j → j < k + 0x10000 → t.byte j = 0xFF#8)
          ∧ (∀ j, (j < k ∨ k + 0x10000 ≤ j) → (j < opRecord ∨ opRecord + 8 ≤ j) → t.byte j = s.byte j)))
    ∧ ((∀ p, s.flash.act ≠ some (.program p)) → s.Steady → s.fon fGIRTH_STATUS_changing = false →
        Runs (.pageProgramDone ok) s (fun t => t = s))
    ∧ (programs → pageAgain → Runs (.pageProgramDone false) s (fun t => s.Counted t fXSPI_COUNT_retries
        ∧ t = { s with regs := t.regs, flash := { s.flash with tries := s.flash.tries + 1 } }))
    ∧ (programs → ¬pageAgain → Runs (.pageProgramDone false) s (fun t => ended t { s.flash with act := none } 6 0 a
        ∧ t.num opRecord 8 = 0
        ∧ (∀ j, (j < k ∨ flashKey b ≤ j) → (j < opRecord ∨ opRecord + 8 ≤ j) → t.byte j = s.byte j)))
    ∧ (sourced → b = c.addr + c.len → Runs (.pageProgramDone true) s (fun t => written t ∧ ended t after 0 0 0
        ∧ t.num opRecord 8 = 0))
    ∧ (sourced → b ≠ c.addr + c.len → b < 2 ^ 32 → s.flash.stop = true → Runs (.pageProgramDone true) s (fun t =>
        written t ∧ ended t after 8 0 0 ∧ t.num opRecord 8 = 2 * 2 ^ 60 + b))
    ∧ (sourced → b ≠ c.addr + c.len → s.flash.stop = false → s.flash.miss ≠ [] ∨ s.flash.checked = false →
        Runs (.pageProgramDone true) s (fun t => written t ∧ t.flash = after))
    ∧ (sourced → b ≠ c.addr + c.len → b < 2 ^ 32 → s.flash.miss = [] → s.flash.checked = true → s.flash.stop = false →
        Runs (.pageProgramDone true) s (fun t => written t ∧ t.flash = { after with act := some (.program b) }
          ∧ t.num opRecord 8 = 2 * 2 ^ 60 + b))
    ∧ (s.flash.miss = [] ∨ s.flash.act.isSome = true → Runs .windowLineFill s (fun t => t = s))
    ∧ (s.flash.miss = n :: more → s.flash.act = none → noPage → s.flashHeld (n * lineBytes) = false →
        Runs .windowLineFill s (fun t => t = { s with engines := t.engines, flash := t.flash }
          ∧ t.flash = { s.flash with
              miss := rest
              lines := (if s.flash.lines.length < 16 then s.flash.lines else s.flash.lines.drop 1)
                ++ [(n, s.bytes (flashKey (n * lineBytes)) lineBytes)]
              dqs := if s.flash.dqsLine = n then 0 else s.flash.dqs }
          ∧ ∀ q, t.eng q = { s.eng q with outs := answerOuts n (fun off z =>
              takePad z ((s.bytes (flashKey (n * lineBytes)) lineBytes).drop (off % lineBytes))) (s.eng q).outs }))
    ∧ (s.flash.miss = n :: more → s.flash.act = none → noPage → s.flashHeld (n * lineBytes) = true →
        Runs .windowLineFill s (fun t => t = { s with regs := t.regs, engines := t.engines, flash := t.flash }
          ∧ t.flash = { s.flash with miss := rest } ∧ (∀ x, x ≠ aXSPI_COUNT_w4 → t.reg x = s.reg x)
          ∧ t.fget fXSPI_COUNT_busy_read = sized fXSPI_COUNT_busy_read (s.fget fXSPI_COUNT_busy_read + s.waitCount n)
          ∧ ∀ q, t.eng q = { s.eng q with outs := answerOuts n (fun _ z => takePad z []) (s.eng q).outs }))
    ∧ (s.flash.miss = n :: more → s.flash.act = none → runs 2 → s.flash.checked = true → s.flash.stop = false → rest = [] →
        s.flash.page < 2 ^ 32 → Runs .windowLineFill s (fun t => t.flash.act = some (.program s.flash.page)
          ∧ t.flash.miss = [] ∧ t.num opRecord 8 = 2 * 2 ^ 60 + s.flash.page ∧ s.OnlyBytes t opRecord 8))
    ∧ ((∀ p, s.flash.act ≠ some (.erase p)) ∨ s.flashWanted = false → Runs .eraseSuspend s (fun t => t = s))
    ∧ (s.flash.act.isSome = true ∨ s.flash.susp = none ∨ s.flashWanted = true → Runs .eraseResume s (fun t => t = s))
    ∧ (s.flash.act = some (.erase a) → s.flashWanted = true → Runs .eraseSuspend s (fun t =>
        t.flash = { s.flash with act := none, susp := some a } ∧ t.fon fXSPI_STATUS_suspended = true
        ∧ s.Counted t fXSPI_COUNT_suspends ∧ t = { s with regs := t.regs, flash := t.flash }))
    ∧ (s.flash.act = none → s.flash.susp = some a → s.flashWanted = false → Runs .eraseResume s (fun t =>
        t.flash = { s.flash with act := some (.erase a), susp := none } ∧ t.fon fXSPI_STATUS_suspended = false
        ∧ t = { s with regs := t.regs, flash := t.flash }))
    ∧ (¬slow → Runs (.dqsTimeout line) s (fun t => t = s))
    ∧ (slow → 3 ≤ rereads → s.flash.miss.head? = some l → noPage → Runs (.dqsTimeout line) s (fun t =>
        s.Counted t fXSPI_COUNT_fails
        ∧ t.flash = { s.flash with miss := s.flash.miss.filter (fun x => x != l), dqsLine := 0, dqs := 0 }
        ∧ t = { s with regs := t.regs, engines := t.engines, flash := t.flash }
        ∧ ∀ q, t.eng q = { s.eng q with outs := answerOuts l (fun _ z => takePad z []) (s.eng q).outs }))
    ∧ (slow → rereads < 3 → Runs (.dqsTimeout line) s (fun t => s.Counted t fXSPI_COUNT_retries
        ∧ t = { s with regs := t.regs, flash := { s.flash with dqsLine := l, dqs := rereads + 1 } }))
    ∧ (slow → 3 ≤ rereads → s.flash.miss.head? ≠ some l → Runs (.dqsTimeout line) s (fun t =>
        s.Counted t fXSPI_COUNT_fails ∧ t = { s with
          regs := t.regs, flash := { s.flash with dqsLine := 0, dqs := 0, badLines := l :: s.flash.badLines } }))

/-- R380–R387; residency: R341 and log entry 51; the comparator level with the tick: log entry 33. -/
def Obligations.RealTimeClock : Prop :=
  ∀ (s : State) (low : Bool) (m : Master) (v : Word),
    let r := s.rtc
    let cal := signedN 8 (s.fget fRTC_CTRL_cal)
    let point : Bool := (r.ticks + 1) % 2 ^ 20 == 0
    let left := if point then cal.natAbs else r.adjLeft
    let up := if point then decide (0 < cal) else r.adjUp
    let n := if left = 0 then 1 else if up then 2 else 0
    let second : Prop := 32768 ≤ r.frac + n
    let ticked (t : State) : Prop := t.rtc.ticks = (r.ticks + 1) % 2 ^ 20 ∧ t.rtc.adjLeft = left - 1 ∧ t.rtc.adjUp = up
      ∧ t.rtc.shadows = r.shadows ∧ t.rtc.loading = false ∧ t.fon fRTC_STATUS_vbat_low = low
      ∧ t.fon fRTC_STATUS_xtal_fail = false ∧ t = { s with regs := t.regs, rtc := t.rtc }
      ∧ (∀ a, a ≠ aRTC_STATUS → (∀ q, q < 3 → a ≠ aPWR_RESID q) → t.reg a = s.reg a)
    let seen (t : State) (k : Nat) (x : Option (Nat × Nat)) : Prop := tabGet none t.rtc.shadows k = x
      ∧ (∀ j, j ≠ k → tabGet none t.rtc.shadows j = tabGet none r.shadows j)
      ∧ t = { s with rtc := { r with shadows := t.rtc.shadows } }
    let k := shadowOf m
    let now : Prop := r.frac < 32768 ∧ r.loading = false
    let running : Prop := now ∧ second ∧ s.pkg.stage = .run ∧ s.pkg.power ≠ .deepSleep ∧ s.pkg.power ≠ .off
    (now → Runs (.rtcTick low) s (fun t => ticked t ∧ t.rtc.frac = (r.frac + n) % 32768
        ∧ t.rtc.sec = (if 32768 ≤ r.frac + n then (r.sec + 1) % 2 ^ 48 else r.sec)
        ∧ t.rtc.byTick = decide (32768 ≤ r.frac + n)))
    ∧ (running → s.pkg.power = .sleep → Runs (.rtcTick low) s (fun t => s.Saturated t (fPWR_RESID_seconds 2)))
    ∧ (now → ¬running → Runs (.rtcTick low) s (fun t => ∀ q, q < 3 → t.reg (aPWR_RESID q) = s.reg (aPWR_RESID q)))
    ∧ (s.regReach m aRTC_CTRL = false → Runs (.rtcLoad m v) s (fun t => t = s))
    ∧ (s.regReach m aRTC_FRAC = false → Runs (.rtcShadowFreeze m) s (fun t => t = s))
    ∧ (s.regReach m aRTC_SEC_HI = false → Runs (.rtcShadowRelease m) s (fun t => t = s))
    ∧ (s.fon fRTC_STATUS_on_vbat = true → Runs .vbatSwitchover s (fun t => t = s))
    ∧ (s.fon fRTC_STATUS_xtal_fail = false → 16 ≤ s.log.buf.length → Runs .xtalFail s (fun t =>
        t.fon fRTC_STATUS_xtal_fail = true ∧ s.Saturated t fSYS_LOG_DROP_dropped ∧ t = { s with regs := t.regs }))
    ∧ (running → s.pkg.power ≠ .sleep → Runs (.rtcTick low) s (fun t =>
        s.Saturated t (fPWR_RESID_seconds (if s.anyBusy then 0 else 1))))
    ∧ (r.loading = true → Runs (.rtcTick low) s (fun t => ticked t ∧ t.rtc.frac = s.fget fRTC_LOAD1_frac
        ∧ t.rtc.sec = s.fget fRTC_LOAD0_sec_lo + s.fget fRTC_LOAD1_sec_hi * 2 ^ 32
        ∧ t.fon fRTC_STATUS_valid = true))
    ∧ (s.regOpen m aRTC_CTRL true = true → Runs (.rtcLoad m v) s (fun t =>
        t.fget fRTC_CTRL_cal = (if v.toNat % 256 = 128 then s.fget fRTC_CTRL_cal else v.toNat % 256)
        ∧ t = { s with regs := t.regs, rtc := { r with loading := true } } ∧ ∀ a, a ≠ aRTC_CTRL → t.reg a = s.reg a))
    ∧ (s.fon fRTC_STATUS_xtal_fail = false → s.log.buf.length < 16 → Runs .xtalFail s (fun t =>
        t.fon fRTC_STATUS_xtal_fail = true ∧ t = { s with regs := t.regs, log := t.log }
        ∧ t.log.buf.map LogItem.code = s.log.buf.map LogItem.code ++ [0x0061]))
    ∧ (s.fon fRTC_STATUS_xtal_fail = true → Runs .xtalFail s (fun t => t = s))
    ∧ (s.fon fRTC_STATUS_on_vbat = false → Runs .vbatSwitchover s (fun t => t.fon fRTC_STATUS_on_vbat = true
        ∧ s.Saturated t fRTC_VBAT_STAT_count ∧ t.fon fRTC_VBAT_STAT_ts_valid = true ∧ t = { s with regs := t.regs }
        ∧ (s.fon fRTC_VBAT_STAT_ts_valid = true →
            t.reg aRTC_VBAT_TS0 = s.reg aRTC_VBAT_TS0 ∧ t.reg aRTC_VBAT_TS1 = s.reg aRTC_VBAT_TS1)
        ∧ (s.fon fRTC_VBAT_STAT_ts_valid = false → t.fget fRTC_VBAT_TS0_sec_lo = r.sec % 2 ^ 32
          ∧ t.fget fRTC_VBAT_TS1_sec_hi = r.sec / 2 ^ 32 % 2 ^ 16 ∧ t.fget fRTC_VBAT_TS1_frac = r.frac % 2 ^ 15)))
    ∧ Runs .vddaSwitchback s (fun t => t.fon fRTC_STATUS_on_vbat = false ∧ s.OnlyRegs t (fun a => a = aRTC_STATUS))
    ∧ (s.regOpen m aRTC_FRAC false = true → Runs (.rtcShadowFreeze m) s (fun t => seen t k (some (s.rtcSeen k))))
    ∧ (s.regOpen m aRTC_SEC_HI false = true → Runs (.rtcShadowRelease m) s (fun t => seen t k none))
    ∧ Runs (.shadowTimeout m) s (fun t => seen t k none)

/-- R388–R392. -/
def Obligations.TimersRun : Prop :=
  ∀ (s : State) (m : Master) (i : BitVec 4) (v : Word) (also : BitVec 6),
    let n := i.toNat
    let x := s.timer n
    let others (t : State) : Prop := ∀ j, j ≠ n → t.timer j = s.timer j
    let on : Prop := s.timerOn n = true
    let awake : Prop := on ∧ (s.fon (fTMR_CFG_sup n) = false ∨ s.wakeCounts 5 = false)
    let up := (x.count + 1) % 2 ^ 48
    let down := (x.count + 2 ^ 48 - 1) % 2 ^ 48
    let double (t : State) (hit : Bool) : Prop :=
      t.fon (fTMR_STATUS_double n) = (s.fon (fTMR_STATUS_double n) || (hit && x.matched))
    let event : Bool := if x.down then down == 0 || down == x.cmp else up == x.reload || up == x.cmp
    let notice (b : Nat) : List Flight := if bitN (s.fget (fTMR_CFG_notify n)) b then
      [flightTo (if s.fon (fTMR_CFG_sup n) then 128 else s.fget (fTMR_CFG_target n)) 10 n 0 0 0] else []
    let stepped (t : State) (y : Timer) (fl : List Flight) : Prop :=
      t.timer n = { y with stopDue := false, turn := (t.timer n).turn }
      ∧ others t ∧ t.timerOn n = !x.stopDue ∧ t.flight = s.flight ++ fl
      ∧ t = { s with regs := t.regs, flight := t.flight, timers := { s.timers with tab := t.timers.tab } }
      ∧ (∀ a, a ≠ aTMR_CFG n → a ≠ aTMR_STATUS n → t.reg a = s.reg a)
    let turned (y : Timer) : Timer := { y with matched := false, cmp := x.cmpNext.getD x.cmp, cmpNext := none }
    let step := Instr.timerStep i also
    let writes : List (Nat × Instr) := [(aTMR_START, .tmrStart m v), (aTMR_STOP, .tmrStop m v), (aTMR_CFG n, .timerClear m i v),
      (aTMR_RELOAD_HI n, .reloadCommit m i v), (aTMR_CMP_HI n, .compareCommit m i v)]
    let put (t : State) (y : Timer) : Prop := t.timer n = y ∧ others t
      ∧ t = { s with timers := { s.timers with tab := t.timers.tab } }
    let w (lo : Nat) : Nat := lo + v.toNat % 65536 * 2 ^ 32
    let c := w x.cmpLo
    (s.timerOn n = false → Runs step s (fun t => t = s))
    ∧ (∀ c ∈ writes, s.regReach m c.1 = false → Runs c.2 s (fun t => t = s))
    ∧ (on → x.down = false → up ≠ x.reload → up ≠ x.cmp → Runs step s (fun t => stepped t { x with count := up } []
          ∧ t.reg (aTMR_STATUS n) = s.reg (aTMR_STATUS n)))
    ∧ (on → x.down = true → down ≠ 0 → down ≠ x.cmp → Runs step s (fun t =>
        stepped t { x with count := down } [] ∧ t.reg (aTMR_STATUS n) = s.reg (aTMR_STATUS n)))
    ∧ (awake → x.down = false → up = x.reload → Runs step s (fun t =>
        stepped t (turned { x with count := up, down := true }) (notice 3 ++ if up = x.cmp then notice 1 else [])
        ∧ t.fon (fTMR_STATUS_top n) = true ∧ double t (up == x.cmp)
        ∧ t.fon (fTMR_STATUS_up n) = (s.fon (fTMR_STATUS_up n) || up == x.cmp)))
    ∧ (awake → x.down = true → down = 0 → Runs step s (fun t => t.fon (fTMR_STATUS_bottom n) = true
        ∧ stepped t (turned { x with
            count := 0, down := false, reload := x.reloadNext.getD x.reload, reloadNext := none })
            (notice 2 ++ if x.cmp = 0 then notice 0 else [])
        ∧ double t (x.cmp == 0) ∧ t.fon (fTMR_STATUS_down n) = (s.fon (fTMR_STATUS_down n) || x.cmp == 0)))
    ∧ (awake → x.down = false → up ≠ x.reload → up = x.cmp → Runs step s (fun t =>
        stepped t { x with count := up, matched := true } (notice 1) ∧ t.fon (fTMR_STATUS_up n) = true ∧ double t true))
    ∧ (awake → x.down = true → down ≠ 0 → down = x.cmp → Runs step s (fun t =>
        stepped t { x with count := down, matched := true } (notice 0) ∧ t.fon (fTMR_STATUS_down n) = true
        ∧ double t true))
    ∧ (on → event = true → s.fon (fTMR_CFG_sup n) = true → s.wakeEnabled 5 = true → s.pkg.power = .sleep →
        s.pkg.fired = 0 → s.pkg.reqWait = 0 → Runs step s (fun t => t.pkg.power = .run ∧ t.fget fPWR_STATUS_state = 0
          ∧ t.fget fPWR_WAKE_SRC_source = lowestSource (Nat.lor 16 (s.wakeMask also.toNat))
          ∧ t.fget fPWR_WAKE_SET_fired = Nat.lor 16 (s.wakeMask also.toNat) ∧ (t.eng 128).hold = false))
    ∧ (s.regOpen m aTMR_START true = true → bitN v.toNat 31 = true → Runs (.tmrStart m v) s (fun t =>
        t = { s with timers := { s.timers with armed := maskList v.toNat } }))
    ∧ (s.regOpen m aTMR_START true = true → bitN v.toNat 31 = false → Runs (.tmrStart m v) s (fun t =>
        (∀ j, j < 16 → t.timerOn j = (s.timerOn j || (bitN v.toNat j && s.timerFree j)))
        ∧ t.timers.armed = [] ∧ t = { s with regs := t.regs, timers := t.timers }))
    ∧ (s.regOpen m aTMR_STOP true = true → Runs (.tmrStop m v) s (fun t =>
        (∀ j, j < 16 → t.timer j =
          if bitN v.toNat j && s.timerOn j then { s.timer j with stopDue := true } else s.timer j)
        ∧ t.timers.armed = s.timers.armed ∧ t = { s with timers := t.timers }))
    ∧ (s.regOpen m (aTMR_CFG n) true = true → s.timerOn n = false → Runs (.timerClear m i v) s (fun t =>
        (t.timer n).count = 0 ∧ (t.timer n).down = false ∧ others t
        ∧ t.fget (fTMR_CFG_pre n) = v.toNat / 2 ^ 20 % 16 ∧ t.fget (fTMR_CFG_notify n) = v.toNat % 16
        ∧ t.timerOn n = (bitN v.toNat 31 && s.timerFree n)
        ∧ t = { s with regs := t.regs, timers := t.timers } ∧ ∀ a, a ≠ aTMR_CFG n → t.reg a = s.reg a))
    ∧ (s.regOpen m (aTMR_CFG n) true = true → s.timerOn n = true → Runs (.timerClear m i v) s (fun t =>
        (t.timer n).count = x.count ∧ t.fget (fTMR_CFG_pre n) = s.fget (fTMR_CFG_pre n)
        ∧ t.fget (fTMR_CFG_notify n) = v.toNat % 16 ∧ t.timerOn n = bitN v.toNat 31 ∧ others t
        ∧ t = { s with regs := t.regs, timers := t.timers } ∧ ∀ a, a ≠ aTMR_CFG n → t.reg a = s.reg a))
    ∧ (s.regOpen m (aTMR_RELOAD_HI n) true = true → Runs (.reloadCommit m i v) s (fun t =>
        (w x.reloadLo = 0 → t = s)
        ∧ (w x.reloadLo ≠ 0 → s.timerOn n = true → put t { x with reloadNext := some (w x.reloadLo) })
        ∧ (w x.reloadLo ≠ 0 → s.timerOn n = false → put t { x with reload := w x.reloadLo, reloadNext := none })))
    ∧ (s.regOpen m (aTMR_CMP_HI n) true = true → Runs (.compareCommit m i v) s (fun t =>
        (s.timerOn n = false → put t { x with cmp := c, cmpNext := none })
        ∧ (s.timerOn n = true → s.fon (fTMR_CFG_cmp_sync n) = true → put t { x with cmpNext := some c })
        ∧ (s.timerOn n = true → s.fon (fTMR_CFG_cmp_sync n) = false → t.timer n = { x with cmp := c, cmpNext := none }
          ∧ t.fon (fTMR_STATUS_behind n) = (s.fon (fTMR_STATUS_behind n)
            || (if x.down then decide (x.count ≤ c) else decide (c ≤ x.count)))
          ∧ t = { s with regs := t.regs, timers := { s.timers with tab := t.timers.tab } })))

/-- R395–R400, Table 17-1. -/
def Obligations.EthernetPorts : Prop :=
  ∀ (s : State) (m : Master) (p : Bool) (v : Word) (speed : BitVec 2) (b : List Byte) (data : BitVec 16) (x : EthOut)
    (rest : List EthOut) (K size : Nat),
    let n := b2n p
    let link : Prop := s.fon (fETH_STATUS_link n) = true
    let down : Prop := s.fon (fETH_STATUS_link n) = false
    let mode := v.toNat / 2 ^ 30
    let cfg (t : State) : Prop := t.fget (fETH_CFG_vid n) = v.toNat % 2 ^ 12
      ∧ t.fon (fETH_CFG_an_en n) = bitN v.toNat 29 ∧ t.fon (fETH_CFG_vlan_en n) = bitN v.toNat 28
      ∧ t.fon (fETH_CFG_accept_other n) = bitN v.toNat 27
    let hw := s.fget (fETH_CFG_mode n)
    let f := ethIn b
    let ptp : Prop := f.type = 0x88F7 ∧ (f.dst = 0x011B19000000 ∨ f.dst = 0x0180C200000E)
    let tagOk : Prop := if s.fon (fETH_CFG_vlan_en n) then f.tagged = true ∧ f.vid = s.fget (fETH_CFG_vid n)
      else f.tagged = false
    let mine : Prop := (f.dst = s.ethMac n ∨ f.dst = 0xFFFFFFFFFFFF ∨ ptp) ∧ tagOk
    let free : Prop := link ∧ s.ethFree = true
    let good : Prop := free ∧ 60 ≤ b.length ∧ b.length ≤ 1518
    let plain : Prop := f.type ≠ 0x8808 ∧ f.type ≠ s.fget (fETH_TYPE_ix_type n)
      ∧ f.type ≠ s.fget (fETH_TYPE_mg_type n) ∧ f.type ≠ 0x88F7
    let wr := s.fget (fETH_RING_w2_wr n)
    let len := 16 + (b.length + 7) / 8 * 8
    let room : Prop := s.rxRing n = some (K, size) ∧ countDiff wr (s.fget (fETH_RING_w3_rd n)) + len ≤ size
      ∧ wr % size + len ≤ size ∧ s.Clean (K + wr % size) len
      ∧ nodeOwned (K + wr % size) len = false
    let one (t : State) (f : Fld) : Prop := s.Counted t f ∧ s.OnlyRegs t (fun a => a = f.addr)
    let sent (t : State) (q : EthPort) (y : List Byte) : Prop := t.port n = { q with sent := y ++ leBytes 4 (crc32 y) }
      ∧ (∀ j, j ≠ n → t.port j = s.port j) ∧ s.Counted t (fETH_COUNT_tx_ok n)
      ∧ t = { s with regs := t.regs, wired := { s.wired with ports := t.wired.ports } }
    let empty : Prop := s.fget (fETH_RING_w6_wr n) = s.fget (fETH_RING_w7_rd n)
    let rd := s.fget (fETH_RING_w7_rd n)
    let at' := K + rd % size
    let w := leNat (s.bytes at' 4)
    let fl := w % 2 ^ 11
    let queued : Prop := ¬empty ∧ s.txRing n = some (K, size) ∧ 0 < fl ∧ fl ≤ 1518 ∧ rd % size + 16 + fl ≤ size ∧ s.Clean at' (16 + fl)
    let raw := s.bytes (at' + 16) fl
    let stamp : TxStamp := { tag := w / 2 ^ 16, sec := (s.ptpTime n).1, ns := (s.ptpTime n).2 }
    let stamps := (s.port n).stamps
    let stamped : List TxStamp := if bitN w 11 then (if stamps.length < 16 then stamps else stamps.drop 1) ++ [stamp]
      else stamps
    let mgmt : Prop := good ∧ mine ∧ f.type = s.fget (fETH_TYPE_mg_type n) ∧ f.type ≠ 0x8808
      ∧ f.type ≠ s.fget (fETH_TYPE_ix_type n)
    let mgOn : Prop := s.fon fETH_MGMT_CFG_en = true ∧ bitN (s.fget fETH_MGMT_CFG_ports) n = true
    let pl := f.payload
    let ivHead := leNat ((pl.drop 8).take 4)
    let pn := leNat ((pl.drop 6).take 2)
    let wellFormed : Prop := 36 + pn ≤ pl.length ∧ pn ≤ 512 ∧ bitN (leNat ((pl.drop 4).take 1)) 7 = false
      ∧ ¬(0xFFFE0000 ≤ ivHead ∧ ivHead ≤ 0xFFFE0FFF)
    let gates : List (Nat × Instr) := [(aETH_CFG n, .ethModeWrite m p v), (aETH_MDIO, .mdioRead m v),
      (aETH_MDIO, .mdioWrite m v), (aETH_PTP_w4 n, .ptpStep m p v), (aETH_PTP_w0 n, .ptpTimeRead m p),
      (aETH_TXTS_w2 n, .txtsPop m p)]
    let mdio (i : Instr) (z : Word) : Prop := s.regOpen m aETH_MDIO true = true →
      (s.fon fETH_MDIO_go = false → Runs i s (fun t => t.reg aETH_MDIO = z &&& 0xFFF0FFFF#32
        ∧ s.OnlyRegs t (fun a => a = aETH_MDIO)))
      ∧ (s.fon fETH_MDIO_go = true → Runs i s (fun t => t = s))
    (∀ c ∈ gates, s.regReach m c.1 = false → Runs c.2 s (fun t => t = s))
    ∧ (link ∨ hw = 0 ∨ (s.port n).held = true ∨ (hw ≠ 1 ∧ speed = 3#2) → Runs (.ethLinkUp p speed) s (fun t => t = s))
    ∧ (down → Runs (.ethLinkDown p) s (fun t => t = s))
    ∧ (s.fon fETH_MDIO_go = false → Runs (.mdioDone data) s (fun t => t = s))
    ∧ (s.ethFree = false → Runs (.ethFrameRx p true b) s (fun t => t = s) ∧ Runs (.ethFrameRx p false b) s (fun t => t = s)
        ∧ Runs (.ethFrameTx p) s (fun t => t = s))
    ∧ (mgmt → ¬mgOn → Runs (.ethFrameRx p true b) s (fun t => t = s))
    ∧ (mgmt → mgOn → ¬wellFormed → Runs (.ethFrameRx p true b) s (fun t => s.Counted t (fETH_COUNT_rx_ok n)
        ∧ t = { s with regs := t.regs, wired := { s.wired with badReqs := s.wired.badReqs + 1 } }))
    ∧ (mgmt → mgOn → wellFormed → s.queueAdmits none = false → Runs (.ethFrameRx p true b) s (fun t =>
        s.Counted t (fETH_COUNT_rx_ok n) ∧ s.Counted t fETH_MGMT_COUNT_busy ∧ t = { s with regs := t.regs }))
    ∧ (mgmt → mgOn → wellFormed → s.queueAdmits none = true → Runs (.ethFrameRx p true b) s (fun t =>
        s.Counted t (fETH_COUNT_rx_ok n) ∧ (∃ j : Job, t.cipher = { s.cipher with queue := s.cipher.queue ++ [j] }
          ∧ j.who = .unit (.request n f.src pl) ∧ j.op = 7 ∧ j.key = s.mgmtKey ∧ j.prio = 7 ∧ j.tenant = none
          ∧ j.inl = ((pl.drop 8).take 12, pl.take 8, (pl.drop 20).take (pn + 16)))
        ∧ t = { s with regs := t.regs, cipher := t.cipher }))
    ∧ (s.regOpen m (aETH_CFG n) true = true → mode ≠ 3 → Runs (.ethModeWrite m p v) s (fun t => cfg t
        ∧ t.fget (fETH_CFG_mode n) = mode ∧ t.fon (fETH_STATUS_link n) = false
        ∧ (link → s.Saturated t (fETH_STATUS_changes n))
        ∧ s.OnlyRegs t (fun a => a = aETH_CFG n ∨ a = aETH_STATUS n)))
    ∧ (s.regOpen m (aETH_CFG n) true = true → mode = 3 → Runs (.ethModeWrite m p v) s (fun t => cfg t
        ∧ t.fget (fETH_CFG_mode n) = hw ∧ s.OnlyRegs t (fun a => a = aETH_CFG n)))
    ∧ (down → hw ≠ 0 → (s.port n).held = false → hw = 1 ∨ speed ≠ 3#2 → Runs (.ethLinkUp p speed) s (fun t =>
        t.fon (fETH_STATUS_link n) = true ∧ t.fget (fETH_STATUS_speed n) = (if hw = 1 then 2 else speed.toNat)
        ∧ s.Saturated t (fETH_STATUS_changes n) ∧ s.OnlyRegs t (fun a => a = aETH_STATUS n)))
    ∧ (link → Runs (.ethLinkDown p) s (fun t => t.fon (fETH_STATUS_link n) = false
        ∧ s.Saturated t (fETH_STATUS_changes n) ∧ s.OnlyRegs t (fun a => a = aETH_STATUS n)))
    ∧ (free → b.length < 60 ∨ 1518 < b.length → Runs (.ethFrameRx p true b) s (fun t => one t (fETH_COUNT_rx_err n)))
    ∧ (free → Runs (.ethFrameRx p false b) s (fun t => one t (fETH_COUNT_rx_err n)))
    ∧ (down → Runs (.ethFrameRx p true b) s (fun t => t = s) ∧ Runs (.ethFrameRx p false b) s (fun t => t = s) ∧ Runs (.ethFrameTx p) s (fun t => t = s))
    ∧ (good → ¬mine → Runs (.ethFrameRx p true b) s (fun t => one t (fETH_COUNT_drop_addr n)))
    ∧ (good → mine → f.type = 0x8808 → Runs (.ethFrameRx p true b) s (fun t => one t (fETH_COUNT_pause n)))
    ∧ (good → mine → plain → s.fon (fETH_CFG_accept_other n) = false → Runs (.ethFrameRx p true b) s (fun t =>
        one t (fETH_COUNT_drop_type n)))
    ∧ (good → mine → plain → s.fon (fETH_CFG_accept_other n) = true → room → Runs (.ethFrameRx p true b) s (fun t =>
        t.bytes (K + wr % size) len = leBytes 4 b.length ++ takePad 12 [] ++ takePad (len - 16) b
        ∧ s.OnlyBytes t (K + wr % size) len ∧ t.fget (fETH_RING_w2_wr n) = (wr + len) % 2 ^ 24
        ∧ s.Counted t (fETH_COUNT_rx_ok n) ∧ t = { s with regs := t.regs, mem := t.mem, upkeep := t.upkeep }))
    ∧ (free → queued → Runs (.ethFrameTx p) s (fun t =>
        sent t { s.port n with stamps := stamped } (if bitN w 12 then s.oneStep n raw else raw)
        ∧ (bitN w 11 = true → 16 ≤ stamps.length → s.Counted t (fETH_COUNT_txts_lost n))
        ∧ t.fget (fETH_RING_w7_rd n) = (rd + 16 + (fl + 7) / 8 * 8) % 2 ^ 24))
    ∧ (free → empty → (s.port n).mgmt = [] → (s.port n).fwd = [] → Runs (.ethFrameTx p) s (fun t => t = s))
    ∧ (free → empty → (s.port n).mgmt = x :: rest → Runs (.ethFrameTx p) s (fun t =>
        sent t { s.port n with mgmt := rest } (s.ethBuild n x)))
    ∧ (free → empty → (s.port n).mgmt = [] → (s.port n).fwd = x :: rest → Runs (.ethFrameTx p) s (fun t =>
        sent t { s.port n with fwd := rest } (s.ethBuild n x)))
    ∧ mdio (.mdioRead m v) (v ||| 0xC0000000#32) ∧ mdio (.mdioWrite m v) ((v ||| 0x80000000#32) &&& 0xBFFFFFFF#32)
    ∧ (s.fon fETH_MDIO_go = true → Runs (.mdioDone data) s (fun t => t.fon fETH_MDIO_go = false
        ∧ t.fget fETH_MDIO_data = (if s.fon fETH_MDIO_read then data.toNat else s.fget fETH_MDIO_data)
        ∧ s.OnlyRegs t (fun a => a = aETH_MDIO)))
    ∧ (s.regOpen m (aETH_PTP_w4 n) true = true → Runs (.ptpStep m p v) s (fun t =>
        t.ptpNow n = (((s.ptpNow n : Int) + signedN 32 v.toNat * ptpUnit) % ptpWrap).toNat
        ∧ (∀ j, j ≠ n → t.port j = s.port j) ∧ t = { s with wired := { s.wired with ports := t.wired.ports } }))
    ∧ (s.regOpen m (aETH_PTP_w0 n) false = true → Runs (.ptpTimeRead m p) s (fun t =>
        t.fget (fETH_PTP_sec_lo n) = (s.ptpTime n).1 % 2 ^ 32
        ∧ t.fget (fETH_PTP_sec_hi n) = (s.ptpTime n).1 / 2 ^ 32 % 2 ^ 16
        ∧ t.fget (fETH_PTP_ns n) = (s.ptpTime n).2 % 2 ^ 30
        ∧ s.OnlyRegs t (fun a => a = aETH_PTP_w0 n ∨ a = aETH_PTP_w1 n ∨ a = aETH_PTP_w2 n)))
    ∧ (s.regOpen m (aETH_TXTS_w2 n) false = true → Runs (.txtsPop m p) s (fun t =>
        t.port n = { s.port n with stamps := (s.port n).stamps.drop 1 } ∧ (∀ j, j ≠ n → t.port j = s.port j)
        ∧ t = { s with wired := { s.wired with ports := t.wired.ports } }))

/-- R403, R413–R415, Tables 17-4 and 17-5. -/
def Obligations.WiredUnits : Prop :=
  ∀ (s : State) (m : Master) (v : Word) (k z : Nat) (more : List Nat) (sl : BitVec 7) (e : MgmtId) (g : BitVec 5)
    (u : Bool) (c : Byte) (err ack last : Bool) (rx : List (Byte × Bool)) (U' : BitVec 3) (r : Running)
    (head f : List Byte) (p mac : Nat),
    let opened (a : Nat) : Prop := s.regOpen m a true = true
    let slot := v.toNat % 2 ^ 7
    let n := v.toNat / 2 ^ 14 % 2 ^ 10
    let st := v.toNat / 2 ^ 24
    let a := s.mgmtSlot slot
    let hd := s.bytes a 4 ++ [byteN (leNat (s.bytes (a + 4) 1) % 128 + 128) 0, byteN st 0] ++ leBytes 2 n
    let iv := leBytes 4 (0xFFFE0000 + s.device) ++ leBytes 8 s.wired.respCtr
    let job : Job := { who := .unit (.answer slot (hd ++ iv)), tenant := none, op := 6, last := true, tlen := 8
                       key := s.mgmtKey, prio := 7, aadLen := 8, dataLen := n, inl := (iv, hd, s.bytes (a + 20) n) }
    let answers (j : Job) (i : Nat) : Prop := ∃ h, j.who = .unit (.answer i h)
    let idle (i : Nat) : Prop := (∀ j ∈ s.cipher.queue, ¬answers j i) ∧ (∀ j ∈ s.cipher.waiting, ¬answers j i)
      ∧ ∀ j ∈ s.cipher.running, ¬answers j.job i
    let asks : Prop := s.mgmtInSlot slot = some e ∧ e.st = .pending ∧ idle slot ∧ st < 0x80 ∧ n ≤ 512
    let ends (j : UnitJob) (op : Nat) : Prop :=
      s.cipher.running.find? (fun x => x.unit == U'.toNat && decide (x.job.op < 16)) = some r
      ∧ (∀ j ∈ s.cipher.queue, j.op < 16) ∧ r.job.who = .unit j ∧ r.job.op = op ∧ r.writes = [] ∧ r.erased = false
    let q := head ++ r.result
    let base := s.mgmtSlot k
    let plain := f.take 20 ++ r.result
    let marks (j : Nat) (x : MgmtSt) (w : WiredSt) : WiredSt := { w with
      queue := w.queue.filter (fun y => y != j)
      ids := w.ids.map (fun y => if y.slot = j && y.st == .pending then { y with st := x } else y) }
    let G := g.toNat
    let old := s.fget (fPINMUX_SEL_func G)
    let new := v.toNat % 8
    let U := b2n u
    let uart (t : State) (y : Uart) : Prop := t.uart U = y ∧ (∀ j, j ≠ U → t.uart j = s.uart j)
      ∧ t = { s with wired := { s.wired with uarts := t.wired.uarts } }
    let i2c (op : Nat) (i : Instr) : Prop := opened aI2C_CMD →
      (s.fon fI2C_CMD_busy = false → Runs i s (fun t => t.fon fI2C_CMD_busy = true
        ∧ t.wired = { s.wired with i2c := some (op, v.toNat % 256, bitN v.toNat 27) }
        ∧ t = { s with regs := t.regs, wired := t.wired } ∧ ∀ y, y ≠ aI2C_CMD → t.reg y = s.reg y))
      ∧ (s.fon fI2C_CMD_busy = true → Runs i s (fun t => t = s))
    let beyond (t : State) : Prop := t.fon fI2C_CMD_busy = false ∧ t.wired = { s.wired with i2c := none }
      ∧ t = { s with regs := t.regs, wired := t.wired } ∧ ∀ y, y ≠ aI2C_CMD → t.reg y = s.reg y
    let wire := (s.inputBall 5).isSome && (s.inputBall 6).isSome
    let gates : List (Nat × Instr) := [(aETH_MGMT_PEND, .mgmtPendRead m), (aETH_MGMT_DONE, .mgmtDone m v),
      (aPINMUX_SEL G, .pinmuxSelWrite m g v), (aUART_DATA U, .uartTxWrite m u v), (aUART_DATA U, .uartRxPop m u),
      (aSPI_DATA, .spiExchange m v), (aI2C_CMD, .i2cStart m v), (aI2C_CMD, .i2cWrite m v), (aI2C_CMD, .i2cRead m v),
      (aI2C_CMD, .i2cStop m v)]
    let heard : Prop := s.fon (fUART_CFG_en U) = true ∧ (s.inputBall (2 * U)).isSome = true
    (∀ c ∈ gates, s.regReach m c.1 = false → Runs c.2 s (fun t => t = s))
    ∧ (¬heard → Runs (.uartRxByte u c err) s (fun t => t = s))
    ∧ (s.fon (fUART_CFG_en U) = false → Runs (.uartTxByteSent u) s (fun t => t = s))
    ∧ (opened aSPI_DATA → s.fon fSPI_CFG_en = false ∨ s.fon fSPI_DATA_busy = true → Runs (.spiExchange m v) s
        (fun t => t = s))
    ∧ (s.fon fSPI_DATA_busy = false → Runs (.spiExchangeDone c) s (fun t => t = s))
    ∧ (s.wired.i2c = none → Runs (.i2cOpDone c ack) s (fun t => t = s))
    ∧ (s.regOpen m aETH_MGMT_PEND false = true → s.wired.queue = [] → Runs (.mgmtPendRead m) s (fun t => t = s)
        ∧ s.mgmtPend.1 = 0#32)
    ∧ (s.regOpen m aETH_MGMT_PEND false = true → s.wired.queue = k :: more → Runs (.mgmtPendRead m) s (fun t =>
        t = { s with wired := { s.wired with queue := more } }) ∧ s.mgmtPend.1 = BitVec.ofNat 32 (2 ^ 31 + k))
    ∧ (opened aETH_MGMT_DONE → s.ethFree = true → asks → s.Clean a (20 + n) → Runs (.mgmtDone m v) s (fun t =>
        t.cipher = (if s.queueAdmits none then { s.cipher with queue := s.cipher.queue ++ [job] }
          else { s.cipher with waiting := s.cipher.waiting ++ [job] })
        ∧ t = { s with cipher := t.cipher, wired := { s.wired with respCtr := s.wired.respCtr + 1 } }))
    ∧ (opened aETH_MGMT_DONE → s.ethFree = false ∨ s.mgmtInSlot slot = none
        ∨ (s.mgmtInSlot slot = some e ∧ e.st ≠ .pending) ∨ ¬idle slot ∨ 0x80 ≤ st ∨ 512 < n →
        Runs (.mgmtDone m v) s (fun t => t = s))
    ∧ (ends (.answer k head) 6 → s.ethFree = true → r.status = 0 → s.mgmtInSlot k = some e → s.Clean base q.length →
        nodeOwned base q.length = false → Runs (.cipherJobComplete U') s (fun t => t.bytes base q.length = q
          ∧ s.OnlyBytes t base q.length
          ∧ (t.port e.port).mgmt = (s.port e.port).mgmt
              ++ [{ dst := e.mac, type := s.fget (fETH_TYPE_mg_type e.port), prio := 0, payload := q }]
          ∧ t.wired = marks k .done { s.wired with ports := t.wired.ports }
          ∧ t.cipher.running = s.cipher.running.filter (fun x => !(x.unit == r.unit))
          ∧ t = { s with regs := t.regs, mem := t.mem, upkeep := t.upkeep, cipher := t.cipher, wired := t.wired }))
    ∧ (ends (.answer k head) 6 → s.ethFree = true → r.status ≠ 0 → Runs (.cipherJobComplete U') s (fun t =>
        t = { s with regs := t.regs, cipher := t.cipher }))
    ∧ (ends (.request p mac f) 7 → s.ethFree = true → r.status ≠ 0 → Runs (.cipherJobComplete U') s (fun t =>
        s.Counted t fETH_MGMT_COUNT_auth_fail ∧ t = { s with regs := t.regs, cipher := t.cipher }))
    ∧ (ends (.request p mac f) 7 → s.ethFree = true → r.status = 0 →
        (∀ y ∈ s.wired.ids, y.req ≠ leNat (f.take 4) ∨ mgmtAge ≤ s.mono - y.since) →
        s.mgmtInFlight ≠ 16 → s.wired.ids.length < 4096 → s.mgmtFreeSlot = some k → s.mgmtInSlot k = none →
        s.Clean base plain.length → nodeOwned base plain.length = false → plain ≠ [] →
        Runs (.cipherJobComplete U') s (fun t => t.bytes base plain.length = plain ∧ s.OnlyBytes t base plain.length
          ∧ s.Counted t fETH_MGMT_COUNT_accepted
          ∧ t.wired = { s.wired with
              queue := s.wired.queue ++ [k]
              ids := s.wired.ids ++ [{ req := leNat (f.take 4), st := .pending, since := s.mono, slot := k
                                       port := p, mac := mac }] }))
    ∧ (idle sl.toNat → Runs (.mgmtSlotExpiry sl) s (fun t => t = { s with wired := marks sl.toNat .expired s.wired }))
    ∧ (¬idle sl.toNat → Runs (.mgmtSlotExpiry sl) s (fun t => t = s))
    ∧ (opened (aPINMUX_SEL G) → s.pinRefusal G old new = some z → z < 8 → Runs (.pinmuxSelWrite m g v) s (fun t =>
        t.fon fPINMUX_STATUS_refused = true ∧ t.fget fPINMUX_STATUS_ball = G ∧ t.fget fPINMUX_STATUS_cause = z
        ∧ s.OnlyRegs t (fun y => y = aPINMUX_STATUS)))
    ∧ (opened (aPINMUX_SEL G) → s.pinRefusal G old new = none → Runs (.pinmuxSelWrite m g v) s (fun t =>
        t.fget (fPINMUX_SEL_func G) = new ∧ t.fget (fPINMUX_SEL_pull G) = v.toNat / 2 ^ 6 % 4
        ∧ t.fget (fPINMUX_SEL_drive G) = v.toNat / 2 ^ 4 % 4 ∧ t.fon fPINMUX_STATUS_conflict = (s.fon fPINMUX_STATUS_conflict || s.pinClash G new)
        ∧ (∀ y, y ≠ aPINMUX_SEL G → y ≠ aPINMUX_STATUS → t.reg y = s.reg y)
        ∧ (s.pinClash G new = false → t.reg aPINMUX_STATUS = s.reg aPINMUX_STATUS)
        ∧ t = { s with regs := t.regs, wired := { s.wired with parked := if old ≠ new ∧ s.wired.parked.contains G = false
                         then s.wired.parked ++ [G] else s.wired.parked } }))
    ∧ Runs (.parkEnd g) s (fun t =>
        t = { s with wired := { s.wired with parked := s.wired.parked.filter (fun y => y != G) } })
    ∧ (opened (aUART_DATA U) → Runs (.uartTxWrite m u v) s (fun t => uart t { s.uart U with
        tx := if (s.uart U).tx.length < 64 then (s.uart U).tx ++ [byteN v.toNat 0] else (s.uart U).tx }))
    ∧ (s.regOpen m (aUART_DATA U) false = true → (s.uart U).rx = (c, err) :: rx → Runs (.uartRxPop m u) s (fun t =>
        uart t { s.uart U with rx := rx }) ∧ (s.uartPop U).1 = BitVec.ofNat 32 (2 ^ 31 + b2n err * 2 ^ 8 + c.toNat))
    ∧ (s.regOpen m (aUART_DATA U) false = true → (s.uart U).rx = [] → Runs (.uartRxPop m u) s (fun t => t = s)
        ∧ (s.uartPop U).1 = 0#32)
    ∧ (heard → (s.uart U).rx.length < 64 →
        Runs (.uartRxByte u c err) s (fun t => uart t { s.uart U with rx := (s.uart U).rx ++ [(c, err)] }))
    ∧ (heard → 64 ≤ (s.uart U).rx.length →
        Runs (.uartRxByte u c err) s (fun t => s.Saturated t (fUART_STATUS_overrun U)
          ∧ s.OnlyRegs t (fun y => y = aUART_STATUS U)))
    ∧ (s.fon (fUART_CFG_en U) = true → Runs (.uartTxByteSent u) s (fun t =>
        uart t { s.uart U with tx := (s.uart U).tx.drop 1 }))
    ∧ (opened aSPI_DATA → s.fon fSPI_CFG_en = true → s.fon fSPI_DATA_busy = false → Runs (.spiExchange m v) s (fun t =>
        t.fon fSPI_DATA_busy = true ∧ t.fget fSPI_DATA_byte = v.toNat % 2 ^ 8 ∧ s.OnlyRegs t (fun y => y = aSPI_DATA)))
    ∧ (s.fon fSPI_DATA_busy = true → Runs (.spiExchangeDone c) s (fun t => t.fon fSPI_DATA_busy = false
        ∧ t.fget fSPI_DATA_byte = (if (s.inputBall 4).isSome then c.toNat else 0) ∧ s.OnlyRegs t (fun y => y = aSPI_DATA)))
    ∧ i2c 0 (.i2cStart m v) ∧ i2c 1 (.i2cWrite m v) ∧ i2c 2 (.i2cRead m v) ∧ i2c 3 (.i2cStop m v)
    ∧ (s.wired.i2c = some (2, k, last) → Runs (.i2cOpDone c ack) s (fun t => beyond t
        ∧ t.fget fI2C_CMD_byte = (if wire then c.toNat else 0xFF) ∧ t.fon fI2C_CMD_nack = last))
    ∧ (s.wired.i2c = some (3, k, last) → Runs (.i2cOpDone c ack) s (fun t => beyond t
        ∧ t.fon fI2C_CMD_nack = s.fon fI2C_CMD_nack))
    ∧ (∀ z, z < 2 → s.wired.i2c = some (z, k, last) → Runs (.i2cOpDone c ack) s (fun t => beyond t
        ∧ t.fon fI2C_CMD_nack = !(ack && wire)))

/-- R30, R50, R51, R73–R75, R270, R410, R448, R450, R451, R461. The level of the boot-select balls at the start after an
internal reset is log entry 52. -/
def Obligations.PackageResets : Prop :=
  ∀ (s : State) (m : Master) (v : Word) (b : BitVec 2) (io : BitVec 5) (c0 c1 r : Byte) (c : Nat),
    let up : Prop := s.pkg.supplies = true ∧ s.pkg.resetLow = false ∧ s.pkg.hot = false
    let ready : Prop := s.pkg.resetLow = false ∧ s.pkg.hot = false ∧ s.pkg.stage = .hold
    let noted (t : State) (cause : Nat) : Prop := t.fget fSYS_RESET_REASON_cause = cause
      ∧ t.fget fSYS_RESET_REASON_history = Nat.lor (s.fget fSYS_RESET_REASON_history) (2 ^ cause)
      ∧ s.Saturated t fSYS_RESET_REASON_count
    let kept (t : State) : Prop := ∀ k, keptKey false k = true → t.byte k = s.byte k
    let lost (t : State) : Prop := s.Cut t false aSYS_RESET_REASON ∧ kept t
      ∧ ∀ x ∈ [Ball.paEn false, .paMode false, .trsw false, .lnaEn false, .lnaByp false, .cinchOut, .xspiResetN],
        t.ball x = some false
    let start (t : State) (cause : Nat) : Prop := lost t ∧ noted t cause ∧ t.pkg.stage = .reference
      ∧ t.pkg.causes = 0 ∧ t.pkg.power = .run
      ∧ t.pkg.bootSel < 4
    let held (t : State) (cause : Nat) : Prop := lost t ∧ t.pkg.stage = .hold ∧ t.pkg.causes = Nat.lor s.pkg.causes (2 ^ cause)
      ∧ t.reg aSYS_RESET_REASON = s.reg aSYS_RESET_REASON
    let still : Prop := s.Uncut ∧ s.pkg.causes = 0
    let F := if s.pkg.fired = 0 then 32 else s.pkg.fired
    let sampled (p : PkgSt) : PkgSt := { p with supplies := true, bootSel := b.toNat, ioHigh := io.toNat, power := .run }
    let begins (p : PkgSt) : PkgSt := { p with causes := 0, stage := .reference, ioHeld := [] }
    let hot (x : Byte) : Prop := 120 ≤ signedN 8 x.toNat
    let any : Prop := hot c0 ∨ hot r ∨ (s.die1Up = true ∧ hot c1)
    let all : Prop := signedN 8 c0.toNat ≤ 105 ∧ signedN 8 r.toNat ≤ 105 ∧ (s.die1Up = true → signedN 8 c1.toNat ≤ 105)
    let at' (x : Byte) : Prop := (s.fget fSYS_THERMAL_CFG_warn_c : Int) ≤ signedN 8 x.toNat
    let warm : Prop := at' c0 ∨ at' r ∨ (s.die1Up = true ∧ at' c1)
    (s.pkg.supplies = true → Runs (.suppliesInRange b io) s (fun t => t = s) ∧ Runs .vbatLoss s (fun t => t = s))
    ∧ (s.pkg.supplies = false → Runs .railFall s (fun t => t = s))
    ∧ (s.pkg.supplies = false ∨ s.pkg.power = .armed → Runs .brownout s (fun t => t = s))
    ∧ (s.pkg.resetLow = true → Runs .resetNAssert s (fun t => t = s))
    ∧ (s.pkg.resetLow = false → Runs (.resetNRelease b) s (fun t => t = s))
    ∧ (s.outOfReset = false → Runs .jtagReset s (fun t => t = s)
        ∧ (s.pkg.hot = false → Runs (.sensorUpdate c0 c1 r) s (fun t => t = s)))
    ∧ (s.regReach m aSYS_RESET_CTRL = false → Runs (.softReset m v) s (fun t => t = s))
    ∧ ((s.clu 16).halterOn = false → Runs .supHalterExpiry s (fun t => t = s))
    ∧ (s.pkg.supplies = false → s.pkg.power ≠ .off → ready → c < 8 → s.pkg.causes = 2 ^ c → Runs (.suppliesInRange b io) s
        (fun t => noted t c ∧ t = { s with regs := t.regs, pkg := begins (sampled s.pkg) }))
    ∧ (s.pkg.supplies = false → s.pkg.power = .off → ready → s.pkg.causes = 0 → Runs (.suppliesInRange b io) s (fun t =>
        noted t 7 ∧ t.fget fPWR_WAKE_SRC_source = lowestSource F ∧ t.fget fPWR_WAKE_SET_fired = F % 2 ^ 6
          ∧ t = { s with regs := t.regs, pkg := begins { sampled s.pkg with fired := 0 } }))
    ∧ (s.pkg.supplies = false → s.pkg.power ≠ .off → s.pkg.resetLow = true ∨ s.pkg.hot = true →
        Runs (.suppliesInRange b io) s (fun t => t = { s with pkg := sampled s.pkg }))
    ∧ (s.pkg.supplies = false → s.pkg.power = .off → s.pkg.resetLow = true ∨ s.pkg.hot = true →
        Runs (.suppliesInRange b io) s (fun t => t.fget fPWR_WAKE_SRC_source = lowestSource F
          ∧ t = { s with regs := t.regs
                         pkg := { sampled s.pkg with fired := 0, causes := Nat.lor s.pkg.causes 128 } }))
    ∧ (s.pkg.supplies = true → s.Uncut → Runs .railFall s (fun t => held t 0 ∧ t.pkg.supplies = false
        ∧ t.pkg.power = if s.pkg.power = .armed then .armed else .run))
    ∧ (s.pkg.supplies = true → s.Uncut → s.pkg.power ≠ .armed → Runs .brownout s (fun t =>
        held t (if s.pkg.stage = .hold then 0 else 1) ∧ t.pkg.supplies = false))
    ∧ (s.pkg.supplies = false → s.Uncut → Runs .vbatLoss s (fun t => kept t ∧ t.rtc = {} ∧ t.faults = []
        ∧ (∀ a, a ≠ aTABLE_BB_CTR → t.reg a = regReset a) ∧ t.pkg.causes = 1
        ∧ t.pkg.supplies = false))
    ∧ (s.pkg.resetLow = true → s.pkg.supplies = false ∨ s.pkg.hot = true → Runs (.resetNRelease b) s (fun t =>
        t = { s with pkg := { s.pkg with resetLow := false, bootSel := b.toNat } }))
    ∧ (s.pkg.supplies = true → s.pkg.resetLow = false → s.Uncut → Runs .resetNAssert s (fun t =>
        held t 3 ∧ t.pkg.resetLow = true))
    ∧ (s.pkg.supplies = false → s.pkg.resetLow = false → Runs .resetNAssert s (fun t =>
        t = { s with pkg := { s.pkg with resetLow := true } }))
    ∧ (s.pkg.resetLow = true → s.pkg.supplies = true → s.pkg.hot = false → s.pkg.stage = .hold → s.pkg.power = .run →
        c < 8 → s.pkg.causes = 2 ^ c → Runs (.resetNRelease b) s (fun t => noted t c ∧ t = { s with
          regs := t.regs, pkg := begins { s.pkg with resetLow := false, bootSel := b.toNat } }))
    ∧ (up → still → s.outOfReset = true → s.dbgFull = true → Runs .jtagReset s (fun t => start t 4))
    ∧ (s.dbgFull = false → Runs .jtagReset s (fun t => t = s))
    ∧ (s.regOpen m aSYS_RESET_CTRL true = true → up → still → v.toNat / 2 ^ 16 = 0x0A5C → bitN v.toNat 0 = true →
        Runs (.softReset m v) s (fun t => start t 6))
    ∧ (s.regOpen m aSYS_RESET_CTRL true = true → v.toNat / 2 ^ 16 ≠ 0x0A5C ∨ bitN v.toNat 0 = false →
        Runs (.softReset m v) s (fun t => t = s))
    ∧ (up → still → (s.clu 16).halterOn = true → s.haltLeft 16 = 0 → Runs .supHalterExpiry s (fun t => start t 5))
    ∧ (s.haltLeft 16 ≠ 0 → Runs .supHalterExpiry s (fun t => t = s))
    ∧ (s.pkg.hot = false → s.Uncut → s.outOfReset = true → any → Runs (.sensorUpdate c0 c1 r) s (fun t => held t 2 ∧ t.pkg.hot = true))
    ∧ (s.pkg.hot = true → ¬all → Runs (.sensorUpdate c0 c1 r) s (fun t => t = s))
    ∧ (s.pkg.hot = true → all → s.pkg.supplies = true → s.pkg.resetLow = false → s.pkg.stage = .hold →
        s.pkg.power = .run → c < 8 → s.pkg.causes = 2 ^ c → Runs (.sensorUpdate c0 c1 r) s (fun t => noted t c
          ∧ t.pkg.bootSel < 4 ∧ t = { s with
            regs := t.regs, freeCount := t.freeCount
            pkg := begins { s.pkg with hot := false, bootSel := t.pkg.bootSel } }))
    ∧ (s.pkg.hot = true → all → s.pkg.supplies = false ∨ s.pkg.resetLow = true → Runs (.sensorUpdate c0 c1 r) s (fun t =>
        t = { s with pkg := { s.pkg with hot := false } }))
    ∧ (s.pkg.hot = false → s.outOfReset = true → ¬any → Runs (.sensorUpdate c0 c1 r) s (fun t =>
        s.OnlyRegs t (fun a => a = aSYS_THERMAL) ∧ t.fget fSYS_THERMAL_tj_c0 = c0.toNat
        ∧ t.fget fSYS_THERMAL_tj_r = r.toNat ∧ (s.die1Up = true → t.fget fSYS_THERMAL_tj_c1 = c1.toNat)
        ∧ (s.die1Up = false → t.fget fSYS_THERMAL_tj_c1 = if Config.hasDie1 s.variant then 0x80 else 0)
        ∧ (warm → t.fon fSYS_THERMAL_warn = true)
        ∧ (¬warm → t.fon fSYS_THERMAL_warn = s.fon fSYS_THERMAL_warn)))

/-- R51, R55, R56, R58, R60, R64, R65, R68, R71, R72, R189, R354. The layout of the record is log entry 61. -/
def Obligations.StartUp : Prop :=
  ∀ (s : State) (l : BitVec 3) (d0 d1 : Word) (cfg : ConfigSec) (tag : BitVec 64) (id : Word) (e : SecEntry)
    (pre post : List SecEntry),
    let n := l.toNat
    let up : Prop := ∀ j ∈ s.linksOf, s.linkState j = 2
    let keeps : Bool := s.pkg.slept == 3 && !(s.clu 16).released
    let fills (k : Nat) : Prop := (0x02000000 ≤ k ∧ k < if keeps then 0x04700000 else 0x04800000) ∨ (dKey 0 0 ≤ k ∧ k < dKey 128 0)
      ∨ (iKey 0 0 ≤ k ∧ k < iKey 128 0) ∨ (supKey 0 ≤ k ∧ k < supKey 0x100000)
    let filling : Prop := s.pkg.stage = .fill ∧ s.pkg.filled = false
    let rom : Prop := filling ∧ (s.clu 16).released = false ∧ up ∧ s.Clean bootRecord 8
    let filled (t : State) : Prop := ∀ k, fills k → t.byte k = 0#8
    let lost := s.num opRecord 8
    let b := s.fget fSYS_BOOT_CTRL_pref_bank
    let left := s.fget fSYS_BOOT_CTRL_trials_left
    let fits : Prop := 24 ≤ d0.toNat / 2 ^ 27 ∧ d0.toNat / 2 ^ 27 ≤ 28 ∧ d0.toNat / 2 ^ 8 % 2 ^ 8 ≤ 100
    let found : Prop := s.pkg.stage = .flash ∧ fits ∧ s.pkg.opBank = 0
    let devs (t : State) : Prop := t.reg aXSPI_DEV0 = d0 ∧ t.reg aXSPI_DEV1 = d1 ∧ t.fon fXSPI_STATUS_dev_ok = true
    let bank (t : State) (b : Nat) (x : Stage) : Prop := t.pkg.stage = x ∧ t.pkg.bank = b
    let record (t : State) : Prop := t.num bootRecord 8 = (t.reg aSYS_BOOT_CTRL).toNat
    let fail (t : State) (b : Nat) : Nat := t.fget (if b = 0 then fSYS_BOOT_STATUS_fail_a else fSYS_BOOT_STATUS_fail_b)
    let B := s.pkg.bank
    let K := bankKey B
    let first : Prop := B < 2 ∧ s.pkg.other = false ∧ s.fon fSYS_BOOT_CTRL_trial = false ∧ s.bankRefused (1 - B) = false
    let next (t : State) (code : Nat) (x : Stage) : Prop := bank t (1 - B) x ∧ t.pkg.other = true ∧ fail t B = code
      ∧ (x = .fill → t.pkg.filled = false ∧ t.pkg.afterFill = .header)
    let trial : Prop := B < 2 ∧ s.pkg.other = false ∧ s.fon fSYS_BOOT_CTRL_trial = true ∧ s.bankRefused (1 - B) = false
    let last : Prop := B < 2 ∧ s.pkg.other = true
    let wiping (t : State) (x : Stage) : Prop := t.pkg.stage = .fill ∧ t.pkg.filled = false ∧ t.pkg.afterFill = x
    let fails (i : Instr) (code : Nat) (wiped : Bool) : Prop :=
      (first → Runs i s (fun t => next t code (if wiped then .fill else .header)))
      ∧ (trial → Runs i s (fun t => next t code (if wiped then .fill else .header) ∧ record t
          ∧ t.fget fSYS_BOOT_CTRL_pref_bank = 1 - B ∧ t.fon fSYS_BOOT_CTRL_trial = false))
      ∧ (last → Runs i s (fun t => fail t B = code ∧ if wiped then wiping t .recovery
          else t.pkg.stage = .recovery ∧ t.fget fXSPI_CTRL_mode = 1))
    let goes (t : State) (x : Stage) : Prop := t = { s with pkg := { s.pkg with stage := x } }
    let head := s.headerCheck (s.header K)
    let H := s.pkg.img.header
    let loads : Prop := s.pkg.stage = .load ∧ s.manifestCheck H K = true ∧ s.sections H K = pre ++ e :: post
      ∧ ∀ x ∈ post, x.type ≠ e.type
    let body := s.bytes (K + e.off) e.len
    let loaded (p : State → Prop) : Prop := Runs (.sectionLoad false) s (fun t => t.pkg.stage = .sign ∧ p t
      ∧ t.pkg.img.header = H ∧ t.pkg.img.man = s.manBytes H K ∧ t.pkg.img.digest = s.imageDigest H K
      ∧ t.pkg.img.sig = s.imageSig H K)
    let img := s.pkg.img
    let es := manOfBytes H img.man
    let block := s.settingsNew
    let read := s.settingsRead.1
    let hand : Prop := s.pkg.stage = .hand ∧ s.Steady
    let handed (t : State) : Prop := t.pkg.stage = .run ∧ t.pkg.power = .run ∧ (t.eng 128).run = .running
      ∧ (t.eng 128).pc = 0#32 ∧ (t.clu 16).halter = 250000 ∧ t.cinch.started = true ∧ t.cipher.bootTag = tag.toNat
      ∧ t.reg aTABLE_MSG_ID = id ∧ t.fget fPWR_STATUS_state = 0
    let stages : List (Stage × Instr) := [(.reference, .referenceStable), (.flash, .flashDiscovery true d0 d1),
      (.flash, .flashDiscovery false d0 d1), (.header, .headerCheck), (.load, .sectionLoad true),
      (.load, .sectionLoad false), (.sign, .signatureCheck), (.settings, .settingsCheck), (.hand, .handover cfg tag id)]
    (∀ x ∈ stages, s.pkg.stage ≠ x.1 → Runs x.2 s (fun t => t = s))
    ∧ (s.hasLink n = false ∨ s.linkState n ≠ 1 → Runs (.latigoTrainDone l) s (fun t => t = s))
    ∧ (¬filling → s.pkg.die1 ≠ .rising false → Runs .sramFillDone s (fun t => t = s))
    ∧ (s.pkg.stage = .reference → Runs .referenceStable s (fun t => t.pkg.stage = .fill ∧ t.pkg.filled = false
        ∧ t.pkg.afterFill = (if s.pkg.bootSel = 1 then .recovery else .flash) ∧ (∀ j ∈ s.linksOf, t.linkState j = 1)
        ∧ s.OnlyRegs { t with pkg := s.pkg } (fun a => ∃ j, a = aLATIGO_STATUS j)))
    ∧ (s.hasLink n = true → s.linkState n = 1 → s.pkg.stage = .fill → s.pkg.filled = false → s.pkg.die1 = .up →
        Runs (.latigoTrainDone l) s (fun t => t.linkState n = 2 ∧ s.OnlyRegs t (fun a => a = aLATIGO_STATUS n)))
    ∧ (filling → (s.clu 16).released = false → ¬up → Runs .sramFillDone s (fun t => (∀ k, fills k → t.byte k = 0#8 ∧ t.flipAt k = 0#72)
        ∧ (∀ k, ¬fills k → t.byte k = s.byte k ∧ t.flipAt k = s.flipAt k)
        ∧ t = { s with mem := t.mem, upkeep := t.upkeep, pkg := { s.pkg with filled := true } }))
    ∧ (filling → (s.clu 16).released = true → s.pkg.afterFill = .header → Runs .sramFillDone s (fun t =>
        t.pkg.stage = .header ∧ filled t ∧ t = { s with mem := t.mem, upkeep := t.upkeep, pkg := { s.pkg with
          filled := true, stage := .header } }))
    ∧ (filling → (s.clu 16).released = true → s.pkg.afterFill = .recovery → Runs .sramFillDone s (fun t =>
        t.pkg.stage = .recovery ∧ t.fget fXSPI_CTRL_mode = 1 ∧ t.fget fSYS_BOOT_STATUS_bank = 0 ∧ filled t))
    ∧ (rom → s.pkg.afterFill = .recovery → lost = 0 → Runs .sramFillDone s (fun t => t.pkg.stage = .recovery
        ∧ t.fget fXSPI_CTRL_mode = 1 ∧ t.fget fSYS_BOOT_STATUS_bank = 0 ∧ filled t))
    ∧ (rom → s.pkg.afterFill = .flash → lost / 2 ^ 60 = 3 → Runs .sramFillDone s (fun t => t.pkg.stage = .flash
        ∧ t.flash.redo = some (lost % 2 ^ 28) ∧ t.num opRecord 8 = 0
        ∧ t.pkg.opBank = if lost % 2 ^ 28 < 0x800000 then 1 else if lost % 2 ^ 28 < 0x1000000 then 2 else 0))
    ∧ (rom → s.pkg.afterFill = .flash → lost / 2 ^ 60 = 2 → Runs .sramFillDone s (fun t => t.pkg.stage = .flash
        ∧ t.fon fXSPI_STATUS_op_lost = true ∧ t.fget fXSPI_LOST_op = 2 ∧ t.fget fXSPI_LOST_offset = lost % 2 ^ 28
        ∧ t.num opRecord 8 = 0
        ∧ t.pkg.opBank = if lost % 2 ^ 28 < 0x800000 then 1 else if lost % 2 ^ 28 < 0x1000000 then 2 else 0))
    ∧ (rom → s.pkg.afterFill = .flash → lost = 0 →
        Runs .sramFillDone s (fun t => t.pkg.stage = .flash ∧ (t.clu 16).halterOn = true
          ∧ (t.clu 16).halter = 250000 ∧ t.reg aSYS_DEVICE_ID = Config.deviceId s.variant
          ∧ t.reg aSYS_BOOT_CTRL = s.word bootRecord &&& 0xFFFF0312#32 ∧ filled t))
    ∧ (found → s.fon fSYS_BOOT_CTRL_trial = false → Runs (.flashDiscovery true d0 d1) s (fun t => devs t
        ∧ bank t b .header ∧ t.pkg.other = false ∧ t = { s with regs := t.regs, pkg := t.pkg }))
    ∧ (found → s.fon fSYS_BOOT_CTRL_trial = true → left ≠ 0 → Runs (.flashDiscovery true d0 d1) s (fun t => devs t
        ∧ bank t b .header ∧ t.fget fSYS_BOOT_CTRL_trials_left = left - 1 ∧ record t ∧ s.OnlyBytes t bootRecord 8))
    ∧ (found → s.fon fSYS_BOOT_CTRL_trial = true → left = 0 → Runs (.flashDiscovery true d0 d1) s (fun t => devs t
        ∧ bank t (1 - b) .header ∧ t.fget fSYS_BOOT_CTRL_pref_bank = 1 - b ∧ t.fon fSYS_BOOT_CTRL_trial = false
        ∧ fail t b = 12 ∧ record t ∧ s.OnlyBytes t bootRecord 8))
    ∧ (s.pkg.stage = .flash → fits → bitN s.pkg.opBank b = true → bitN s.pkg.opBank (1 - b) = false →
        s.fon fSYS_BOOT_CTRL_trial = false → Runs (.flashDiscovery true d0 d1) s (fun t => devs t
          ∧ bank t (1 - b) .header ∧ t.pkg.other = true ∧ fail t b = 11))
    ∧ (s.pkg.stage = .flash → s.fon fSYS_BOOT_CTRL_trial = false → Runs (.flashDiscovery false d0 d1) s (fun t =>
        fail t 0 = 11 ∧ fail t 1 = 11 ∧ t.pkg.stage = .recovery ∧ t.fget fXSPI_CTRL_mode = 1
        ∧ t.reg aXSPI_DEV0 = s.reg aXSPI_DEV0 ∧ t.reg aXSPI_DEV1 = s.reg aXSPI_DEV1))
    ∧ (s.pkg.stage = .flash → ¬fits → s.fon fSYS_BOOT_CTRL_trial = false → Runs (.flashDiscovery true d0 d1) s (fun t =>
        fail t 0 = 11 ∧ fail t 1 = 11 ∧ t.pkg.stage = .recovery ∧ t.fget fXSPI_CTRL_mode = 1
        ∧ t.reg aXSPI_DEV0 = s.reg aXSPI_DEV0 ∧ t.reg aXSPI_DEV1 = s.reg aXSPI_DEV1))
    ∧ (s.pkg.stage = .header → head = 1 → Runs .headerCheck s (fun t =>
        t = { s with pkg := { s.pkg with stage := .load, img := { header := s.header K } } }))
    ∧ (s.pkg.stage = .header → head ≠ 1 → fails .headerCheck head false)
    ∧ (loads → e.type = 1 → loaded (fun t => t.bytes (supKey 0) e.len = body))
    ∧ (loads → e.type = 2 → loaded (fun t => t.bytes (seqKey 0) e.len = body))
    ∧ (loads → e.type = 3 → loaded (fun t => ∀ j ∈ maskClusters e.target, t.bytes (dtabKey j 0) e.len = body))
    ∧ (loads → e.type = 4 → loaded (fun t => ∀ j ∈ maskEngines e.target, t.bytes (iKey j 0) e.len = body))
    ∧ (loads → e.type = 5 → loaded (fun t => ∀ j ∈ maskEngines e.target,
        t.bytes (dKey j 0) e.len = body ∧ t.bytes (initKey j 0) e.len = body))
    ∧ (loads → e.type = 7 → loaded (fun t => t.pkg.img.defaults = body))
    ∧ (loads → e.type = 8 → loaded (fun t => t.pkg.img.keys = body))
    ∧ (s.pkg.stage = .load → s.manifestCheck H K = false → fails (.sectionLoad false) 10 true
        ∧ fails (.sectionLoad true) 10 true)
    ∧ (s.pkg.stage = .load → s.manifestCheck H K = true → fails (.sectionLoad true) 11 true)
    ∧ (s.pkg.stage = .sign → signatureOk H img.digest img.sig = true → versionsOk es = true → B < 2 →
        Runs .signatureCheck s (fun t =>
          t.pkg = { s.pkg with stage := .settings } ∧ fail t B = 1 ∧ t.mem = s.mem))
    ∧ (s.pkg.stage = .sign → signatureOk H img.digest img.sig = false → fails .signatureCheck 9 true)
    ∧ (s.pkg.stage = .sign → signatureOk H img.digest img.sig = true → versionsOk es = false →
        fails .signatureCheck 10 true)
    ∧ (s.pkg.stage = .settings → s.Clean settingsKey read.length → s.settingsGood read = true → Runs .settingsCheck s
        (fun t => goes t .hand))
    ∧ (s.pkg.stage = .settings → s.Clean settingsKey read.length → s.settingsGood read = false →
        s.Clean settingsKey block.length → Runs .settingsCheck s
        (fun t => t.pkg.stage = .hand ∧ t.bytes settingsKey block.length = block
          ∧ s.OnlyBytes t settingsKey block.length ∧ t.fon fSYS_BOOT_STATUS_settings_reset = true))
    ∧ (hand → s.fget fXSPI_CTRL_mode ≠ 1 → B < 2 → Runs (.handover cfg tag id) s (fun t => handed t
        ∧ t.fget fSYS_IMAGE_VER_version = s.pkg.img.version % 2 ^ 32 ∧ t.fget fSYS_BOOT_STATUS_bank = B + 1
        ∧ t.fget fXSPI_CTRL_mode = 2))
    ∧ (hand → s.fget fXSPI_CTRL_mode = 1 → Runs (.handover cfg tag id) s (fun t => handed t
        ∧ t.fget fSYS_IMAGE_VER_version = 0 ∧ t.fget fSYS_BOOT_STATUS_bank = 0 ∧ t.fget fXSPI_CTRL_mode = 1))

/-- R58, R407–R409, Table 17-3. -/
def Obligations.BootRecordRecovery : Prop :=
  ∀ (s : State) (m : Master) (pref : Bool) (b data : List Byte) (type rate : Nat),
    let opened : Prop := s.regOpen m aSYS_BOOT_CTRL true = true
    let recorded (t : State) : Prop := t.fget fSYS_BOOT_CTRL_pref_bank = b2n pref
      ∧ t.num bootRecord 8 = (t.reg aSYS_BOOT_CTRL).toNat ∧ s.OnlyBytes t bootRecord 8
      ∧ t = { s with regs := t.regs, mem := t.mem, upkeep := t.upkeep }
      ∧ ∀ a, a ≠ aSYS_BOOT_CTRL → a ≠ aSYS_BOOT_STATUS → t.reg a = s.reg a
    let same (t : State) (f : Fld) : Prop := t.fget f = s.fget f
    let rec' : Prop := s.pkg.stage = .recovery
    let R := s.pkg.recover
    let replied (t : State) (r : RecSt) : Prop := t = { s with pkg := { s.pkg with recover := r } }
    let ack (r : RecSt) (type : Nat) (d : List Byte) : RecSt := { r with reply := recFrame 0x80 (leBytes 1 type ++ d) }
    let nak (r : RecSt) (type code : Nat) : RecSt :=
      { r with reply := recFrame 0x81 (leBytes 1 type ++ leBytes 1 code) }
    let hello (r : RecSt) : RecSt :=
      ack r 1 (leBytes 4 (s.reg aSYS_DEVICE_ID).toNat ++ leBytes 4 (s.reg aSYS_BOOT_STATUS).toNat)
    let waits (k : Nat) : Prop := rec' ∧ R.cmd = some (k, data)
    let done : RecSt := { R with cmd := none }
    let off := leNat (data.take 4)
    let body := data.drop 4
    let code := s.fullCheck 0x04000000
    let runs : List (Nat × Instr) := [(1, .hello), (2, .baud), (3, .recoveryLoad), (4, .run)]
    let nakked (t : State) (r : RecSt) (type : Nat) : Prop := ∃ z, z < 256 ∧ t = { s with
      freeCount := t.freeCount, pkg := { s.pkg with recover := nak r type z } }
    (s.regReach m aSYS_BOOT_CTRL = false → ∀ c ∈ [Instr.trialStart m pref, .prefBankWrite m pref, .confirm m pref],
        Runs c s (fun t => t = s))
    ∧ (¬rec' → ∀ c ∈ [Instr.recoveryHelloTick, .recoveryFrame b, .hello, .baud, .recoveryLoad, .run],
        Runs c s (fun t => t = s))
    ∧ (rec' → ∀ c ∈ runs, (∀ d, R.cmd ≠ some (c.1, d)) → Runs c.2 s (fun t => t = s))
    ∧ (R.next = none → Runs .recoveryBaudApply s (fun t => t = s))
    ∧ (rec' → recParse b = some (type, data) → type = 0 ∨ 4 < type → Runs (.recoveryFrame b) s (fun t =>
        nakked t { R with heard := true } type))
    ∧ (waits 2 → data.length ≠ 4 ∨ leNat data < 115200 ∨ 3000000 < leNat data → Runs .baud s (fun t => nakked t done 2))
    ∧ (waits 3 → data.length < 5 → Runs .recoveryLoad s (fun t => nakked t done 3))
    ∧ (waits 4 → data.length ≠ 4 → Runs .run s (fun t => nakked t done 4))
    ∧ (opened → Runs (.trialStart m pref) s (fun t => recorded t ∧ t.fon fSYS_BOOT_CTRL_trial = true
        ∧ t.fget fSYS_BOOT_CTRL_trials_left = 3 ∧ same t fSYS_BOOT_CTRL_rb_floor))
    ∧ (opened → Runs (.prefBankWrite m pref) s (fun t => recorded t ∧ same t fSYS_BOOT_CTRL_trial
        ∧ same t fSYS_BOOT_CTRL_trials_left ∧ same t fSYS_BOOT_CTRL_rb_floor))
    ∧ (opened → s.fon fSYS_BOOT_STATUS_trial = true → Runs (.confirm m pref) s (fun t => recorded t
        ∧ t.fon fSYS_BOOT_CTRL_trial = false ∧ t.fon fSYS_BOOT_STATUS_trial = false
        ∧ t.fget fSYS_BOOT_CTRL_rb_floor = s.pkg.img.rollback % 2 ^ 16))
    ∧ (opened → s.fon fSYS_BOOT_STATUS_trial = false → Runs (.confirm m pref) s (fun t => recorded t
        ∧ same t fSYS_BOOT_CTRL_trial ∧ same t fSYS_BOOT_CTRL_rb_floor))
    ∧ (rec' → R.heard = false → Runs .recoveryHelloTick s (fun t => replied t (hello R)))
    ∧ (R.heard = true → Runs .recoveryHelloTick s (fun t => t = s))
    ∧ (rec' → recParse b = none → Runs (.recoveryFrame b) s (fun t => replied t (nak R (fieldLe b 2 1) 1)))
    ∧ (rec' → recParse b = some (type, data) → 1 ≤ type → type ≤ 4 → Runs (.recoveryFrame b) s (fun t =>
        replied t { R with heard := true, cmd := some (type, data) }))
    ∧ (waits 1 → Runs .hello s (fun t => replied t (hello done)))
    ∧ (waits 2 → data.length = 4 → 115200 ≤ leNat data → leNat data ≤ 3000000 → Runs .baud s (fun t =>
        replied t { ack done 2 [] with next := some (leNat data) }))
    ∧ (R.next = some rate → Runs .recoveryBaudApply s (fun t => replied t { R with baud := rate, next := none }))
    ∧ (waits 3 → 5 ≤ data.length → off + body.length ≤ 0x800000 → s.Clean (0x04000000 + off) body.length →
        Runs .recoveryLoad s (fun t => t.bytes (0x04000000 + off) body.length = body
          ∧ s.OnlyBytes t (0x04000000 + off) body.length
          ∧ t = { s with mem := t.mem, upkeep := t.upkeep, pkg := { s.pkg with recover := ack done 3 [] } }))
    ∧ (waits 3 → 5 ≤ data.length → 0x800000 < off + body.length → Runs .recoveryLoad s (fun t =>
        replied t (nak done 3 2)))
    ∧ (waits 4 → data.length = 4 → Runs .run s (fun t =>
        (code ≠ 1 → t.pkg.recover = nak done 4 code
          ∧ t.pkg.stage = .fill ∧ t.pkg.filled = false ∧ t.pkg.afterFill = .recovery)
        ∧ (code = 1 → t.pkg.recover = ack done 4 []
          ∧ t.pkg.stage = .hand ∧ (∀ k, 0x04000000 ≤ k → k < 0x04800000 → t.byte k = 0#8)
          ∧ t.fget (fPINMUX_SEL_func 0) = 0 ∧ t.fget (fPINMUX_SEL_func 1) = 0)))

/-- R410–R412. What SAMPLE shifts out is log entry 59. -/
def Obligations.JtagDebug : Prop :=
  ∀ (s : State) (c : CoreId) (draw : BitVec 128) (scope : Byte) (key sig nonce : List Byte),
    let free (t : State) : Prop := (t.chain 0).jtagHold = false ∧ (t.chain 1).jtagHold = false
    let shows (t : State) (i : Nat) (out : List Byte) : Prop := t.pkg = { s.pkg with jtag := i, jtagOut := out }
    let plain (j : Instr) (i : Nat) (out : List Byte) : Prop :=
      Runs j s (fun t => shows t i out ∧ free t ∧ (free s → t = { s with pkg := t.pkg }))
    let holds (j : Instr) (i : Nat) : Prop := s.bscan = true → Runs j s (fun t => shows t i []
      ∧ (t.chain 0).jtagHold = true ∧ (t.chain 1).jtagHold = true
      ∧ (free s → s.airSilent = true → t.chainState 0 = 0 ∧ t.chainState 1 = 0))
    let scan : List Instr := [.samplePreload, .extest, .clamp, .highz]
    let signed : Prop := (scope = 1#8 ∨ scope = 2#8) ∧ key.length = 64 ∧ sig.length = 64
      ∧ beNat (sha256 key) = s.fuses.debugKey ∧ ecdsaVerify key (sha256 (nonce ++ [scope])) sig = true
    let tried : Prop := s.dbgLocked = false ∧ s.log.buf.length < 16
    let missed (t : State) : Prop := s.Saturated t fSYS_DBG_fails ∧ t.fget fSYS_DBG_scope = s.fget fSYS_DBG_scope
    let used (t : State) (code : Nat) : Prop := t.log.buf.map LogItem.code = s.log.buf.map LogItem.code ++ [code]
      ∧ t = { s with regs := t.regs, log := t.log, pkg := { s.pkg with nonce := none } }
    let n := coreNum c
    let challenge := leBytes 16 draw.toNat ++ leBytes 16 s.fuses.uid
    plain .idcode 1 (leBytes 4 (idcode s.variant)) ∧ plain .bypass 2 []
    ∧ (s.bscan = true → plain .samplePreload 3 [])
    ∧ holds .extest 4 ∧ holds .clamp 5 ∧ holds .highz 6
    ∧ (s.bscan = false → ∀ j ∈ scan, Runs j s (fun t => t = s))
    ∧ (s.dbgLocked = false → s.cipher.failed = false → Runs (.debugChallengeRead draw) s (fun t =>
        t = { s with pkg := { s.pkg with nonce := some challenge, jtagOut := challenge } }))
    ∧ (s.dbgLocked = true → Runs (.debugChallengeRead draw) s (fun t => t = s)
        ∧ Runs (.debugUnlock scope key sig) s (fun t => t = s))
    ∧ (s.dbgLocked = false → s.cipher.failed = true → Runs (.debugChallengeRead draw) s (fun t =>
        t = { s with pkg := { s.pkg with nonce := some (takePad 32 []), jtagOut := takePad 32 [] } }))
    ∧ (tried → s.cipher.failed = true → Runs (.debugUnlock scope key sig) s (fun t => used t 0x0042
        ∧ t.fget fSYS_DBG_fails = s.fget fSYS_DBG_fails ∧ t.fget fSYS_DBG_scope = s.fget fSYS_DBG_scope))
    ∧ (tried → s.cipher.failed = false → s.pkg.nonce = none → Runs (.debugUnlock scope key sig) s (fun t =>
        missed t ∧ used t 0x0042))
    ∧ (s.dbgLocked = false → 16 ≤ s.log.buf.length → Runs (.debugUnlock scope key sig) s (fun t => t.pkg.nonce = none
        ∧ s.Saturated t fSYS_LOG_DROP_dropped ∧ t.log = s.log))
    ∧ (tried → s.cipher.failed = false → s.pkg.nonce = some nonce → Runs (.debugUnlock scope key sig) s (fun t =>
        (signed → t.fget fSYS_DBG_scope = scope.toNat ∧ t.fon fSYS_DBG_attached = (scope == 2#8)
          ∧ t.fget fSYS_DBG_fails = s.fget fSYS_DBG_fails ∧ used t 0x0041)
        ∧ (¬signed → missed t ∧ used t 0x0042)))
    ∧ (s.dbgFull = true → Runs (.debugStop c) s (fun t => t.eng n = { s.eng n with dbgStop := true, stepOne := false }
        ∧ (∀ j, j ≠ n → t.eng j = s.eng j) ∧ t = { s with engines := t.engines, clusters := t.clusters }))
    ∧ (s.dbgFull = true → (s.eng n).dbgStop = true → Runs (.debugStep c) s (fun t => s.OnlyCore t n
        ∧ t.eng n = { s.eng n with stepOne := true }))
    ∧ (s.dbgFull = true → (s.eng n).dbgStop = false → Runs (.debugStep c) s (fun t => t = s))
    ∧ (s.dbgFull = true → (s.eng n).run ≠ .idle ∨ (s.eng n).hold = true → Runs (.debugResume c) s (fun t =>
        t.eng n = { s.eng n with dbgStop := false, stepOne := false }
        ∧ (∀ j, j ≠ n → t.eng j = s.eng j) ∧ t = { s with engines := t.engines, clusters := t.clusters }))
    ∧ (s.dbgFull = true → (s.eng n).run = .idle → (s.eng n).hold = false → Runs (.debugResume c) s (fun t =>
        t.eng n = ({ s.eng n with dbgStop := false, stepOne := false } : Engine).dispatch
        ∧ (∀ j, j ≠ n → t.eng j = s.eng j)))
    ∧ (s.dbgFull = false → ∀ j ∈ [Instr.debugStop c, .debugStep c, .debugResume c], Runs j s (fun t => t = s))

/-- R10, R12, R13, R48, R280, R282, Table 0-2; shown on GIRTH_RESERVE (RW), XSPI_WEAR (W1C beside RW) and XSPI_DEV0 (RO). Which values a field takes is `fieldTakes`. -/
def Obligations.RegisterWrites : Prop :=
  ∀ (s : State) (m : Master) (addr v hw : Word) (e : BitVec 7) (d : RegDesc) (f : FieldDesc) (p : Bool) (g : BitVec 5)
    (i : BitVec 4),
    let a := addr.toNat
    let n := f.hi - f.lo + 1
    let was := fldOf f.lo n (s.reg a)
    let put := fldOf f.lo n v
    let takes : Bool := fieldTakes d.base f put
    let leaves : Nat := match f.acc with
      | .rw => if takes then put else was
      | .wol => if takes && !tabGet false s.wol a then put else was
      | .w1c => Nat.lor (Nat.land was (2 ^ n - 1 - put)) (fldOf f.lo n hw)
      | .w1s => if takes then Nat.lor was put else was
      | .ro | .rc | .wo => was
    let named : List (Nat × Instr) := [(aSYS_RESET_CTRL, .softReset m v), (aSYS_LOG_ADD_w0, .logAdd v),
      (aGIRTH_CTRL, .girthCtrlWrite m v), (aGIRTH_LEDGER 8 1, .packEstWrite m v), (aCINCH_RATE, .rateWrite m v),
      (aCINCH_AIR_OBS_w4, .airObsSubmit m v), (aTMR_START, .tmrStart m v), (aTMR_STOP, .tmrStop m v),
      (aTMR_RELOAD_HI i.toNat, .reloadCommit m i v), (aTMR_CMP_HI i.toNat, .compareCommit m i v),
      (aMEM_FLIP_w2, .memFlipArm v), (aMEM_CLEAR, .memClear v), (aETH_CFG (b2n p), .ethModeWrite m p v),
      (aETH_PTP_w4 (b2n p), .ptpStep m p v), (aETH_MGMT_DONE, .mgmtDone m v), (aPINMUX_SEL g.toNat, .pinmuxSelWrite m g v),
      (aUART_DATA (b2n p), .uartTxWrite m p v), (aSPI_DATA, .spiExchange m v), (aDECODER_RESERVE, .decoderReserveWrite m v),
      (aENGCTL_TPRIO i.toNat, .tprioWrite i v)]
    let inside : Prop := 0x10000000 ≤ a ∧ a < 0x20000000 ∧ a % 4 = 0
    (inside → s.regOpen m a true = true → s.regAbsent a = false → s.regWrite m a v hw = s.plainWrite a v hw →
        regDesc a = some d → f ∈ d.fields → Runs (.registerWrite m addr v hw) s (fun t => fldOf f.lo n (t.reg a) = leaves
          ∧ (∀ b, b ≠ a → t.reg b = s.reg b) ∧ t = { s with regs := t.regs, wol := t.wol }))
    ∧ (inside → s.regOpen m a true = true → ∀ x ∈ named, a = x.1 → ∃ t, exec (.registerWrite m addr v hw) s = .next t
        ∧ exec x.2 s = .next t)
    ∧ (inside → s.regReach m a = false → Runs (.registerWrite m addr v hw) s (fun t => t = s))
    ∧ (inside → s.regOpen m a true = true → s.regAbsent a = true → Runs (.registerWrite m addr v hw) s (fun t => t = s))
    ∧ (inside → s.regReach (.core (.eng e)) a = true → s.regOpen (.core (.eng e)) a true = false → Runs (.registerWrite (.core (.eng e)) addr v hw) s (fun t =>
        s.Counted t (fTENANT_FVIOL_register (s.engTenant e.toNat))
        ∧ t = { s with regs := t.regs, log := t.log, flight := t.flight }))
    ∧ (¬inside → Runs (.registerWrite m addr v hw) s (fun t => t = s))
    ∧ (s.regOpen m aGIRTH_RESERVE true = true → a = aGIRTH_RESERVE → Runs (.registerWrite m addr v hw) s (fun t =>
        t.reg a = v ∧ s.OnlyRegs t (fun b => b = a)))
    ∧ (s.regOpen m aXSPI_WEAR true = true → a = aXSPI_WEAR → Runs (.registerWrite m addr v hw) s (fun t =>
        t.fget fXSPI_WEAR_erase_warn = v.toNat % 2 ^ 24
        ∧ t.fon fXSPI_WEAR_warned = ((s.fon fXSPI_WEAR_warned && !bitN v.toNat 31) || bitN hw.toNat 31)
        ∧ s.OnlyRegs t (fun b => b = a)))
    ∧ (s.regOpen m aXSPI_DEV0 true = true → a = aXSPI_DEV0 → Runs (.registerWrite m addr v hw) s (fun t =>
        s.OnlyRegs t (fun _ => False)))
    ∧ (s.regOpen m a true = true → a = 0x10010028 → Runs (.registerWrite m addr v hw) s (fun t => t = s))

/-- Reset: the queue is empty, the supplies are off, every core is gated, both tables are canonical, and fields of each
block have the Reset column's values. That this is the part at first power is log entry 7. -/
def Obligations.ResetState : Prop :=
  let r := State.reset
  r.pending = [] ∧ r.Canon ∧ r.mem = [] ∧ r.regs = [] ∧ r.pkg.supplies = false ∧ r.pkg.stage = .hold
    ∧ (∀ n, (r.eng n).run = .gated ∧ (r.eng n).outs = [] ∧ (r.eng n).nq.queue = [])
    ∧ ∀ f ∈ [(fRADIO_TX_FE_ramp_us 0, 8), (fRADIO_TX_FE_lead_us 1, 10), (fRADIO_RX_DET_CFG_win_us 511, 160),
        (fRADIO_RX_DET_CFG_decay_us 0, 100), (fRADIO_RX_DET_CFG_attack_us 7, 10), (fDECODER_CAP_urg_cap, 16),
        (fDECODER_CAP_norm_cap, 20), (fDECODER_RESERVE_res, 0x5555), (fRELAY_CTRL_life, 16), (fRELAY_CTRL_k, 2),
        (fRELAY_CTRL_win_ms, 64), (fCINCH_CTRL_prio, 0x4321), (fCINCH_SERVO_holdover_keep, 3600),
        (fCINCH_SERVO_slew_limit_us, 20), (fCINCH_STATUS_stratum, 15), (fPWR_CTRL_wake_en, 7), (fSURV_CFG_period_s, 900),
        (fSURV_CFG_window_ms, 2000), (fSTIRRUP_CFG_freq_khz, 868048), (fMEM_BURN_CFG_en, 1), (fMEM_BURN_CFG_period_h, 24),
        (fXSPI_CTRL_run_min_us, 200), (fXSPI_CTRL_prog_retry, 2), (fXSPI_CTRL_erase_retry, 1),
        (fXSPI_WEAR_erase_warn, 80000), (fTMR_RELOAD_HI_reload_hi 15, 65535), (fETH_MGMT_CFG_key_slot, 2),
        (fPINMUX_SEL_pull 31, 3), (fPINMUX_SEL_drive 0, 1)],
      r.fget f.1 = f.2

/-- No command faults or refuses, whatever the state (log entry 1 for a command whose event cannot occur). -/
def Obligations.NothingStops : Prop :=
  (∀ (c : Instr) (s : State), ∃ t, exec c s = .next t) ∧ ∀ s : State, ∃ t, step s = .next t

/-- The canonical form of memory and registers is kept by every command and by the idle step. -/
def Obligations.StepKeepsCanon : Prop :=
  ∀ s t : State, s.Canon → step s = .next t → t.Canon

/-- Variant and fuses are fixed for the life of the part, and no command touches the queue. -/
def Obligations.PartAndQueueKept : Prop :=
  (∀ (c : Instr) (s t : State), exec c s = .next t →
      t.pending = s.pending ∧ t.variant = s.variant ∧ t.fuses = s.fuses)
    ∧ ∀ s t : State, step s = .next t → t.pending = s.pending.tail ∧ t.variant = s.variant ∧ t.fuses = s.fuses

/-- R9. -/
def Obligations.DeviceIdFixed : Prop :=
  ∀ (s : State) (m : Master),
    (s.regRead m aSYS_DEVICE_ID).1 = (match s.variant with
      | .sln4512 => 0x4512B00F#32
      | .sln4256 => 0x4256B006#32
      | .sln4128 => 0x4128B000#32)
    ∧ ∀ (c : Instr) (t : State), exec c s = .next t →
      t.variant = s.variant ∧ (t.regRead m aSYS_DEVICE_ID).1 = (s.regRead m aSYS_DEVICE_ID).1
end

