-- ==== Sys2Proof/Laws/Tab.lean ====
section
/-!
SUPPORT. Laws of sparse tables: what a read after a write gives, and that every operation keeps rising keys and the
canonical form.
-/

namespace Sys2Proof.Machine

variable {α : Type}

@[simp] theorem tabGet_nil (d : α) (k : Nat) : tabGet d [] k = d := rfl

@[simp] theorem tabGet_tabPut_self (d v : α) (t : Tab α) (k : Nat) : tabGet d (tabPut t k v) k = v := by
  induction t with
  | nil => simp [tabPut, tabGet]
  | cons e t ih =>
    obtain ⟨j, w⟩ := e
    by_cases h : k = j
    · simp [tabPut, tabGet, h]
    · by_cases h' : k < j <;> simp [tabPut, tabGet, h, h', ih]

theorem tabGet_tabPut_of_ne (d v : α) (t : Tab α) {k j : Nat} (h : j ≠ k) :
    tabGet d (tabPut t k v) j = tabGet d t j := by
  induction t with
  | nil => simp [tabPut, tabGet, h]
  | cons e t ih =>
    obtain ⟨i, w⟩ := e
    by_cases hk : k = i
    · subst hk; simp [tabPut, tabGet, h]
    · by_cases h' : k < i <;> simp [tabPut, tabGet, h, h', ih, hk]

theorem tabGet_tabDrop_self (d : α) (t : Tab α) (k : Nat) : tabGet d (tabDrop t k) k = d := by
  induction t with
  | nil => rfl
  | cons e t ih =>
    obtain ⟨i, w⟩ := e
    unfold tabDrop at ih ⊢
    by_cases hk : i = k
    · simp [hk, ih]
    · simp [hk, ih, tabGet, Ne.symm hk]

theorem tabGet_tabDrop_of_ne (d : α) (t : Tab α) {k j : Nat} (h : j ≠ k) :
    tabGet d (tabDrop t k) j = tabGet d t j := by
  induction t with
  | nil => rfl
  | cons e t ih =>
    obtain ⟨i, w⟩ := e
    unfold tabDrop at ih ⊢
    by_cases hk : i = k
    · subst hk; simp [ih, tabGet, h]
    · by_cases hj : j = i <;> simp [hk, ih, tabGet, hj]

/-- A read of the part that was set gives what was set. -/
@[simp] theorem tabGet_tabSet_self [DecidableEq α] (d v : α) (t : Tab α) (k : Nat) :
    tabGet d (tabSet d t k v) k = v := by
  unfold tabSet
  split
  · next h => rw [tabGet_tabDrop_self, h]
  · simp

/-- A set leaves every other part. -/
theorem tabGet_tabSet_of_ne [DecidableEq α] (d e v : α) (t : Tab α) {k j : Nat} (h : j ≠ k) :
    tabGet d (tabSet e t k v) j = tabGet d t j := by
  unfold tabSet
  split
  · exact tabGet_tabDrop_of_ne d t h
  · exact tabGet_tabPut_of_ne d v t h

/-- What a read after a set gives, in one line. -/
theorem tabGet_tabSet [DecidableEq α] (d v : α) (t : Tab α) (k j : Nat) :
    tabGet d (tabSet d t k v) j = if j = k then v else tabGet d t j := by
  by_cases h : j = k
  · subst h; simp
  · simp [h, tabGet_tabSet_of_ne]

/-! ## Rising keys as a pairwise relation -/

/-- `keysRise` says that the keys are pairwise in order. -/
theorem keysRise_iff (t : Tab α) : keysRise t = true ↔ (t.map Prod.fst).Pairwise (· < ·) := by
  induction t with
  | nil => simp [keysRise]
  | cons e t ih =>
    obtain ⟨i, v⟩ := e
    cases t with
    | nil => simp [keysRise]
    | cons e' t =>
      obtain ⟨j, w⟩ := e'
      simp only [keysRise, Bool.and_eq_true, decide_eq_true_eq, ih, List.map_cons, List.pairwise_cons]
      constructor
      · rintro ⟨h, h1, h2⟩
        refine ⟨?_, h1, h2⟩
        intro a ha
        rcases List.mem_cons.1 ha with rfl | ha
        · exact h
        · exact Nat.lt_trans h (h1 a ha)
      · rintro ⟨h, h1, h2⟩
        exact ⟨h _ (by simp), h1, h2⟩

theorem keysRise_filter (p : Nat × α → Bool) {t : Tab α} (h : keysRise t = true) : keysRise (t.filter p) = true := by
  rw [keysRise_iff] at h ⊢
  exact h.sublist (List.filter_sublist.map _)

theorem fst_mem_tabPut {t : Tab α} {k a : Nat} {v : α} (h : a ∈ (tabPut t k v).map Prod.fst) :
    a = k ∨ a ∈ t.map Prod.fst := by
  induction t with
  | nil => simpa [tabPut] using h
  | cons e t ih =>
    obtain ⟨j, w⟩ := e
    by_cases hk : k = j
    · simp only [tabPut, hk, if_true, List.map_cons, List.mem_cons] at h
      rcases h with h | h
      · exact .inl (by rw [h, hk])
      · exact .inr (by simp [h])
    · by_cases h' : k < j
      · simp only [tabPut, hk, h', if_true, if_false, List.map_cons, List.mem_cons] at h
        rcases h with h | h | h
        · exact .inl h
        · exact .inr (by simp [h])
        · exact .inr (by simp [h])
      · simp only [tabPut, hk, h', if_false, List.map_cons, List.mem_cons] at h
        rcases h with h | h
        · exact .inr (by simp [h])
        · rcases ih h with h | h
          · exact .inl h
          · exact .inr (by simp [h])

theorem keysRise_tabPut {t : Tab α} (k : Nat) (v : α) (h : keysRise t = true) : keysRise (tabPut t k v) = true := by
  rw [keysRise_iff] at h ⊢
  induction t with
  | nil => simp [tabPut]
  | cons e t ih =>
    obtain ⟨j, w⟩ := e
    simp only [List.map_cons, List.pairwise_cons] at h
    by_cases hk : k = j
    · simp only [tabPut, hk, if_true, List.map_cons, List.pairwise_cons]
      exact h
    · by_cases h' : k < j
      · simp only [tabPut, hk, h', if_true, if_false, List.map_cons, List.pairwise_cons]
        refine ⟨?_, h⟩
        intro a ha
        rcases List.mem_cons.1 ha with rfl | ha
        · exact h'
        · exact Nat.lt_trans h' (h.1 a ha)
      · simp only [tabPut, hk, h', if_false, List.map_cons, List.pairwise_cons]
        refine ⟨?_, ih h.2⟩
        intro a ha
        rcases fst_mem_tabPut ha with rfl | ha
        · omega
        · exact h.1 a ha

/-- A set keeps rising keys. -/
theorem keysRise_tabSet [DecidableEq α] (d : α) {t : Tab α} (k : Nat) (v : α) (h : keysRise t = true) :
    keysRise (tabSet d t k v) = true := by
  unfold tabSet
  split
  · exact keysRise_filter _ h
  · exact keysRise_tabPut k v h

/-! ## No entry equals its default -/

theorem mem_tabPut {t : Tab α} {k : Nat} {v : α} {e : Nat × α} (h : e ∈ tabPut t k v) : e = (k, v) ∨ e ∈ t := by
  induction t with
  | nil => exact .inl (by simpa [tabPut] using h)
  | cons x t ih =>
    obtain ⟨j, w⟩ := x
    by_cases hk : k = j
    · simp only [tabPut, hk, if_true, List.mem_cons] at h
      rcases h with h | h
      · exact .inl (by rw [h, hk])
      · exact .inr (by simp [h])
    · by_cases h' : k < j
      · simp only [tabPut, hk, h', if_true, if_false, List.mem_cons] at h
        rcases h with h | h | h
        · exact .inl h
        · exact .inr (by simp [h])
        · exact .inr (by simp [h])
      · simp only [tabPut, hk, h', if_false, List.mem_cons] at h
        rcases h with h | h
        · exact .inr (by simp [h])
        · rcases ih h with h | h
          · exact .inl h
          · exact .inr (by simp [h])

/-- A set with the default of the key lists no default, when none was listed before. -/
theorem all_ne_tabSet [DecidableEq α] (d : Nat → α) {t : Tab α} (k : Nat) (v : α)
    (h : t.all (fun e => decide (e.2 ≠ d e.1)) = true) :
    (tabSet (d k) t k v).all (fun e => decide (e.2 ≠ d e.1)) = true := by
  rw [List.all_eq_true] at h ⊢
  intro e he
  unfold tabSet at he
  split at he
  · exact h e (List.mem_filter.1 he).1
  · next hv =>
    rcases mem_tabPut he with rfl | he
    · simpa using hv
    · exact h e he

theorem all_filter_of_all (p q : Nat × α → Bool) {t : Tab α} (h : t.all q = true) : (t.filter p).all q = true := by
  rw [List.all_eq_true] at h ⊢
  exact fun e he => h e (List.mem_filter.1 he).1

end Sys2Proof.Machine
end

