-- ==== Sys2Proof/Laws/Reg.lean ====
section
/-!
SUPPORT. Laws of registers and their fields: what a read after a write gives, and what a write leaves unchanged.
-/

namespace Sys2Proof.Machine

/-! ## Fields of a word -/

theorem fldOf_testBit (lo n : Nat) (w : Word) (k : Nat) :
    (fldOf lo n w).testBit k = (decide (k < n) && w.toNat.testBit (lo + k)) := by
  unfold fldOf
  rw [Nat.testBit_mod_two_pow, Nat.testBit_div_two_pow, Nat.add_comm]

theorem mask_testBit (n lo k : Nat) :
    ((2 ^ n - 1) * 2 ^ lo).testBit k = (decide (lo ≤ k) && decide (k - lo < n)) := by
  rw [Nat.testBit_mul_two_pow, Nat.testBit_two_pow_sub_one]

theorem fldPut_testBit (lo n v : Nat) (w : Word) (k : Nat) :
    (fldPut lo n v w).toNat.testBit k
      = (decide (k < 32) && if lo ≤ k ∧ k - lo < n then v.testBit (k - lo) else w.toNat.testBit k) := by
  unfold fldPut
  simp only [BitVec.toNat_or, BitVec.toNat_and, BitVec.toNat_not, BitVec.toNat_ofNat, Nat.testBit_or, Nat.testBit_and]
  rw [Nat.sub_sub, Nat.add_comm 1, Nat.testBit_two_pow_sub_succ (Nat.mod_lt _ (by decide))]
  simp only [Nat.testBit_mod_two_pow, Nat.testBit_mul_two_pow]
  by_cases h1 : lo ≤ k <;> by_cases h2 : k - lo < n <;> by_cases h3 : k < 32 <;> simp [h1, h2, h3]

/-- A field put reads back as the low bits of what was put. -/
theorem fldOf_fldPut_self {lo n : Nat} (v : Nat) (w : Word) (h : lo + n ≤ 32) :
    fldOf lo n (fldPut lo n v w) = v % 2 ^ n := by
  apply Nat.eq_of_testBit_eq
  intro k
  rw [fldOf_testBit, fldPut_testBit, Nat.testBit_mod_two_pow]
  by_cases hk : k < n
  · have h1 : lo + k < 32 := by omega
    have h2 : lo + k - lo < n := by omega
    simp [hk, h1]
  · simp [hk]

/-- A field put leaves every field that shares no bit with it. -/
theorem fldOf_fldPut_of_disjoint {lo n lo' n' : Nat} (v : Nat) (w : Word)
    (h : lo' + n' ≤ lo ∨ lo + n ≤ lo') : fldOf lo' n' (fldPut lo n v w) = fldOf lo' n' w := by
  apply Nat.eq_of_testBit_eq
  intro k
  rw [fldOf_testBit, fldPut_testBit, fldOf_testBit]
  by_cases hk : k < n'
  · have h1 : ¬(lo ≤ lo' + k ∧ lo' + k - lo < n) := by omega
    by_cases h2 : lo' + k < 32
    · simp [hk, h1, h2]
    · have h3 : w.toNat.testBit (lo' + k) = false :=
        Nat.testBit_lt_two_pow (Nat.lt_of_lt_of_le w.isLt (Nat.pow_le_pow_right (by decide) (Nat.le_of_not_lt h2)))
      simp [h2, h3]
  · simp [hk]

theorem fldOf_lt (lo n : Nat) (w : Word) : fldOf lo n w < 2 ^ n := Nat.mod_lt _ (Nat.two_pow_pos n)

/-! ## Registers -/

/-- A register that was set reads as it was set. -/
@[simp] theorem State.reg_setReg_self (s : State) (a : Nat) (w : Word) : (s.setReg a w).reg a = w :=
  tabGet_tabSet_self _ _ _ _

/-- Setting a register leaves every other. -/
theorem State.reg_setReg_of_ne (s : State) {a b : Nat} (w : Word) (h : b ≠ a) : (s.setReg a w).reg b = s.reg b :=
  tabGet_tabSet_of_ne _ _ _ _ h

theorem State.reg_setReg (s : State) (a b : Nat) (w : Word) :
    (s.setReg a w).reg b = if b = a then w else s.reg b := by
  by_cases h : b = a
  · subst h; simp
  · simp [h, State.reg_setReg_of_ne]

/-- A field that was set reads as the low bits of what was set. -/
theorem State.fget_fset_self (s : State) {f : Fld} (v : Nat) (h : f.lo + f.width ≤ 32) :
    (s.fset f v).fget f = v % 2 ^ f.width := by
  unfold State.fget State.fset
  rw [State.reg_setReg_self, fldOf_fldPut_self v _ h]

/-- Setting a field leaves every field of another register, and every field of the same one that shares no bit. -/
theorem State.fget_fset_of_apart (s : State) {f g : Fld} (v : Nat)
    (h : g.addr ≠ f.addr ∨ g.lo + g.width ≤ f.lo ∨ f.lo + f.width ≤ g.lo) : (s.fset f v).fget g = s.fget g := by
  unfold State.fget State.fset
  by_cases ha : g.addr = f.addr
  · rw [ha, State.reg_setReg_self, fldOf_fldPut_of_disjoint _ _ (h.resolve_left (fun h => h ha))]
  · rw [State.reg_setReg_of_ne _ _ ha]

/-- Setting a field leaves every other register. -/
theorem State.reg_fset_of_ne (s : State) {f : Fld} {a : Nat} (v : Nat) (h : a ≠ f.addr) : (s.fset f v).reg a = s.reg a :=
  State.reg_setReg_of_ne _ _ h

theorem State.fget_lt (s : State) (f : Fld) : s.fget f < 2 ^ f.width := fldOf_lt _ _ _

/-- A counting field after plus one is one more, modulo its width. -/
theorem State.fget_finc_self (s : State) {f : Fld} (h : f.lo + f.width ≤ 32) :
    (s.finc f).fget f = (s.fget f + 1) % 2 ^ f.width := State.fget_fset_self s _ h

end Sys2Proof.Machine
end

