-- ==== Sys2Proof/Laws/Memory.lean ====
section
/-!
SUPPORT. Laws of memory: reads after writes, and that every memory operation keeps the canonical form.
-/

namespace Sys2Proof.Machine

/-! ## Reads after writes -/

@[simp] theorem State.byte_setByte_self (s : State) (k : Nat) (b : Byte) : (s.setByte k b).byte k = b :=
  tabGet_tabSet_self _ _ _ _

theorem State.byte_setByte_of_ne (s : State) {k j : Nat} (b : Byte) (h : j ≠ k) : (s.setByte k b).byte j = s.byte j :=
  tabGet_tabSet_of_ne _ _ _ _ h

/-- Stored bytes leave every byte outside them. -/
theorem State.byte_setBytes_of_outside (bs : List Byte) (s : State) {k j : Nat} (h : j < k ∨ k + bs.length ≤ j) :
    (s.setBytes k bs).byte j = s.byte j := by
  induction bs generalizing s k with
  | nil => rfl
  | cons b bs ih =>
    simp only [List.length_cons] at h
    rw [State.setBytes, ih (s.setByte k b) (by omega), State.byte_setByte_of_ne s b (by omega)]

/-- Stored bytes read back. -/
theorem State.byte_setBytes_inside (bs : List Byte) (s : State) (k i : Nat) (h : i < bs.length) :
    (s.setBytes k bs).byte (k + i) = bs[i] := by
  induction bs generalizing s k i with
  | nil => simp at h
  | cons b bs ih =>
    cases i with
    | zero =>
      rw [State.setBytes, Nat.add_zero, State.byte_setBytes_of_outside _ _ (by omega)]
      simp
    | succ i =>
      simp only [List.length_cons] at h
      have := ih (s.setByte k b) (k + 1) i (by omega)
      rw [State.setBytes, show k + (i + 1) = k + 1 + i by omega, this]
      rfl

theorem State.bytes_length (s : State) (k n : Nat) : (s.bytes k n).length = n := by
  induction n generalizing k with
  | zero => rfl
  | succ n ih => simp [State.bytes, ih]

/-- What is stored reads back whole. -/
theorem State.bytes_setBytes (bs : List Byte) (s : State) (k : Nat) : (s.setBytes k bs).bytes k bs.length = bs := by
  induction bs generalizing s k with
  | nil => rfl
  | cons b bs ih =>
    simp only [List.length_cons, State.bytes, State.setBytes]
    rw [ih, State.byte_setBytes_of_outside _ _ (by omega)]
    simp

/-! ## The canonical form -/

theorem Memory.wf_setByte {s : State} (k : Nat) (b : Byte) (h : Memory.wf s.mem = true) :
    Memory.wf (s.setByte k b).mem = true := by
  rw [Memory.wf, Bool.and_eq_true] at h ⊢
  exact ⟨keysRise_tabSet _ k b h.1, all_ne_tabSet memDefault k b h.2⟩

theorem Memory.wf_setBytes (bs : List Byte) {s : State} (k : Nat) (h : Memory.wf s.mem = true) :
    Memory.wf (s.setBytes k bs).mem = true := by
  induction bs generalizing s k with
  | nil => exact h
  | cons b bs ih => exact ih _ (Memory.wf_setByte k b h)

theorem Memory.wf_filter (p : Host.Cell → Bool) {m : List Host.Cell} (h : Memory.wf m = true) :
    Memory.wf (m.filter p) = true := by
  rw [Memory.wf, Bool.and_eq_true] at h ⊢
  exact ⟨keysRise_filter p h.1, all_filter_of_all p _ h.2⟩

theorem Memory.wf_fill {s : State} (lo hi : Nat) (h : Memory.wf s.mem = true) :
    Memory.wf (s.fill lo hi).mem = true := Memory.wf_filter _ h

theorem Memory.wf_setWord64 {s : State} (k v : Nat) (m : BitVec 72) (h : Memory.wf s.mem = true) :
    Memory.wf (s.setWord64 k v m).mem = true := Memory.wf_setBytes _ k h

theorem Memory.wf_copyRange {s : State} (dst src n : Nat) (h : Memory.wf s.mem = true) :
    Memory.wf (s.copyRange dst src n).mem = true := by
  have hk := h
  rw [Memory.wf, Bool.and_eq_true, keysRise_iff] at hk
  obtain ⟨hk, ha⟩ := hk
  rw [Memory.wf, Bool.and_eq_true, keysRise_iff]
  unfold State.copyRange
  constructor
  · simp only [List.map_append]
    rw [List.pairwise_append, List.pairwise_append]
    refine ⟨⟨hk.sublist (List.filter_sublist.map _), ?_, ?_⟩, hk.sublist (List.filter_sublist.map _), ?_⟩
    · refine List.Pairwise.sublist (List.filter_sublist.map _) ?_
      rw [List.map_map]
      have h2 : ((s.mem.filter (fun e => decide (src ≤ e.1) && decide (e.1 < src + n))).map Prod.fst).Pairwise (· < ·) :=
        hk.sublist (List.filter_sublist.map _)
      rw [List.pairwise_map] at h2 ⊢
      refine List.Pairwise.imp_of_mem ?_ h2
      intro a b ha hb hab
      simp only [List.mem_filter, Bool.and_eq_true, decide_eq_true_eq] at ha hb
      simp only [Function.comp]
      omega
    · intro a ha' b hb'
      simp only [List.mem_map, List.mem_filter, Bool.and_eq_true, decide_eq_true_eq] at ha' hb'
      obtain ⟨x, ⟨_, hx⟩, rfl⟩ := ha'
      obtain ⟨y, ⟨⟨z, ⟨⟨_, hz⟩, rfl⟩⟩, _⟩, rfl⟩ := hb'
      simp only
      omega
    · intro a ha' b hb'
      simp only [List.mem_append, List.mem_map, List.mem_filter, Bool.and_eq_true, decide_eq_true_eq] at ha' hb'
      obtain ⟨y, ⟨_, hy⟩, rfl⟩ := hb'
      rcases ha' with ⟨x, ⟨_, hx⟩, rfl⟩ | ⟨x, ⟨⟨z, ⟨⟨_, hz⟩, rfl⟩⟩, _⟩, rfl⟩
      · omega
      · simp only; omega
  · rw [List.all_append, List.all_append]
    simp only [Bool.and_eq_true]
    refine ⟨⟨all_filter_of_all _ _ ha, ?_⟩, all_filter_of_all _ _ ha⟩
    rw [List.all_eq_true]
    intro e he
    exact (List.mem_filter.1 he).2

theorem Memory.wf_reset : Memory.wf State.reset.mem = true := rfl

end Sys2Proof.Machine
end

