-- ==== Sys2Proof/Laws/Canon.lean ====
section
/-!
SUPPORT. The canonical form of a state: what writes memory and registers keeps it. `setReg`, `setByte`, `fill`,
`copyRange` and the filters of a power cut are the only places of the model that build either table.
-/

namespace Sys2Proof.Machine

/-- A state with the same two tables is in canonical form with it. -/
theorem State.canon_of_same {s t : State} (hm : t.mem = s.mem) (hr : t.regs = s.regs) (h : s.Canon) : t.Canon := by
  unfold State.Canon at *
  rw [hm, hr]
  exact h

theorem State.canon_setReg {s : State} (a : Nat) (w : Word) (h : s.Canon) : (s.setReg a w).Canon :=
  ⟨h.1, keysRise_tabSet _ _ _ h.2.1, all_ne_tabSet (d := regReset) a w h.2.2⟩

theorem State.canon_fset {s : State} (f : Fld) (v : Nat) (h : s.Canon) : (s.fset f v).Canon := s.canon_setReg _ _ h

theorem State.canon_setByte {s : State} (k : Nat) (b : Byte) (h : s.Canon) : (s.setByte k b).Canon :=
  ⟨Memory.wf_setByte k b h.1, h.2⟩

theorem State.regs_setBytes (bs : List Byte) (s : State) (k : Nat) : (s.setBytes k bs).regs = s.regs := by
  induction bs generalizing s k with
  | nil => rfl
  | cons b bs ih => rw [State.setBytes, ih]; rfl

theorem State.canon_setBytes {s : State} (k : Nat) (bs : List Byte) (h : s.Canon) : (s.setBytes k bs).Canon := by
  refine ⟨Memory.wf_setBytes bs k h.1, ?_⟩
  rw [State.regs_setBytes]
  exact h.2

theorem State.canon_fill {s : State} (lo hi : Nat) (h : s.Canon) : (s.fill lo hi).Canon := ⟨Memory.wf_fill lo hi h.1, h.2⟩

theorem State.canon_copyRange {s : State} (dst src n : Nat) (h : s.Canon) : (s.copyRange dst src n).Canon :=
  ⟨Memory.wf_copyRange dst src n h.1, h.2⟩

/-- Filtered tables are in canonical form. -/
theorem State.canon_filter {s t : State} (p : Host.Cell → Bool) (q : Nat × Word → Bool) (hm : t.mem = s.mem.filter p)
    (hr : t.regs = s.regs.filter q) (h : s.Canon) : t.Canon := by
  unfold State.Canon
  rw [hm, hr]
  refine ⟨Memory.wf_filter p h.1, keysRise_filter q h.2.1, ?_⟩
  rw [List.all_eq_true]
  intro e he
  exact List.all_eq_true.1 h.2.2 e (List.mem_filter.1 he).1

theorem State.canon_reset : State.reset.Canon := ⟨rfl, rfl, rfl⟩

end Sys2Proof.Machine
end

