-- ==== Sys2Proof/Laws/State.lean ====
section
/-!
SUPPORT. What each shared update of the state leaves unchanged: one lemma for each field and update, and for each record
update what it makes of its own field. Later proofs never unfold a record update.
-/

namespace Sys2Proof.Machine

variable (s : State)

/-! ## `setReg` -/

@[simp] theorem State.setReg_pending (a : Nat) (w : Word) : (s.setReg a w).pending = s.pending := rfl
@[simp] theorem State.setReg_variant (a : Nat) (w : Word) : (s.setReg a w).variant = s.variant := rfl
@[simp] theorem State.setReg_wol (a : Nat) (w : Word) : (s.setReg a w).wol = s.wol := rfl
@[simp] theorem State.setReg_mem (a : Nat) (w : Word) : (s.setReg a w).mem = s.mem := rfl
@[simp] theorem State.setReg_upkeep (a : Nat) (w : Word) : (s.setReg a w).upkeep = s.upkeep := rfl
@[simp] theorem State.setReg_engines (a : Nat) (w : Word) : (s.setReg a w).engines = s.engines := rfl
@[simp] theorem State.setReg_faults (a : Nat) (w : Word) : (s.setReg a w).faults = s.faults := rfl
@[simp] theorem State.setReg_clusters (a : Nat) (w : Word) : (s.setReg a w).clusters = s.clusters := rfl
@[simp] theorem State.setReg_flight (a : Nat) (w : Word) : (s.setReg a w).flight = s.flight := rfl
@[simp] theorem State.setReg_prioFlight (a : Nat) (w : Word) : (s.setReg a w).prioFlight = s.prioFlight := rfl
@[simp] theorem State.setReg_log (a : Nat) (w : Word) : (s.setReg a w).log = s.log := rfl
@[simp] theorem State.setReg_fuses (a : Nat) (w : Word) : (s.setReg a w).fuses = s.fuses := rfl
@[simp] theorem State.setReg_cipher (a : Nat) (w : Word) : (s.setReg a w).cipher = s.cipher := rfl
@[simp] theorem State.setReg_radio (a : Nat) (w : Word) : (s.setReg a w).radio = s.radio := rfl
@[simp] theorem State.setReg_decoder (a : Nat) (w : Word) : (s.setReg a w).decoder = s.decoder := rfl
@[simp] theorem State.setReg_relay (a : Nat) (w : Word) : (s.setReg a w).relay = s.relay := rfl
@[simp] theorem State.setReg_cinch (a : Nat) (w : Word) : (s.setReg a w).cinch = s.cinch := rfl
@[simp] theorem State.setReg_girth (a : Nat) (w : Word) : (s.setReg a w).girth = s.girth := rfl
@[simp] theorem State.setReg_rtc (a : Nat) (w : Word) : (s.setReg a w).rtc = s.rtc := rfl
@[simp] theorem State.setReg_timers (a : Nat) (w : Word) : (s.setReg a w).timers = s.timers := rfl
@[simp] theorem State.setReg_flash (a : Nat) (w : Word) : (s.setReg a w).flash = s.flash := rfl
@[simp] theorem State.setReg_wired (a : Nat) (w : Word) : (s.setReg a w).wired = s.wired := rfl
@[simp] theorem State.setReg_pkg (a : Nat) (w : Word) : (s.setReg a w).pkg = s.pkg := rfl
@[simp] theorem State.setReg_mono (a : Nat) (w : Word) : (s.setReg a w).mono = s.mono := rfl
@[simp] theorem State.setReg_age (a : Nat) (w : Word) : (s.setReg a w).age = s.age := rfl
@[simp] theorem State.setReg_freeCount (a : Nat) (w : Word) : (s.setReg a w).freeCount = s.freeCount := rfl

/-! ## `fset` -/

@[simp] theorem State.fset_pending (f : Fld) (v : Nat) : (s.fset f v).pending = s.pending := rfl
@[simp] theorem State.fset_variant (f : Fld) (v : Nat) : (s.fset f v).variant = s.variant := rfl
@[simp] theorem State.fset_wol (f : Fld) (v : Nat) : (s.fset f v).wol = s.wol := rfl
@[simp] theorem State.fset_mem (f : Fld) (v : Nat) : (s.fset f v).mem = s.mem := rfl
@[simp] theorem State.fset_upkeep (f : Fld) (v : Nat) : (s.fset f v).upkeep = s.upkeep := rfl
@[simp] theorem State.fset_engines (f : Fld) (v : Nat) : (s.fset f v).engines = s.engines := rfl
@[simp] theorem State.fset_faults (f : Fld) (v : Nat) : (s.fset f v).faults = s.faults := rfl
@[simp] theorem State.fset_clusters (f : Fld) (v : Nat) : (s.fset f v).clusters = s.clusters := rfl
@[simp] theorem State.fset_flight (f : Fld) (v : Nat) : (s.fset f v).flight = s.flight := rfl
@[simp] theorem State.fset_prioFlight (f : Fld) (v : Nat) : (s.fset f v).prioFlight = s.prioFlight := rfl
@[simp] theorem State.fset_log (f : Fld) (v : Nat) : (s.fset f v).log = s.log := rfl
@[simp] theorem State.fset_fuses (f : Fld) (v : Nat) : (s.fset f v).fuses = s.fuses := rfl
@[simp] theorem State.fset_cipher (f : Fld) (v : Nat) : (s.fset f v).cipher = s.cipher := rfl
@[simp] theorem State.fset_radio (f : Fld) (v : Nat) : (s.fset f v).radio = s.radio := rfl
@[simp] theorem State.fset_decoder (f : Fld) (v : Nat) : (s.fset f v).decoder = s.decoder := rfl
@[simp] theorem State.fset_relay (f : Fld) (v : Nat) : (s.fset f v).relay = s.relay := rfl
@[simp] theorem State.fset_cinch (f : Fld) (v : Nat) : (s.fset f v).cinch = s.cinch := rfl
@[simp] theorem State.fset_girth (f : Fld) (v : Nat) : (s.fset f v).girth = s.girth := rfl
@[simp] theorem State.fset_rtc (f : Fld) (v : Nat) : (s.fset f v).rtc = s.rtc := rfl
@[simp] theorem State.fset_timers (f : Fld) (v : Nat) : (s.fset f v).timers = s.timers := rfl
@[simp] theorem State.fset_flash (f : Fld) (v : Nat) : (s.fset f v).flash = s.flash := rfl
@[simp] theorem State.fset_wired (f : Fld) (v : Nat) : (s.fset f v).wired = s.wired := rfl
@[simp] theorem State.fset_pkg (f : Fld) (v : Nat) : (s.fset f v).pkg = s.pkg := rfl
@[simp] theorem State.fset_mono (f : Fld) (v : Nat) : (s.fset f v).mono = s.mono := rfl
@[simp] theorem State.fset_age (f : Fld) (v : Nat) : (s.fset f v).age = s.age := rfl
@[simp] theorem State.fset_freeCount (f : Fld) (v : Nat) : (s.fset f v).freeCount = s.freeCount := rfl

/-! ## `fadd` -/

@[simp] theorem State.fadd_pending (f : Fld) (n : Nat) : (s.fadd f n).pending = s.pending := rfl
@[simp] theorem State.fadd_variant (f : Fld) (n : Nat) : (s.fadd f n).variant = s.variant := rfl
@[simp] theorem State.fadd_wol (f : Fld) (n : Nat) : (s.fadd f n).wol = s.wol := rfl
@[simp] theorem State.fadd_mem (f : Fld) (n : Nat) : (s.fadd f n).mem = s.mem := rfl
@[simp] theorem State.fadd_upkeep (f : Fld) (n : Nat) : (s.fadd f n).upkeep = s.upkeep := rfl
@[simp] theorem State.fadd_engines (f : Fld) (n : Nat) : (s.fadd f n).engines = s.engines := rfl
@[simp] theorem State.fadd_faults (f : Fld) (n : Nat) : (s.fadd f n).faults = s.faults := rfl
@[simp] theorem State.fadd_clusters (f : Fld) (n : Nat) : (s.fadd f n).clusters = s.clusters := rfl
@[simp] theorem State.fadd_flight (f : Fld) (n : Nat) : (s.fadd f n).flight = s.flight := rfl
@[simp] theorem State.fadd_prioFlight (f : Fld) (n : Nat) : (s.fadd f n).prioFlight = s.prioFlight := rfl
@[simp] theorem State.fadd_log (f : Fld) (n : Nat) : (s.fadd f n).log = s.log := rfl
@[simp] theorem State.fadd_fuses (f : Fld) (n : Nat) : (s.fadd f n).fuses = s.fuses := rfl
@[simp] theorem State.fadd_cipher (f : Fld) (n : Nat) : (s.fadd f n).cipher = s.cipher := rfl
@[simp] theorem State.fadd_radio (f : Fld) (n : Nat) : (s.fadd f n).radio = s.radio := rfl
@[simp] theorem State.fadd_decoder (f : Fld) (n : Nat) : (s.fadd f n).decoder = s.decoder := rfl
@[simp] theorem State.fadd_relay (f : Fld) (n : Nat) : (s.fadd f n).relay = s.relay := rfl
@[simp] theorem State.fadd_cinch (f : Fld) (n : Nat) : (s.fadd f n).cinch = s.cinch := rfl
@[simp] theorem State.fadd_girth (f : Fld) (n : Nat) : (s.fadd f n).girth = s.girth := rfl
@[simp] theorem State.fadd_rtc (f : Fld) (n : Nat) : (s.fadd f n).rtc = s.rtc := rfl
@[simp] theorem State.fadd_timers (f : Fld) (n : Nat) : (s.fadd f n).timers = s.timers := rfl
@[simp] theorem State.fadd_flash (f : Fld) (n : Nat) : (s.fadd f n).flash = s.flash := rfl
@[simp] theorem State.fadd_wired (f : Fld) (n : Nat) : (s.fadd f n).wired = s.wired := rfl
@[simp] theorem State.fadd_pkg (f : Fld) (n : Nat) : (s.fadd f n).pkg = s.pkg := rfl
@[simp] theorem State.fadd_mono (f : Fld) (n : Nat) : (s.fadd f n).mono = s.mono := rfl
@[simp] theorem State.fadd_age (f : Fld) (n : Nat) : (s.fadd f n).age = s.age := rfl
@[simp] theorem State.fadd_freeCount (f : Fld) (n : Nat) : (s.fadd f n).freeCount = s.freeCount := rfl

/-! ## `finc` -/

@[simp] theorem State.finc_pending (f : Fld) : (s.finc f).pending = s.pending := rfl
@[simp] theorem State.finc_variant (f : Fld) : (s.finc f).variant = s.variant := rfl
@[simp] theorem State.finc_wol (f : Fld) : (s.finc f).wol = s.wol := rfl
@[simp] theorem State.finc_mem (f : Fld) : (s.finc f).mem = s.mem := rfl
@[simp] theorem State.finc_upkeep (f : Fld) : (s.finc f).upkeep = s.upkeep := rfl
@[simp] theorem State.finc_engines (f : Fld) : (s.finc f).engines = s.engines := rfl
@[simp] theorem State.finc_faults (f : Fld) : (s.finc f).faults = s.faults := rfl
@[simp] theorem State.finc_clusters (f : Fld) : (s.finc f).clusters = s.clusters := rfl
@[simp] theorem State.finc_flight (f : Fld) : (s.finc f).flight = s.flight := rfl
@[simp] theorem State.finc_prioFlight (f : Fld) : (s.finc f).prioFlight = s.prioFlight := rfl
@[simp] theorem State.finc_log (f : Fld) : (s.finc f).log = s.log := rfl
@[simp] theorem State.finc_fuses (f : Fld) : (s.finc f).fuses = s.fuses := rfl
@[simp] theorem State.finc_cipher (f : Fld) : (s.finc f).cipher = s.cipher := rfl
@[simp] theorem State.finc_radio (f : Fld) : (s.finc f).radio = s.radio := rfl
@[simp] theorem State.finc_decoder (f : Fld) : (s.finc f).decoder = s.decoder := rfl
@[simp] theorem State.finc_relay (f : Fld) : (s.finc f).relay = s.relay := rfl
@[simp] theorem State.finc_cinch (f : Fld) : (s.finc f).cinch = s.cinch := rfl
@[simp] theorem State.finc_girth (f : Fld) : (s.finc f).girth = s.girth := rfl
@[simp] theorem State.finc_rtc (f : Fld) : (s.finc f).rtc = s.rtc := rfl
@[simp] theorem State.finc_timers (f : Fld) : (s.finc f).timers = s.timers := rfl
@[simp] theorem State.finc_flash (f : Fld) : (s.finc f).flash = s.flash := rfl
@[simp] theorem State.finc_wired (f : Fld) : (s.finc f).wired = s.wired := rfl
@[simp] theorem State.finc_pkg (f : Fld) : (s.finc f).pkg = s.pkg := rfl
@[simp] theorem State.finc_mono (f : Fld) : (s.finc f).mono = s.mono := rfl
@[simp] theorem State.finc_age (f : Fld) : (s.finc f).age = s.age := rfl
@[simp] theorem State.finc_freeCount (f : Fld) : (s.finc f).freeCount = s.freeCount := rfl

/-! ## `fsat` -/

@[simp] theorem State.fsat_pending (f : Fld) : (s.fsat f).pending = s.pending := rfl
@[simp] theorem State.fsat_variant (f : Fld) : (s.fsat f).variant = s.variant := rfl
@[simp] theorem State.fsat_wol (f : Fld) : (s.fsat f).wol = s.wol := rfl
@[simp] theorem State.fsat_mem (f : Fld) : (s.fsat f).mem = s.mem := rfl
@[simp] theorem State.fsat_upkeep (f : Fld) : (s.fsat f).upkeep = s.upkeep := rfl
@[simp] theorem State.fsat_engines (f : Fld) : (s.fsat f).engines = s.engines := rfl
@[simp] theorem State.fsat_faults (f : Fld) : (s.fsat f).faults = s.faults := rfl
@[simp] theorem State.fsat_clusters (f : Fld) : (s.fsat f).clusters = s.clusters := rfl
@[simp] theorem State.fsat_flight (f : Fld) : (s.fsat f).flight = s.flight := rfl
@[simp] theorem State.fsat_prioFlight (f : Fld) : (s.fsat f).prioFlight = s.prioFlight := rfl
@[simp] theorem State.fsat_log (f : Fld) : (s.fsat f).log = s.log := rfl
@[simp] theorem State.fsat_fuses (f : Fld) : (s.fsat f).fuses = s.fuses := rfl
@[simp] theorem State.fsat_cipher (f : Fld) : (s.fsat f).cipher = s.cipher := rfl
@[simp] theorem State.fsat_radio (f : Fld) : (s.fsat f).radio = s.radio := rfl
@[simp] theorem State.fsat_decoder (f : Fld) : (s.fsat f).decoder = s.decoder := rfl
@[simp] theorem State.fsat_relay (f : Fld) : (s.fsat f).relay = s.relay := rfl
@[simp] theorem State.fsat_cinch (f : Fld) : (s.fsat f).cinch = s.cinch := rfl
@[simp] theorem State.fsat_girth (f : Fld) : (s.fsat f).girth = s.girth := rfl
@[simp] theorem State.fsat_rtc (f : Fld) : (s.fsat f).rtc = s.rtc := rfl
@[simp] theorem State.fsat_timers (f : Fld) : (s.fsat f).timers = s.timers := rfl
@[simp] theorem State.fsat_flash (f : Fld) : (s.fsat f).flash = s.flash := rfl
@[simp] theorem State.fsat_wired (f : Fld) : (s.fsat f).wired = s.wired := rfl
@[simp] theorem State.fsat_pkg (f : Fld) : (s.fsat f).pkg = s.pkg := rfl
@[simp] theorem State.fsat_mono (f : Fld) : (s.fsat f).mono = s.mono := rfl
@[simp] theorem State.fsat_age (f : Fld) : (s.fsat f).age = s.age := rfl
@[simp] theorem State.fsat_freeCount (f : Fld) : (s.fsat f).freeCount = s.freeCount := rfl

/-! ## `setByte` -/

@[simp] theorem State.setByte_pending (k : Nat) (b : Byte) : (s.setByte k b).pending = s.pending := rfl
@[simp] theorem State.setByte_variant (k : Nat) (b : Byte) : (s.setByte k b).variant = s.variant := rfl
@[simp] theorem State.setByte_regs (k : Nat) (b : Byte) : (s.setByte k b).regs = s.regs := rfl
@[simp] theorem State.setByte_wol (k : Nat) (b : Byte) : (s.setByte k b).wol = s.wol := rfl
@[simp] theorem State.setByte_upkeep (k : Nat) (b : Byte) : (s.setByte k b).upkeep = s.upkeep := rfl
@[simp] theorem State.setByte_engines (k : Nat) (b : Byte) : (s.setByte k b).engines = s.engines := rfl
@[simp] theorem State.setByte_faults (k : Nat) (b : Byte) : (s.setByte k b).faults = s.faults := rfl
@[simp] theorem State.setByte_clusters (k : Nat) (b : Byte) : (s.setByte k b).clusters = s.clusters := rfl
@[simp] theorem State.setByte_flight (k : Nat) (b : Byte) : (s.setByte k b).flight = s.flight := rfl
@[simp] theorem State.setByte_prioFlight (k : Nat) (b : Byte) : (s.setByte k b).prioFlight = s.prioFlight := rfl
@[simp] theorem State.setByte_log (k : Nat) (b : Byte) : (s.setByte k b).log = s.log := rfl
@[simp] theorem State.setByte_fuses (k : Nat) (b : Byte) : (s.setByte k b).fuses = s.fuses := rfl
@[simp] theorem State.setByte_cipher (k : Nat) (b : Byte) : (s.setByte k b).cipher = s.cipher := rfl
@[simp] theorem State.setByte_radio (k : Nat) (b : Byte) : (s.setByte k b).radio = s.radio := rfl
@[simp] theorem State.setByte_decoder (k : Nat) (b : Byte) : (s.setByte k b).decoder = s.decoder := rfl
@[simp] theorem State.setByte_relay (k : Nat) (b : Byte) : (s.setByte k b).relay = s.relay := rfl
@[simp] theorem State.setByte_cinch (k : Nat) (b : Byte) : (s.setByte k b).cinch = s.cinch := rfl
@[simp] theorem State.setByte_girth (k : Nat) (b : Byte) : (s.setByte k b).girth = s.girth := rfl
@[simp] theorem State.setByte_rtc (k : Nat) (b : Byte) : (s.setByte k b).rtc = s.rtc := rfl
@[simp] theorem State.setByte_timers (k : Nat) (b : Byte) : (s.setByte k b).timers = s.timers := rfl
@[simp] theorem State.setByte_flash (k : Nat) (b : Byte) : (s.setByte k b).flash = s.flash := rfl
@[simp] theorem State.setByte_wired (k : Nat) (b : Byte) : (s.setByte k b).wired = s.wired := rfl
@[simp] theorem State.setByte_pkg (k : Nat) (b : Byte) : (s.setByte k b).pkg = s.pkg := rfl
@[simp] theorem State.setByte_mono (k : Nat) (b : Byte) : (s.setByte k b).mono = s.mono := rfl
@[simp] theorem State.setByte_age (k : Nat) (b : Byte) : (s.setByte k b).age = s.age := rfl
@[simp] theorem State.setByte_freeCount (k : Nat) (b : Byte) : (s.setByte k b).freeCount = s.freeCount := rfl

/-! ## `setEng` -/

@[simp] theorem State.setEng_pending (n : Nat) (e : Engine) : (s.setEng n e).pending = s.pending := rfl
@[simp] theorem State.setEng_variant (n : Nat) (e : Engine) : (s.setEng n e).variant = s.variant := rfl
@[simp] theorem State.setEng_regs (n : Nat) (e : Engine) : (s.setEng n e).regs = s.regs := rfl
@[simp] theorem State.setEng_wol (n : Nat) (e : Engine) : (s.setEng n e).wol = s.wol := rfl
@[simp] theorem State.setEng_mem (n : Nat) (e : Engine) : (s.setEng n e).mem = s.mem := rfl
@[simp] theorem State.setEng_upkeep (n : Nat) (e : Engine) : (s.setEng n e).upkeep = s.upkeep := rfl
@[simp] theorem State.setEng_faults (n : Nat) (e : Engine) : (s.setEng n e).faults = s.faults := rfl
@[simp] theorem State.setEng_clusters (n : Nat) (e : Engine) : (s.setEng n e).clusters = s.clusters := rfl
@[simp] theorem State.setEng_flight (n : Nat) (e : Engine) : (s.setEng n e).flight = s.flight := rfl
@[simp] theorem State.setEng_prioFlight (n : Nat) (e : Engine) : (s.setEng n e).prioFlight = s.prioFlight := rfl
@[simp] theorem State.setEng_log (n : Nat) (e : Engine) : (s.setEng n e).log = s.log := rfl
@[simp] theorem State.setEng_fuses (n : Nat) (e : Engine) : (s.setEng n e).fuses = s.fuses := rfl
@[simp] theorem State.setEng_cipher (n : Nat) (e : Engine) : (s.setEng n e).cipher = s.cipher := rfl
@[simp] theorem State.setEng_radio (n : Nat) (e : Engine) : (s.setEng n e).radio = s.radio := rfl
@[simp] theorem State.setEng_decoder (n : Nat) (e : Engine) : (s.setEng n e).decoder = s.decoder := rfl
@[simp] theorem State.setEng_relay (n : Nat) (e : Engine) : (s.setEng n e).relay = s.relay := rfl
@[simp] theorem State.setEng_cinch (n : Nat) (e : Engine) : (s.setEng n e).cinch = s.cinch := rfl
@[simp] theorem State.setEng_girth (n : Nat) (e : Engine) : (s.setEng n e).girth = s.girth := rfl
@[simp] theorem State.setEng_rtc (n : Nat) (e : Engine) : (s.setEng n e).rtc = s.rtc := rfl
@[simp] theorem State.setEng_timers (n : Nat) (e : Engine) : (s.setEng n e).timers = s.timers := rfl
@[simp] theorem State.setEng_flash (n : Nat) (e : Engine) : (s.setEng n e).flash = s.flash := rfl
@[simp] theorem State.setEng_wired (n : Nat) (e : Engine) : (s.setEng n e).wired = s.wired := rfl
@[simp] theorem State.setEng_pkg (n : Nat) (e : Engine) : (s.setEng n e).pkg = s.pkg := rfl
@[simp] theorem State.setEng_mono (n : Nat) (e : Engine) : (s.setEng n e).mono = s.mono := rfl
@[simp] theorem State.setEng_age (n : Nat) (e : Engine) : (s.setEng n e).age = s.age := rfl
@[simp] theorem State.setEng_freeCount (n : Nat) (e : Engine) : (s.setEng n e).freeCount = s.freeCount := rfl

/-! ## `modEng` -/

@[simp] theorem State.modEng_pending (n : Nat) (f : Engine → Engine) : (s.modEng n f).pending = s.pending := rfl
@[simp] theorem State.modEng_variant (n : Nat) (f : Engine → Engine) : (s.modEng n f).variant = s.variant := rfl
@[simp] theorem State.modEng_regs (n : Nat) (f : Engine → Engine) : (s.modEng n f).regs = s.regs := rfl
@[simp] theorem State.modEng_wol (n : Nat) (f : Engine → Engine) : (s.modEng n f).wol = s.wol := rfl
@[simp] theorem State.modEng_mem (n : Nat) (f : Engine → Engine) : (s.modEng n f).mem = s.mem := rfl
@[simp] theorem State.modEng_upkeep (n : Nat) (f : Engine → Engine) : (s.modEng n f).upkeep = s.upkeep := rfl
@[simp] theorem State.modEng_faults (n : Nat) (f : Engine → Engine) : (s.modEng n f).faults = s.faults := rfl
@[simp] theorem State.modEng_clusters (n : Nat) (f : Engine → Engine) : (s.modEng n f).clusters = s.clusters := rfl
@[simp] theorem State.modEng_flight (n : Nat) (f : Engine → Engine) : (s.modEng n f).flight = s.flight := rfl
@[simp] theorem State.modEng_prioFlight (n : Nat) (f : Engine → Engine) : (s.modEng n f).prioFlight = s.prioFlight := rfl
@[simp] theorem State.modEng_log (n : Nat) (f : Engine → Engine) : (s.modEng n f).log = s.log := rfl
@[simp] theorem State.modEng_fuses (n : Nat) (f : Engine → Engine) : (s.modEng n f).fuses = s.fuses := rfl
@[simp] theorem State.modEng_cipher (n : Nat) (f : Engine → Engine) : (s.modEng n f).cipher = s.cipher := rfl
@[simp] theorem State.modEng_radio (n : Nat) (f : Engine → Engine) : (s.modEng n f).radio = s.radio := rfl
@[simp] theorem State.modEng_decoder (n : Nat) (f : Engine → Engine) : (s.modEng n f).decoder = s.decoder := rfl
@[simp] theorem State.modEng_relay (n : Nat) (f : Engine → Engine) : (s.modEng n f).relay = s.relay := rfl
@[simp] theorem State.modEng_cinch (n : Nat) (f : Engine → Engine) : (s.modEng n f).cinch = s.cinch := rfl
@[simp] theorem State.modEng_girth (n : Nat) (f : Engine → Engine) : (s.modEng n f).girth = s.girth := rfl
@[simp] theorem State.modEng_rtc (n : Nat) (f : Engine → Engine) : (s.modEng n f).rtc = s.rtc := rfl
@[simp] theorem State.modEng_timers (n : Nat) (f : Engine → Engine) : (s.modEng n f).timers = s.timers := rfl
@[simp] theorem State.modEng_flash (n : Nat) (f : Engine → Engine) : (s.modEng n f).flash = s.flash := rfl
@[simp] theorem State.modEng_wired (n : Nat) (f : Engine → Engine) : (s.modEng n f).wired = s.wired := rfl
@[simp] theorem State.modEng_pkg (n : Nat) (f : Engine → Engine) : (s.modEng n f).pkg = s.pkg := rfl
@[simp] theorem State.modEng_mono (n : Nat) (f : Engine → Engine) : (s.modEng n f).mono = s.mono := rfl
@[simp] theorem State.modEng_age (n : Nat) (f : Engine → Engine) : (s.modEng n f).age = s.age := rfl
@[simp] theorem State.modEng_freeCount (n : Nat) (f : Engine → Engine) : (s.modEng n f).freeCount = s.freeCount := rfl

/-! ## `modClu` -/

@[simp] theorem State.modClu_pending (n : Nat) (f : Cluster → Cluster) : (s.modClu n f).pending = s.pending := rfl
@[simp] theorem State.modClu_variant (n : Nat) (f : Cluster → Cluster) : (s.modClu n f).variant = s.variant := rfl
@[simp] theorem State.modClu_regs (n : Nat) (f : Cluster → Cluster) : (s.modClu n f).regs = s.regs := rfl
@[simp] theorem State.modClu_wol (n : Nat) (f : Cluster → Cluster) : (s.modClu n f).wol = s.wol := rfl
@[simp] theorem State.modClu_mem (n : Nat) (f : Cluster → Cluster) : (s.modClu n f).mem = s.mem := rfl
@[simp] theorem State.modClu_upkeep (n : Nat) (f : Cluster → Cluster) : (s.modClu n f).upkeep = s.upkeep := rfl
@[simp] theorem State.modClu_engines (n : Nat) (f : Cluster → Cluster) : (s.modClu n f).engines = s.engines := rfl
@[simp] theorem State.modClu_faults (n : Nat) (f : Cluster → Cluster) : (s.modClu n f).faults = s.faults := rfl
@[simp] theorem State.modClu_flight (n : Nat) (f : Cluster → Cluster) : (s.modClu n f).flight = s.flight := rfl
@[simp] theorem State.modClu_prioFlight (n : Nat) (f : Cluster → Cluster) : (s.modClu n f).prioFlight = s.prioFlight := rfl
@[simp] theorem State.modClu_log (n : Nat) (f : Cluster → Cluster) : (s.modClu n f).log = s.log := rfl
@[simp] theorem State.modClu_fuses (n : Nat) (f : Cluster → Cluster) : (s.modClu n f).fuses = s.fuses := rfl
@[simp] theorem State.modClu_cipher (n : Nat) (f : Cluster → Cluster) : (s.modClu n f).cipher = s.cipher := rfl
@[simp] theorem State.modClu_radio (n : Nat) (f : Cluster → Cluster) : (s.modClu n f).radio = s.radio := rfl
@[simp] theorem State.modClu_decoder (n : Nat) (f : Cluster → Cluster) : (s.modClu n f).decoder = s.decoder := rfl
@[simp] theorem State.modClu_relay (n : Nat) (f : Cluster → Cluster) : (s.modClu n f).relay = s.relay := rfl
@[simp] theorem State.modClu_cinch (n : Nat) (f : Cluster → Cluster) : (s.modClu n f).cinch = s.cinch := rfl
@[simp] theorem State.modClu_girth (n : Nat) (f : Cluster → Cluster) : (s.modClu n f).girth = s.girth := rfl
@[simp] theorem State.modClu_rtc (n : Nat) (f : Cluster → Cluster) : (s.modClu n f).rtc = s.rtc := rfl
@[simp] theorem State.modClu_timers (n : Nat) (f : Cluster → Cluster) : (s.modClu n f).timers = s.timers := rfl
@[simp] theorem State.modClu_flash (n : Nat) (f : Cluster → Cluster) : (s.modClu n f).flash = s.flash := rfl
@[simp] theorem State.modClu_wired (n : Nat) (f : Cluster → Cluster) : (s.modClu n f).wired = s.wired := rfl
@[simp] theorem State.modClu_pkg (n : Nat) (f : Cluster → Cluster) : (s.modClu n f).pkg = s.pkg := rfl
@[simp] theorem State.modClu_mono (n : Nat) (f : Cluster → Cluster) : (s.modClu n f).mono = s.mono := rfl
@[simp] theorem State.modClu_age (n : Nat) (f : Cluster → Cluster) : (s.modClu n f).age = s.age := rfl
@[simp] theorem State.modClu_freeCount (n : Nat) (f : Cluster → Cluster) : (s.modClu n f).freeCount = s.freeCount := rfl

/-! ## `setFlip` -/

@[simp] theorem State.setFlip_pending (k : Nat) (f : BitVec 72) : (s.setFlip k f).pending = s.pending := rfl
@[simp] theorem State.setFlip_variant (k : Nat) (f : BitVec 72) : (s.setFlip k f).variant = s.variant := rfl
@[simp] theorem State.setFlip_regs (k : Nat) (f : BitVec 72) : (s.setFlip k f).regs = s.regs := rfl
@[simp] theorem State.setFlip_wol (k : Nat) (f : BitVec 72) : (s.setFlip k f).wol = s.wol := rfl
@[simp] theorem State.setFlip_mem (k : Nat) (f : BitVec 72) : (s.setFlip k f).mem = s.mem := rfl
@[simp] theorem State.setFlip_engines (k : Nat) (f : BitVec 72) : (s.setFlip k f).engines = s.engines := rfl
@[simp] theorem State.setFlip_faults (k : Nat) (f : BitVec 72) : (s.setFlip k f).faults = s.faults := rfl
@[simp] theorem State.setFlip_clusters (k : Nat) (f : BitVec 72) : (s.setFlip k f).clusters = s.clusters := rfl
@[simp] theorem State.setFlip_flight (k : Nat) (f : BitVec 72) : (s.setFlip k f).flight = s.flight := rfl
@[simp] theorem State.setFlip_prioFlight (k : Nat) (f : BitVec 72) : (s.setFlip k f).prioFlight = s.prioFlight := rfl
@[simp] theorem State.setFlip_log (k : Nat) (f : BitVec 72) : (s.setFlip k f).log = s.log := rfl
@[simp] theorem State.setFlip_fuses (k : Nat) (f : BitVec 72) : (s.setFlip k f).fuses = s.fuses := rfl
@[simp] theorem State.setFlip_cipher (k : Nat) (f : BitVec 72) : (s.setFlip k f).cipher = s.cipher := rfl
@[simp] theorem State.setFlip_radio (k : Nat) (f : BitVec 72) : (s.setFlip k f).radio = s.radio := rfl
@[simp] theorem State.setFlip_decoder (k : Nat) (f : BitVec 72) : (s.setFlip k f).decoder = s.decoder := rfl
@[simp] theorem State.setFlip_relay (k : Nat) (f : BitVec 72) : (s.setFlip k f).relay = s.relay := rfl
@[simp] theorem State.setFlip_cinch (k : Nat) (f : BitVec 72) : (s.setFlip k f).cinch = s.cinch := rfl
@[simp] theorem State.setFlip_girth (k : Nat) (f : BitVec 72) : (s.setFlip k f).girth = s.girth := rfl
@[simp] theorem State.setFlip_rtc (k : Nat) (f : BitVec 72) : (s.setFlip k f).rtc = s.rtc := rfl
@[simp] theorem State.setFlip_timers (k : Nat) (f : BitVec 72) : (s.setFlip k f).timers = s.timers := rfl
@[simp] theorem State.setFlip_flash (k : Nat) (f : BitVec 72) : (s.setFlip k f).flash = s.flash := rfl
@[simp] theorem State.setFlip_wired (k : Nat) (f : BitVec 72) : (s.setFlip k f).wired = s.wired := rfl
@[simp] theorem State.setFlip_pkg (k : Nat) (f : BitVec 72) : (s.setFlip k f).pkg = s.pkg := rfl
@[simp] theorem State.setFlip_mono (k : Nat) (f : BitVec 72) : (s.setFlip k f).mono = s.mono := rfl
@[simp] theorem State.setFlip_age (k : Nat) (f : BitVec 72) : (s.setFlip k f).age = s.age := rfl
@[simp] theorem State.setFlip_freeCount (k : Nat) (f : BitVec 72) : (s.setFlip k f).freeCount = s.freeCount := rfl

/-! ## `fill` -/

@[simp] theorem State.fill_pending (lo hi : Nat) : (s.fill lo hi).pending = s.pending := rfl
@[simp] theorem State.fill_variant (lo hi : Nat) : (s.fill lo hi).variant = s.variant := rfl
@[simp] theorem State.fill_regs (lo hi : Nat) : (s.fill lo hi).regs = s.regs := rfl
@[simp] theorem State.fill_wol (lo hi : Nat) : (s.fill lo hi).wol = s.wol := rfl
@[simp] theorem State.fill_engines (lo hi : Nat) : (s.fill lo hi).engines = s.engines := rfl
@[simp] theorem State.fill_faults (lo hi : Nat) : (s.fill lo hi).faults = s.faults := rfl
@[simp] theorem State.fill_clusters (lo hi : Nat) : (s.fill lo hi).clusters = s.clusters := rfl
@[simp] theorem State.fill_flight (lo hi : Nat) : (s.fill lo hi).flight = s.flight := rfl
@[simp] theorem State.fill_prioFlight (lo hi : Nat) : (s.fill lo hi).prioFlight = s.prioFlight := rfl
@[simp] theorem State.fill_log (lo hi : Nat) : (s.fill lo hi).log = s.log := rfl
@[simp] theorem State.fill_fuses (lo hi : Nat) : (s.fill lo hi).fuses = s.fuses := rfl
@[simp] theorem State.fill_cipher (lo hi : Nat) : (s.fill lo hi).cipher = s.cipher := rfl
@[simp] theorem State.fill_radio (lo hi : Nat) : (s.fill lo hi).radio = s.radio := rfl
@[simp] theorem State.fill_decoder (lo hi : Nat) : (s.fill lo hi).decoder = s.decoder := rfl
@[simp] theorem State.fill_relay (lo hi : Nat) : (s.fill lo hi).relay = s.relay := rfl
@[simp] theorem State.fill_cinch (lo hi : Nat) : (s.fill lo hi).cinch = s.cinch := rfl
@[simp] theorem State.fill_girth (lo hi : Nat) : (s.fill lo hi).girth = s.girth := rfl
@[simp] theorem State.fill_rtc (lo hi : Nat) : (s.fill lo hi).rtc = s.rtc := rfl
@[simp] theorem State.fill_timers (lo hi : Nat) : (s.fill lo hi).timers = s.timers := rfl
@[simp] theorem State.fill_flash (lo hi : Nat) : (s.fill lo hi).flash = s.flash := rfl
@[simp] theorem State.fill_wired (lo hi : Nat) : (s.fill lo hi).wired = s.wired := rfl
@[simp] theorem State.fill_pkg (lo hi : Nat) : (s.fill lo hi).pkg = s.pkg := rfl
@[simp] theorem State.fill_mono (lo hi : Nat) : (s.fill lo hi).mono = s.mono := rfl
@[simp] theorem State.fill_age (lo hi : Nat) : (s.fill lo hi).age = s.age := rfl
@[simp] theorem State.fill_freeCount (lo hi : Nat) : (s.fill lo hi).freeCount = s.freeCount := rfl

/-! ## `copyRange` -/

@[simp] theorem State.copyRange_pending (d r n : Nat) : (s.copyRange d r n).pending = s.pending := rfl
@[simp] theorem State.copyRange_variant (d r n : Nat) : (s.copyRange d r n).variant = s.variant := rfl
@[simp] theorem State.copyRange_regs (d r n : Nat) : (s.copyRange d r n).regs = s.regs := rfl
@[simp] theorem State.copyRange_wol (d r n : Nat) : (s.copyRange d r n).wol = s.wol := rfl
@[simp] theorem State.copyRange_engines (d r n : Nat) : (s.copyRange d r n).engines = s.engines := rfl
@[simp] theorem State.copyRange_faults (d r n : Nat) : (s.copyRange d r n).faults = s.faults := rfl
@[simp] theorem State.copyRange_clusters (d r n : Nat) : (s.copyRange d r n).clusters = s.clusters := rfl
@[simp] theorem State.copyRange_flight (d r n : Nat) : (s.copyRange d r n).flight = s.flight := rfl
@[simp] theorem State.copyRange_prioFlight (d r n : Nat) : (s.copyRange d r n).prioFlight = s.prioFlight := rfl
@[simp] theorem State.copyRange_log (d r n : Nat) : (s.copyRange d r n).log = s.log := rfl
@[simp] theorem State.copyRange_fuses (d r n : Nat) : (s.copyRange d r n).fuses = s.fuses := rfl
@[simp] theorem State.copyRange_cipher (d r n : Nat) : (s.copyRange d r n).cipher = s.cipher := rfl
@[simp] theorem State.copyRange_radio (d r n : Nat) : (s.copyRange d r n).radio = s.radio := rfl
@[simp] theorem State.copyRange_decoder (d r n : Nat) : (s.copyRange d r n).decoder = s.decoder := rfl
@[simp] theorem State.copyRange_relay (d r n : Nat) : (s.copyRange d r n).relay = s.relay := rfl
@[simp] theorem State.copyRange_cinch (d r n : Nat) : (s.copyRange d r n).cinch = s.cinch := rfl
@[simp] theorem State.copyRange_girth (d r n : Nat) : (s.copyRange d r n).girth = s.girth := rfl
@[simp] theorem State.copyRange_rtc (d r n : Nat) : (s.copyRange d r n).rtc = s.rtc := rfl
@[simp] theorem State.copyRange_timers (d r n : Nat) : (s.copyRange d r n).timers = s.timers := rfl
@[simp] theorem State.copyRange_flash (d r n : Nat) : (s.copyRange d r n).flash = s.flash := rfl
@[simp] theorem State.copyRange_wired (d r n : Nat) : (s.copyRange d r n).wired = s.wired := rfl
@[simp] theorem State.copyRange_pkg (d r n : Nat) : (s.copyRange d r n).pkg = s.pkg := rfl
@[simp] theorem State.copyRange_mono (d r n : Nat) : (s.copyRange d r n).mono = s.mono := rfl
@[simp] theorem State.copyRange_age (d r n : Nat) : (s.copyRange d r n).age = s.age := rfl
@[simp] theorem State.copyRange_freeCount (d r n : Nat) : (s.copyRange d r n).freeCount = s.freeCount := rfl

/-! ## `post` -/

@[simp] theorem State.post_pending (n k l a b c : Nat) : (s.post n k l a b c).pending = s.pending := rfl
@[simp] theorem State.post_variant (n k l a b c : Nat) : (s.post n k l a b c).variant = s.variant := rfl
@[simp] theorem State.post_regs (n k l a b c : Nat) : (s.post n k l a b c).regs = s.regs := rfl
@[simp] theorem State.post_wol (n k l a b c : Nat) : (s.post n k l a b c).wol = s.wol := rfl
@[simp] theorem State.post_mem (n k l a b c : Nat) : (s.post n k l a b c).mem = s.mem := rfl
@[simp] theorem State.post_upkeep (n k l a b c : Nat) : (s.post n k l a b c).upkeep = s.upkeep := rfl
@[simp] theorem State.post_engines (n k l a b c : Nat) : (s.post n k l a b c).engines = s.engines := rfl
@[simp] theorem State.post_faults (n k l a b c : Nat) : (s.post n k l a b c).faults = s.faults := rfl
@[simp] theorem State.post_clusters (n k l a b c : Nat) : (s.post n k l a b c).clusters = s.clusters := rfl
@[simp] theorem State.post_prioFlight (n k l a b c : Nat) : (s.post n k l a b c).prioFlight = s.prioFlight := rfl
@[simp] theorem State.post_log (n k l a b c : Nat) : (s.post n k l a b c).log = s.log := rfl
@[simp] theorem State.post_fuses (n k l a b c : Nat) : (s.post n k l a b c).fuses = s.fuses := rfl
@[simp] theorem State.post_cipher (n k l a b c : Nat) : (s.post n k l a b c).cipher = s.cipher := rfl
@[simp] theorem State.post_radio (n k l a b c : Nat) : (s.post n k l a b c).radio = s.radio := rfl
@[simp] theorem State.post_decoder (n k l a b c : Nat) : (s.post n k l a b c).decoder = s.decoder := rfl
@[simp] theorem State.post_relay (n k l a b c : Nat) : (s.post n k l a b c).relay = s.relay := rfl
@[simp] theorem State.post_cinch (n k l a b c : Nat) : (s.post n k l a b c).cinch = s.cinch := rfl
@[simp] theorem State.post_girth (n k l a b c : Nat) : (s.post n k l a b c).girth = s.girth := rfl
@[simp] theorem State.post_rtc (n k l a b c : Nat) : (s.post n k l a b c).rtc = s.rtc := rfl
@[simp] theorem State.post_timers (n k l a b c : Nat) : (s.post n k l a b c).timers = s.timers := rfl
@[simp] theorem State.post_flash (n k l a b c : Nat) : (s.post n k l a b c).flash = s.flash := rfl
@[simp] theorem State.post_wired (n k l a b c : Nat) : (s.post n k l a b c).wired = s.wired := rfl
@[simp] theorem State.post_pkg (n k l a b c : Nat) : (s.post n k l a b c).pkg = s.pkg := rfl
@[simp] theorem State.post_mono (n k l a b c : Nat) : (s.post n k l a b c).mono = s.mono := rfl
@[simp] theorem State.post_age (n k l a b c : Nat) : (s.post n k l a b c).age = s.age := rfl
@[simp] theorem State.post_freeCount (n k l a b c : Nat) : (s.post n k l a b c).freeCount = s.freeCount := rfl

/-! ## `alarm` -/

@[simp] theorem State.alarm_pending (a b c : Nat) : (s.alarm a b c).pending = s.pending := rfl
@[simp] theorem State.alarm_variant (a b c : Nat) : (s.alarm a b c).variant = s.variant := rfl
@[simp] theorem State.alarm_regs (a b c : Nat) : (s.alarm a b c).regs = s.regs := rfl
@[simp] theorem State.alarm_wol (a b c : Nat) : (s.alarm a b c).wol = s.wol := rfl
@[simp] theorem State.alarm_mem (a b c : Nat) : (s.alarm a b c).mem = s.mem := rfl
@[simp] theorem State.alarm_upkeep (a b c : Nat) : (s.alarm a b c).upkeep = s.upkeep := rfl
@[simp] theorem State.alarm_engines (a b c : Nat) : (s.alarm a b c).engines = s.engines := rfl
@[simp] theorem State.alarm_faults (a b c : Nat) : (s.alarm a b c).faults = s.faults := rfl
@[simp] theorem State.alarm_clusters (a b c : Nat) : (s.alarm a b c).clusters = s.clusters := rfl
@[simp] theorem State.alarm_prioFlight (a b c : Nat) : (s.alarm a b c).prioFlight = s.prioFlight := rfl
@[simp] theorem State.alarm_log (a b c : Nat) : (s.alarm a b c).log = s.log := rfl
@[simp] theorem State.alarm_fuses (a b c : Nat) : (s.alarm a b c).fuses = s.fuses := rfl
@[simp] theorem State.alarm_cipher (a b c : Nat) : (s.alarm a b c).cipher = s.cipher := rfl
@[simp] theorem State.alarm_radio (a b c : Nat) : (s.alarm a b c).radio = s.radio := rfl
@[simp] theorem State.alarm_decoder (a b c : Nat) : (s.alarm a b c).decoder = s.decoder := rfl
@[simp] theorem State.alarm_relay (a b c : Nat) : (s.alarm a b c).relay = s.relay := rfl
@[simp] theorem State.alarm_cinch (a b c : Nat) : (s.alarm a b c).cinch = s.cinch := rfl
@[simp] theorem State.alarm_girth (a b c : Nat) : (s.alarm a b c).girth = s.girth := rfl
@[simp] theorem State.alarm_rtc (a b c : Nat) : (s.alarm a b c).rtc = s.rtc := rfl
@[simp] theorem State.alarm_timers (a b c : Nat) : (s.alarm a b c).timers = s.timers := rfl
@[simp] theorem State.alarm_flash (a b c : Nat) : (s.alarm a b c).flash = s.flash := rfl
@[simp] theorem State.alarm_wired (a b c : Nat) : (s.alarm a b c).wired = s.wired := rfl
@[simp] theorem State.alarm_pkg (a b c : Nat) : (s.alarm a b c).pkg = s.pkg := rfl
@[simp] theorem State.alarm_mono (a b c : Nat) : (s.alarm a b c).mono = s.mono := rfl
@[simp] theorem State.alarm_age (a b c : Nat) : (s.alarm a b c).age = s.age := rfl
@[simp] theorem State.alarm_freeCount (a b c : Nat) : (s.alarm a b c).freeCount = s.freeCount := rfl

/-! ## `modCinch` -/

@[simp] theorem State.modCinch_pending (f : CinchSt → CinchSt) : (s.modCinch f).pending = s.pending := rfl
@[simp] theorem State.modCinch_variant (f : CinchSt → CinchSt) : (s.modCinch f).variant = s.variant := rfl
@[simp] theorem State.modCinch_regs (f : CinchSt → CinchSt) : (s.modCinch f).regs = s.regs := rfl
@[simp] theorem State.modCinch_wol (f : CinchSt → CinchSt) : (s.modCinch f).wol = s.wol := rfl
@[simp] theorem State.modCinch_mem (f : CinchSt → CinchSt) : (s.modCinch f).mem = s.mem := rfl
@[simp] theorem State.modCinch_upkeep (f : CinchSt → CinchSt) : (s.modCinch f).upkeep = s.upkeep := rfl
@[simp] theorem State.modCinch_engines (f : CinchSt → CinchSt) : (s.modCinch f).engines = s.engines := rfl
@[simp] theorem State.modCinch_faults (f : CinchSt → CinchSt) : (s.modCinch f).faults = s.faults := rfl
@[simp] theorem State.modCinch_clusters (f : CinchSt → CinchSt) : (s.modCinch f).clusters = s.clusters := rfl
@[simp] theorem State.modCinch_flight (f : CinchSt → CinchSt) : (s.modCinch f).flight = s.flight := rfl
@[simp] theorem State.modCinch_prioFlight (f : CinchSt → CinchSt) : (s.modCinch f).prioFlight = s.prioFlight := rfl
@[simp] theorem State.modCinch_log (f : CinchSt → CinchSt) : (s.modCinch f).log = s.log := rfl
@[simp] theorem State.modCinch_fuses (f : CinchSt → CinchSt) : (s.modCinch f).fuses = s.fuses := rfl
@[simp] theorem State.modCinch_cipher (f : CinchSt → CinchSt) : (s.modCinch f).cipher = s.cipher := rfl
@[simp] theorem State.modCinch_radio (f : CinchSt → CinchSt) : (s.modCinch f).radio = s.radio := rfl
@[simp] theorem State.modCinch_decoder (f : CinchSt → CinchSt) : (s.modCinch f).decoder = s.decoder := rfl
@[simp] theorem State.modCinch_relay (f : CinchSt → CinchSt) : (s.modCinch f).relay = s.relay := rfl
@[simp] theorem State.modCinch_girth (f : CinchSt → CinchSt) : (s.modCinch f).girth = s.girth := rfl
@[simp] theorem State.modCinch_rtc (f : CinchSt → CinchSt) : (s.modCinch f).rtc = s.rtc := rfl
@[simp] theorem State.modCinch_timers (f : CinchSt → CinchSt) : (s.modCinch f).timers = s.timers := rfl
@[simp] theorem State.modCinch_flash (f : CinchSt → CinchSt) : (s.modCinch f).flash = s.flash := rfl
@[simp] theorem State.modCinch_wired (f : CinchSt → CinchSt) : (s.modCinch f).wired = s.wired := rfl
@[simp] theorem State.modCinch_pkg (f : CinchSt → CinchSt) : (s.modCinch f).pkg = s.pkg := rfl
@[simp] theorem State.modCinch_mono (f : CinchSt → CinchSt) : (s.modCinch f).mono = s.mono := rfl
@[simp] theorem State.modCinch_age (f : CinchSt → CinchSt) : (s.modCinch f).age = s.age := rfl
@[simp] theorem State.modCinch_freeCount (f : CinchSt → CinchSt) : (s.modCinch f).freeCount = s.freeCount := rfl

/-! ## `modPkg` -/

@[simp] theorem State.modPkg_pending (f : PkgSt → PkgSt) : (s.modPkg f).pending = s.pending := rfl
@[simp] theorem State.modPkg_variant (f : PkgSt → PkgSt) : (s.modPkg f).variant = s.variant := rfl
@[simp] theorem State.modPkg_regs (f : PkgSt → PkgSt) : (s.modPkg f).regs = s.regs := rfl
@[simp] theorem State.modPkg_wol (f : PkgSt → PkgSt) : (s.modPkg f).wol = s.wol := rfl
@[simp] theorem State.modPkg_mem (f : PkgSt → PkgSt) : (s.modPkg f).mem = s.mem := rfl
@[simp] theorem State.modPkg_upkeep (f : PkgSt → PkgSt) : (s.modPkg f).upkeep = s.upkeep := rfl
@[simp] theorem State.modPkg_engines (f : PkgSt → PkgSt) : (s.modPkg f).engines = s.engines := rfl
@[simp] theorem State.modPkg_faults (f : PkgSt → PkgSt) : (s.modPkg f).faults = s.faults := rfl
@[simp] theorem State.modPkg_clusters (f : PkgSt → PkgSt) : (s.modPkg f).clusters = s.clusters := rfl
@[simp] theorem State.modPkg_flight (f : PkgSt → PkgSt) : (s.modPkg f).flight = s.flight := rfl
@[simp] theorem State.modPkg_prioFlight (f : PkgSt → PkgSt) : (s.modPkg f).prioFlight = s.prioFlight := rfl
@[simp] theorem State.modPkg_log (f : PkgSt → PkgSt) : (s.modPkg f).log = s.log := rfl
@[simp] theorem State.modPkg_fuses (f : PkgSt → PkgSt) : (s.modPkg f).fuses = s.fuses := rfl
@[simp] theorem State.modPkg_cipher (f : PkgSt → PkgSt) : (s.modPkg f).cipher = s.cipher := rfl
@[simp] theorem State.modPkg_radio (f : PkgSt → PkgSt) : (s.modPkg f).radio = s.radio := rfl
@[simp] theorem State.modPkg_decoder (f : PkgSt → PkgSt) : (s.modPkg f).decoder = s.decoder := rfl
@[simp] theorem State.modPkg_relay (f : PkgSt → PkgSt) : (s.modPkg f).relay = s.relay := rfl
@[simp] theorem State.modPkg_cinch (f : PkgSt → PkgSt) : (s.modPkg f).cinch = s.cinch := rfl
@[simp] theorem State.modPkg_girth (f : PkgSt → PkgSt) : (s.modPkg f).girth = s.girth := rfl
@[simp] theorem State.modPkg_rtc (f : PkgSt → PkgSt) : (s.modPkg f).rtc = s.rtc := rfl
@[simp] theorem State.modPkg_timers (f : PkgSt → PkgSt) : (s.modPkg f).timers = s.timers := rfl
@[simp] theorem State.modPkg_flash (f : PkgSt → PkgSt) : (s.modPkg f).flash = s.flash := rfl
@[simp] theorem State.modPkg_wired (f : PkgSt → PkgSt) : (s.modPkg f).wired = s.wired := rfl
@[simp] theorem State.modPkg_mono (f : PkgSt → PkgSt) : (s.modPkg f).mono = s.mono := rfl
@[simp] theorem State.modPkg_age (f : PkgSt → PkgSt) : (s.modPkg f).age = s.age := rfl
@[simp] theorem State.modPkg_freeCount (f : PkgSt → PkgSt) : (s.modPkg f).freeCount = s.freeCount := rfl

/-! ## `modGirth` -/

@[simp] theorem State.modGirth_pending (f : GirthSt → GirthSt) : (s.modGirth f).pending = s.pending := rfl
@[simp] theorem State.modGirth_variant (f : GirthSt → GirthSt) : (s.modGirth f).variant = s.variant := rfl
@[simp] theorem State.modGirth_regs (f : GirthSt → GirthSt) : (s.modGirth f).regs = s.regs := rfl
@[simp] theorem State.modGirth_wol (f : GirthSt → GirthSt) : (s.modGirth f).wol = s.wol := rfl
@[simp] theorem State.modGirth_mem (f : GirthSt → GirthSt) : (s.modGirth f).mem = s.mem := rfl
@[simp] theorem State.modGirth_upkeep (f : GirthSt → GirthSt) : (s.modGirth f).upkeep = s.upkeep := rfl
@[simp] theorem State.modGirth_engines (f : GirthSt → GirthSt) : (s.modGirth f).engines = s.engines := rfl
@[simp] theorem State.modGirth_faults (f : GirthSt → GirthSt) : (s.modGirth f).faults = s.faults := rfl
@[simp] theorem State.modGirth_clusters (f : GirthSt → GirthSt) : (s.modGirth f).clusters = s.clusters := rfl
@[simp] theorem State.modGirth_flight (f : GirthSt → GirthSt) : (s.modGirth f).flight = s.flight := rfl
@[simp] theorem State.modGirth_prioFlight (f : GirthSt → GirthSt) : (s.modGirth f).prioFlight = s.prioFlight := rfl
@[simp] theorem State.modGirth_log (f : GirthSt → GirthSt) : (s.modGirth f).log = s.log := rfl
@[simp] theorem State.modGirth_fuses (f : GirthSt → GirthSt) : (s.modGirth f).fuses = s.fuses := rfl
@[simp] theorem State.modGirth_cipher (f : GirthSt → GirthSt) : (s.modGirth f).cipher = s.cipher := rfl
@[simp] theorem State.modGirth_radio (f : GirthSt → GirthSt) : (s.modGirth f).radio = s.radio := rfl
@[simp] theorem State.modGirth_decoder (f : GirthSt → GirthSt) : (s.modGirth f).decoder = s.decoder := rfl
@[simp] theorem State.modGirth_relay (f : GirthSt → GirthSt) : (s.modGirth f).relay = s.relay := rfl
@[simp] theorem State.modGirth_cinch (f : GirthSt → GirthSt) : (s.modGirth f).cinch = s.cinch := rfl
@[simp] theorem State.modGirth_rtc (f : GirthSt → GirthSt) : (s.modGirth f).rtc = s.rtc := rfl
@[simp] theorem State.modGirth_timers (f : GirthSt → GirthSt) : (s.modGirth f).timers = s.timers := rfl
@[simp] theorem State.modGirth_flash (f : GirthSt → GirthSt) : (s.modGirth f).flash = s.flash := rfl
@[simp] theorem State.modGirth_wired (f : GirthSt → GirthSt) : (s.modGirth f).wired = s.wired := rfl
@[simp] theorem State.modGirth_pkg (f : GirthSt → GirthSt) : (s.modGirth f).pkg = s.pkg := rfl
@[simp] theorem State.modGirth_mono (f : GirthSt → GirthSt) : (s.modGirth f).mono = s.mono := rfl
@[simp] theorem State.modGirth_age (f : GirthSt → GirthSt) : (s.modGirth f).age = s.age := rfl
@[simp] theorem State.modGirth_freeCount (f : GirthSt → GirthSt) : (s.modGirth f).freeCount = s.freeCount := rfl

/-! ## `modFlash` -/

@[simp] theorem State.modFlash_pending (f : FlashSt → FlashSt) : (s.modFlash f).pending = s.pending := rfl
@[simp] theorem State.modFlash_variant (f : FlashSt → FlashSt) : (s.modFlash f).variant = s.variant := rfl
@[simp] theorem State.modFlash_regs (f : FlashSt → FlashSt) : (s.modFlash f).regs = s.regs := rfl
@[simp] theorem State.modFlash_wol (f : FlashSt → FlashSt) : (s.modFlash f).wol = s.wol := rfl
@[simp] theorem State.modFlash_mem (f : FlashSt → FlashSt) : (s.modFlash f).mem = s.mem := rfl
@[simp] theorem State.modFlash_upkeep (f : FlashSt → FlashSt) : (s.modFlash f).upkeep = s.upkeep := rfl
@[simp] theorem State.modFlash_engines (f : FlashSt → FlashSt) : (s.modFlash f).engines = s.engines := rfl
@[simp] theorem State.modFlash_faults (f : FlashSt → FlashSt) : (s.modFlash f).faults = s.faults := rfl
@[simp] theorem State.modFlash_clusters (f : FlashSt → FlashSt) : (s.modFlash f).clusters = s.clusters := rfl
@[simp] theorem State.modFlash_flight (f : FlashSt → FlashSt) : (s.modFlash f).flight = s.flight := rfl
@[simp] theorem State.modFlash_prioFlight (f : FlashSt → FlashSt) : (s.modFlash f).prioFlight = s.prioFlight := rfl
@[simp] theorem State.modFlash_log (f : FlashSt → FlashSt) : (s.modFlash f).log = s.log := rfl
@[simp] theorem State.modFlash_fuses (f : FlashSt → FlashSt) : (s.modFlash f).fuses = s.fuses := rfl
@[simp] theorem State.modFlash_cipher (f : FlashSt → FlashSt) : (s.modFlash f).cipher = s.cipher := rfl
@[simp] theorem State.modFlash_radio (f : FlashSt → FlashSt) : (s.modFlash f).radio = s.radio := rfl
@[simp] theorem State.modFlash_decoder (f : FlashSt → FlashSt) : (s.modFlash f).decoder = s.decoder := rfl
@[simp] theorem State.modFlash_relay (f : FlashSt → FlashSt) : (s.modFlash f).relay = s.relay := rfl
@[simp] theorem State.modFlash_cinch (f : FlashSt → FlashSt) : (s.modFlash f).cinch = s.cinch := rfl
@[simp] theorem State.modFlash_girth (f : FlashSt → FlashSt) : (s.modFlash f).girth = s.girth := rfl
@[simp] theorem State.modFlash_rtc (f : FlashSt → FlashSt) : (s.modFlash f).rtc = s.rtc := rfl
@[simp] theorem State.modFlash_timers (f : FlashSt → FlashSt) : (s.modFlash f).timers = s.timers := rfl
@[simp] theorem State.modFlash_wired (f : FlashSt → FlashSt) : (s.modFlash f).wired = s.wired := rfl
@[simp] theorem State.modFlash_pkg (f : FlashSt → FlashSt) : (s.modFlash f).pkg = s.pkg := rfl
@[simp] theorem State.modFlash_mono (f : FlashSt → FlashSt) : (s.modFlash f).mono = s.mono := rfl
@[simp] theorem State.modFlash_age (f : FlashSt → FlashSt) : (s.modFlash f).age = s.age := rfl
@[simp] theorem State.modFlash_freeCount (f : FlashSt → FlashSt) : (s.modFlash f).freeCount = s.freeCount := rfl

/-! ## `modDec` -/

@[simp] theorem State.modDec_pending (f : DecoderSt → DecoderSt) : (s.modDec f).pending = s.pending := rfl
@[simp] theorem State.modDec_variant (f : DecoderSt → DecoderSt) : (s.modDec f).variant = s.variant := rfl
@[simp] theorem State.modDec_regs (f : DecoderSt → DecoderSt) : (s.modDec f).regs = s.regs := rfl
@[simp] theorem State.modDec_wol (f : DecoderSt → DecoderSt) : (s.modDec f).wol = s.wol := rfl
@[simp] theorem State.modDec_mem (f : DecoderSt → DecoderSt) : (s.modDec f).mem = s.mem := rfl
@[simp] theorem State.modDec_upkeep (f : DecoderSt → DecoderSt) : (s.modDec f).upkeep = s.upkeep := rfl
@[simp] theorem State.modDec_engines (f : DecoderSt → DecoderSt) : (s.modDec f).engines = s.engines := rfl
@[simp] theorem State.modDec_faults (f : DecoderSt → DecoderSt) : (s.modDec f).faults = s.faults := rfl
@[simp] theorem State.modDec_clusters (f : DecoderSt → DecoderSt) : (s.modDec f).clusters = s.clusters := rfl
@[simp] theorem State.modDec_flight (f : DecoderSt → DecoderSt) : (s.modDec f).flight = s.flight := rfl
@[simp] theorem State.modDec_prioFlight (f : DecoderSt → DecoderSt) : (s.modDec f).prioFlight = s.prioFlight := rfl
@[simp] theorem State.modDec_log (f : DecoderSt → DecoderSt) : (s.modDec f).log = s.log := rfl
@[simp] theorem State.modDec_fuses (f : DecoderSt → DecoderSt) : (s.modDec f).fuses = s.fuses := rfl
@[simp] theorem State.modDec_cipher (f : DecoderSt → DecoderSt) : (s.modDec f).cipher = s.cipher := rfl
@[simp] theorem State.modDec_radio (f : DecoderSt → DecoderSt) : (s.modDec f).radio = s.radio := rfl
@[simp] theorem State.modDec_relay (f : DecoderSt → DecoderSt) : (s.modDec f).relay = s.relay := rfl
@[simp] theorem State.modDec_cinch (f : DecoderSt → DecoderSt) : (s.modDec f).cinch = s.cinch := rfl
@[simp] theorem State.modDec_girth (f : DecoderSt → DecoderSt) : (s.modDec f).girth = s.girth := rfl
@[simp] theorem State.modDec_rtc (f : DecoderSt → DecoderSt) : (s.modDec f).rtc = s.rtc := rfl
@[simp] theorem State.modDec_timers (f : DecoderSt → DecoderSt) : (s.modDec f).timers = s.timers := rfl
@[simp] theorem State.modDec_flash (f : DecoderSt → DecoderSt) : (s.modDec f).flash = s.flash := rfl
@[simp] theorem State.modDec_wired (f : DecoderSt → DecoderSt) : (s.modDec f).wired = s.wired := rfl
@[simp] theorem State.modDec_pkg (f : DecoderSt → DecoderSt) : (s.modDec f).pkg = s.pkg := rfl
@[simp] theorem State.modDec_mono (f : DecoderSt → DecoderSt) : (s.modDec f).mono = s.mono := rfl
@[simp] theorem State.modDec_age (f : DecoderSt → DecoderSt) : (s.modDec f).age = s.age := rfl
@[simp] theorem State.modDec_freeCount (f : DecoderSt → DecoderSt) : (s.modDec f).freeCount = s.freeCount := rfl

/-! ## `modRelay` -/

@[simp] theorem State.modRelay_pending (f : RelaySt → RelaySt) : (s.modRelay f).pending = s.pending := rfl
@[simp] theorem State.modRelay_variant (f : RelaySt → RelaySt) : (s.modRelay f).variant = s.variant := rfl
@[simp] theorem State.modRelay_regs (f : RelaySt → RelaySt) : (s.modRelay f).regs = s.regs := rfl
@[simp] theorem State.modRelay_wol (f : RelaySt → RelaySt) : (s.modRelay f).wol = s.wol := rfl
@[simp] theorem State.modRelay_mem (f : RelaySt → RelaySt) : (s.modRelay f).mem = s.mem := rfl
@[simp] theorem State.modRelay_upkeep (f : RelaySt → RelaySt) : (s.modRelay f).upkeep = s.upkeep := rfl
@[simp] theorem State.modRelay_engines (f : RelaySt → RelaySt) : (s.modRelay f).engines = s.engines := rfl
@[simp] theorem State.modRelay_faults (f : RelaySt → RelaySt) : (s.modRelay f).faults = s.faults := rfl
@[simp] theorem State.modRelay_clusters (f : RelaySt → RelaySt) : (s.modRelay f).clusters = s.clusters := rfl
@[simp] theorem State.modRelay_flight (f : RelaySt → RelaySt) : (s.modRelay f).flight = s.flight := rfl
@[simp] theorem State.modRelay_prioFlight (f : RelaySt → RelaySt) : (s.modRelay f).prioFlight = s.prioFlight := rfl
@[simp] theorem State.modRelay_log (f : RelaySt → RelaySt) : (s.modRelay f).log = s.log := rfl
@[simp] theorem State.modRelay_fuses (f : RelaySt → RelaySt) : (s.modRelay f).fuses = s.fuses := rfl
@[simp] theorem State.modRelay_cipher (f : RelaySt → RelaySt) : (s.modRelay f).cipher = s.cipher := rfl
@[simp] theorem State.modRelay_radio (f : RelaySt → RelaySt) : (s.modRelay f).radio = s.radio := rfl
@[simp] theorem State.modRelay_decoder (f : RelaySt → RelaySt) : (s.modRelay f).decoder = s.decoder := rfl
@[simp] theorem State.modRelay_cinch (f : RelaySt → RelaySt) : (s.modRelay f).cinch = s.cinch := rfl
@[simp] theorem State.modRelay_girth (f : RelaySt → RelaySt) : (s.modRelay f).girth = s.girth := rfl
@[simp] theorem State.modRelay_rtc (f : RelaySt → RelaySt) : (s.modRelay f).rtc = s.rtc := rfl
@[simp] theorem State.modRelay_timers (f : RelaySt → RelaySt) : (s.modRelay f).timers = s.timers := rfl
@[simp] theorem State.modRelay_flash (f : RelaySt → RelaySt) : (s.modRelay f).flash = s.flash := rfl
@[simp] theorem State.modRelay_wired (f : RelaySt → RelaySt) : (s.modRelay f).wired = s.wired := rfl
@[simp] theorem State.modRelay_pkg (f : RelaySt → RelaySt) : (s.modRelay f).pkg = s.pkg := rfl
@[simp] theorem State.modRelay_mono (f : RelaySt → RelaySt) : (s.modRelay f).mono = s.mono := rfl
@[simp] theorem State.modRelay_age (f : RelaySt → RelaySt) : (s.modRelay f).age = s.age := rfl
@[simp] theorem State.modRelay_freeCount (f : RelaySt → RelaySt) : (s.modRelay f).freeCount = s.freeCount := rfl

/-! ## `modChain` -/

@[simp] theorem State.modChain_pending (c : Nat) (f : ChainSt → ChainSt) : (s.modChain c f).pending = s.pending := rfl
@[simp] theorem State.modChain_variant (c : Nat) (f : ChainSt → ChainSt) : (s.modChain c f).variant = s.variant := rfl
@[simp] theorem State.modChain_regs (c : Nat) (f : ChainSt → ChainSt) : (s.modChain c f).regs = s.regs := rfl
@[simp] theorem State.modChain_wol (c : Nat) (f : ChainSt → ChainSt) : (s.modChain c f).wol = s.wol := rfl
@[simp] theorem State.modChain_mem (c : Nat) (f : ChainSt → ChainSt) : (s.modChain c f).mem = s.mem := rfl
@[simp] theorem State.modChain_upkeep (c : Nat) (f : ChainSt → ChainSt) : (s.modChain c f).upkeep = s.upkeep := rfl
@[simp] theorem State.modChain_engines (c : Nat) (f : ChainSt → ChainSt) : (s.modChain c f).engines = s.engines := rfl
@[simp] theorem State.modChain_faults (c : Nat) (f : ChainSt → ChainSt) : (s.modChain c f).faults = s.faults := rfl
@[simp] theorem State.modChain_clusters (c : Nat) (f : ChainSt → ChainSt) : (s.modChain c f).clusters = s.clusters := rfl
@[simp] theorem State.modChain_flight (c : Nat) (f : ChainSt → ChainSt) : (s.modChain c f).flight = s.flight := rfl
@[simp] theorem State.modChain_prioFlight (c : Nat) (f : ChainSt → ChainSt) : (s.modChain c f).prioFlight = s.prioFlight := rfl
@[simp] theorem State.modChain_log (c : Nat) (f : ChainSt → ChainSt) : (s.modChain c f).log = s.log := rfl
@[simp] theorem State.modChain_fuses (c : Nat) (f : ChainSt → ChainSt) : (s.modChain c f).fuses = s.fuses := rfl
@[simp] theorem State.modChain_cipher (c : Nat) (f : ChainSt → ChainSt) : (s.modChain c f).cipher = s.cipher := rfl
@[simp] theorem State.modChain_decoder (c : Nat) (f : ChainSt → ChainSt) : (s.modChain c f).decoder = s.decoder := rfl
@[simp] theorem State.modChain_relay (c : Nat) (f : ChainSt → ChainSt) : (s.modChain c f).relay = s.relay := rfl
@[simp] theorem State.modChain_cinch (c : Nat) (f : ChainSt → ChainSt) : (s.modChain c f).cinch = s.cinch := rfl
@[simp] theorem State.modChain_girth (c : Nat) (f : ChainSt → ChainSt) : (s.modChain c f).girth = s.girth := rfl
@[simp] theorem State.modChain_rtc (c : Nat) (f : ChainSt → ChainSt) : (s.modChain c f).rtc = s.rtc := rfl
@[simp] theorem State.modChain_timers (c : Nat) (f : ChainSt → ChainSt) : (s.modChain c f).timers = s.timers := rfl
@[simp] theorem State.modChain_flash (c : Nat) (f : ChainSt → ChainSt) : (s.modChain c f).flash = s.flash := rfl
@[simp] theorem State.modChain_wired (c : Nat) (f : ChainSt → ChainSt) : (s.modChain c f).wired = s.wired := rfl
@[simp] theorem State.modChain_pkg (c : Nat) (f : ChainSt → ChainSt) : (s.modChain c f).pkg = s.pkg := rfl
@[simp] theorem State.modChain_mono (c : Nat) (f : ChainSt → ChainSt) : (s.modChain c f).mono = s.mono := rfl
@[simp] theorem State.modChain_age (c : Nat) (f : ChainSt → ChainSt) : (s.modChain c f).age = s.age := rfl
@[simp] theorem State.modChain_freeCount (c : Nat) (f : ChainSt → ChainSt) : (s.modChain c f).freeCount = s.freeCount := rfl

/-! ## `modPath` -/

@[simp] theorem State.modPath_pending (p : Nat) (f : PathSt → PathSt) : (s.modPath p f).pending = s.pending := rfl
@[simp] theorem State.modPath_variant (p : Nat) (f : PathSt → PathSt) : (s.modPath p f).variant = s.variant := rfl
@[simp] theorem State.modPath_regs (p : Nat) (f : PathSt → PathSt) : (s.modPath p f).regs = s.regs := rfl
@[simp] theorem State.modPath_wol (p : Nat) (f : PathSt → PathSt) : (s.modPath p f).wol = s.wol := rfl
@[simp] theorem State.modPath_mem (p : Nat) (f : PathSt → PathSt) : (s.modPath p f).mem = s.mem := rfl
@[simp] theorem State.modPath_upkeep (p : Nat) (f : PathSt → PathSt) : (s.modPath p f).upkeep = s.upkeep := rfl
@[simp] theorem State.modPath_engines (p : Nat) (f : PathSt → PathSt) : (s.modPath p f).engines = s.engines := rfl
@[simp] theorem State.modPath_faults (p : Nat) (f : PathSt → PathSt) : (s.modPath p f).faults = s.faults := rfl
@[simp] theorem State.modPath_clusters (p : Nat) (f : PathSt → PathSt) : (s.modPath p f).clusters = s.clusters := rfl
@[simp] theorem State.modPath_flight (p : Nat) (f : PathSt → PathSt) : (s.modPath p f).flight = s.flight := rfl
@[simp] theorem State.modPath_prioFlight (p : Nat) (f : PathSt → PathSt) : (s.modPath p f).prioFlight = s.prioFlight := rfl
@[simp] theorem State.modPath_log (p : Nat) (f : PathSt → PathSt) : (s.modPath p f).log = s.log := rfl
@[simp] theorem State.modPath_fuses (p : Nat) (f : PathSt → PathSt) : (s.modPath p f).fuses = s.fuses := rfl
@[simp] theorem State.modPath_cipher (p : Nat) (f : PathSt → PathSt) : (s.modPath p f).cipher = s.cipher := rfl
@[simp] theorem State.modPath_decoder (p : Nat) (f : PathSt → PathSt) : (s.modPath p f).decoder = s.decoder := rfl
@[simp] theorem State.modPath_relay (p : Nat) (f : PathSt → PathSt) : (s.modPath p f).relay = s.relay := rfl
@[simp] theorem State.modPath_cinch (p : Nat) (f : PathSt → PathSt) : (s.modPath p f).cinch = s.cinch := rfl
@[simp] theorem State.modPath_girth (p : Nat) (f : PathSt → PathSt) : (s.modPath p f).girth = s.girth := rfl
@[simp] theorem State.modPath_rtc (p : Nat) (f : PathSt → PathSt) : (s.modPath p f).rtc = s.rtc := rfl
@[simp] theorem State.modPath_timers (p : Nat) (f : PathSt → PathSt) : (s.modPath p f).timers = s.timers := rfl
@[simp] theorem State.modPath_flash (p : Nat) (f : PathSt → PathSt) : (s.modPath p f).flash = s.flash := rfl
@[simp] theorem State.modPath_wired (p : Nat) (f : PathSt → PathSt) : (s.modPath p f).wired = s.wired := rfl
@[simp] theorem State.modPath_pkg (p : Nat) (f : PathSt → PathSt) : (s.modPath p f).pkg = s.pkg := rfl
@[simp] theorem State.modPath_mono (p : Nat) (f : PathSt → PathSt) : (s.modPath p f).mono = s.mono := rfl
@[simp] theorem State.modPath_age (p : Nat) (f : PathSt → PathSt) : (s.modPath p f).age = s.age := rfl
@[simp] theorem State.modPath_freeCount (p : Nat) (f : PathSt → PathSt) : (s.modPath p f).freeCount = s.freeCount := rfl

/-! ## `modRx` -/

@[simp] theorem State.modRx_pending (n : Nat) (f : RxSt → RxSt) : (s.modRx n f).pending = s.pending := rfl
@[simp] theorem State.modRx_variant (n : Nat) (f : RxSt → RxSt) : (s.modRx n f).variant = s.variant := rfl
@[simp] theorem State.modRx_regs (n : Nat) (f : RxSt → RxSt) : (s.modRx n f).regs = s.regs := rfl
@[simp] theorem State.modRx_wol (n : Nat) (f : RxSt → RxSt) : (s.modRx n f).wol = s.wol := rfl
@[simp] theorem State.modRx_mem (n : Nat) (f : RxSt → RxSt) : (s.modRx n f).mem = s.mem := rfl
@[simp] theorem State.modRx_upkeep (n : Nat) (f : RxSt → RxSt) : (s.modRx n f).upkeep = s.upkeep := rfl
@[simp] theorem State.modRx_engines (n : Nat) (f : RxSt → RxSt) : (s.modRx n f).engines = s.engines := rfl
@[simp] theorem State.modRx_faults (n : Nat) (f : RxSt → RxSt) : (s.modRx n f).faults = s.faults := rfl
@[simp] theorem State.modRx_clusters (n : Nat) (f : RxSt → RxSt) : (s.modRx n f).clusters = s.clusters := rfl
@[simp] theorem State.modRx_flight (n : Nat) (f : RxSt → RxSt) : (s.modRx n f).flight = s.flight := rfl
@[simp] theorem State.modRx_prioFlight (n : Nat) (f : RxSt → RxSt) : (s.modRx n f).prioFlight = s.prioFlight := rfl
@[simp] theorem State.modRx_log (n : Nat) (f : RxSt → RxSt) : (s.modRx n f).log = s.log := rfl
@[simp] theorem State.modRx_fuses (n : Nat) (f : RxSt → RxSt) : (s.modRx n f).fuses = s.fuses := rfl
@[simp] theorem State.modRx_cipher (n : Nat) (f : RxSt → RxSt) : (s.modRx n f).cipher = s.cipher := rfl
@[simp] theorem State.modRx_decoder (n : Nat) (f : RxSt → RxSt) : (s.modRx n f).decoder = s.decoder := rfl
@[simp] theorem State.modRx_relay (n : Nat) (f : RxSt → RxSt) : (s.modRx n f).relay = s.relay := rfl
@[simp] theorem State.modRx_cinch (n : Nat) (f : RxSt → RxSt) : (s.modRx n f).cinch = s.cinch := rfl
@[simp] theorem State.modRx_girth (n : Nat) (f : RxSt → RxSt) : (s.modRx n f).girth = s.girth := rfl
@[simp] theorem State.modRx_rtc (n : Nat) (f : RxSt → RxSt) : (s.modRx n f).rtc = s.rtc := rfl
@[simp] theorem State.modRx_timers (n : Nat) (f : RxSt → RxSt) : (s.modRx n f).timers = s.timers := rfl
@[simp] theorem State.modRx_flash (n : Nat) (f : RxSt → RxSt) : (s.modRx n f).flash = s.flash := rfl
@[simp] theorem State.modRx_wired (n : Nat) (f : RxSt → RxSt) : (s.modRx n f).wired = s.wired := rfl
@[simp] theorem State.modRx_pkg (n : Nat) (f : RxSt → RxSt) : (s.modRx n f).pkg = s.pkg := rfl
@[simp] theorem State.modRx_mono (n : Nat) (f : RxSt → RxSt) : (s.modRx n f).mono = s.mono := rfl
@[simp] theorem State.modRx_age (n : Nat) (f : RxSt → RxSt) : (s.modRx n f).age = s.age := rfl
@[simp] theorem State.modRx_freeCount (n : Nat) (f : RxSt → RxSt) : (s.modRx n f).freeCount = s.freeCount := rfl

/-! ## `setKeySlot` -/

@[simp] theorem State.setKeySlot_pending (k : Nat) (x : KeySlot) : (s.setKeySlot k x).pending = s.pending := rfl
@[simp] theorem State.setKeySlot_variant (k : Nat) (x : KeySlot) : (s.setKeySlot k x).variant = s.variant := rfl
@[simp] theorem State.setKeySlot_regs (k : Nat) (x : KeySlot) : (s.setKeySlot k x).regs = s.regs := rfl
@[simp] theorem State.setKeySlot_wol (k : Nat) (x : KeySlot) : (s.setKeySlot k x).wol = s.wol := rfl
@[simp] theorem State.setKeySlot_mem (k : Nat) (x : KeySlot) : (s.setKeySlot k x).mem = s.mem := rfl
@[simp] theorem State.setKeySlot_upkeep (k : Nat) (x : KeySlot) : (s.setKeySlot k x).upkeep = s.upkeep := rfl
@[simp] theorem State.setKeySlot_engines (k : Nat) (x : KeySlot) : (s.setKeySlot k x).engines = s.engines := rfl
@[simp] theorem State.setKeySlot_faults (k : Nat) (x : KeySlot) : (s.setKeySlot k x).faults = s.faults := rfl
@[simp] theorem State.setKeySlot_clusters (k : Nat) (x : KeySlot) : (s.setKeySlot k x).clusters = s.clusters := rfl
@[simp] theorem State.setKeySlot_flight (k : Nat) (x : KeySlot) : (s.setKeySlot k x).flight = s.flight := rfl
@[simp] theorem State.setKeySlot_prioFlight (k : Nat) (x : KeySlot) : (s.setKeySlot k x).prioFlight = s.prioFlight := rfl
@[simp] theorem State.setKeySlot_log (k : Nat) (x : KeySlot) : (s.setKeySlot k x).log = s.log := rfl
@[simp] theorem State.setKeySlot_fuses (k : Nat) (x : KeySlot) : (s.setKeySlot k x).fuses = s.fuses := rfl
@[simp] theorem State.setKeySlot_radio (k : Nat) (x : KeySlot) : (s.setKeySlot k x).radio = s.radio := rfl
@[simp] theorem State.setKeySlot_decoder (k : Nat) (x : KeySlot) : (s.setKeySlot k x).decoder = s.decoder := rfl
@[simp] theorem State.setKeySlot_relay (k : Nat) (x : KeySlot) : (s.setKeySlot k x).relay = s.relay := rfl
@[simp] theorem State.setKeySlot_cinch (k : Nat) (x : KeySlot) : (s.setKeySlot k x).cinch = s.cinch := rfl
@[simp] theorem State.setKeySlot_girth (k : Nat) (x : KeySlot) : (s.setKeySlot k x).girth = s.girth := rfl
@[simp] theorem State.setKeySlot_rtc (k : Nat) (x : KeySlot) : (s.setKeySlot k x).rtc = s.rtc := rfl
@[simp] theorem State.setKeySlot_timers (k : Nat) (x : KeySlot) : (s.setKeySlot k x).timers = s.timers := rfl
@[simp] theorem State.setKeySlot_flash (k : Nat) (x : KeySlot) : (s.setKeySlot k x).flash = s.flash := rfl
@[simp] theorem State.setKeySlot_wired (k : Nat) (x : KeySlot) : (s.setKeySlot k x).wired = s.wired := rfl
@[simp] theorem State.setKeySlot_pkg (k : Nat) (x : KeySlot) : (s.setKeySlot k x).pkg = s.pkg := rfl
@[simp] theorem State.setKeySlot_mono (k : Nat) (x : KeySlot) : (s.setKeySlot k x).mono = s.mono := rfl
@[simp] theorem State.setKeySlot_age (k : Nat) (x : KeySlot) : (s.setKeySlot k x).age = s.age := rfl
@[simp] theorem State.setKeySlot_freeCount (k : Nat) (x : KeySlot) : (s.setKeySlot k x).freeCount = s.freeCount := rfl

/-! ## `setSeen` -/

@[simp] theorem State.setSeen_pending (k : Nat) (e : SeenEntry) : (s.setSeen k e).pending = s.pending := rfl
@[simp] theorem State.setSeen_variant (k : Nat) (e : SeenEntry) : (s.setSeen k e).variant = s.variant := rfl
@[simp] theorem State.setSeen_regs (k : Nat) (e : SeenEntry) : (s.setSeen k e).regs = s.regs := rfl
@[simp] theorem State.setSeen_wol (k : Nat) (e : SeenEntry) : (s.setSeen k e).wol = s.wol := rfl
@[simp] theorem State.setSeen_mem (k : Nat) (e : SeenEntry) : (s.setSeen k e).mem = s.mem := rfl
@[simp] theorem State.setSeen_engines (k : Nat) (e : SeenEntry) : (s.setSeen k e).engines = s.engines := rfl
@[simp] theorem State.setSeen_faults (k : Nat) (e : SeenEntry) : (s.setSeen k e).faults = s.faults := rfl
@[simp] theorem State.setSeen_clusters (k : Nat) (e : SeenEntry) : (s.setSeen k e).clusters = s.clusters := rfl
@[simp] theorem State.setSeen_flight (k : Nat) (e : SeenEntry) : (s.setSeen k e).flight = s.flight := rfl
@[simp] theorem State.setSeen_prioFlight (k : Nat) (e : SeenEntry) : (s.setSeen k e).prioFlight = s.prioFlight := rfl
@[simp] theorem State.setSeen_log (k : Nat) (e : SeenEntry) : (s.setSeen k e).log = s.log := rfl
@[simp] theorem State.setSeen_fuses (k : Nat) (e : SeenEntry) : (s.setSeen k e).fuses = s.fuses := rfl
@[simp] theorem State.setSeen_cipher (k : Nat) (e : SeenEntry) : (s.setSeen k e).cipher = s.cipher := rfl
@[simp] theorem State.setSeen_radio (k : Nat) (e : SeenEntry) : (s.setSeen k e).radio = s.radio := rfl
@[simp] theorem State.setSeen_decoder (k : Nat) (e : SeenEntry) : (s.setSeen k e).decoder = s.decoder := rfl
@[simp] theorem State.setSeen_cinch (k : Nat) (e : SeenEntry) : (s.setSeen k e).cinch = s.cinch := rfl
@[simp] theorem State.setSeen_girth (k : Nat) (e : SeenEntry) : (s.setSeen k e).girth = s.girth := rfl
@[simp] theorem State.setSeen_rtc (k : Nat) (e : SeenEntry) : (s.setSeen k e).rtc = s.rtc := rfl
@[simp] theorem State.setSeen_timers (k : Nat) (e : SeenEntry) : (s.setSeen k e).timers = s.timers := rfl
@[simp] theorem State.setSeen_flash (k : Nat) (e : SeenEntry) : (s.setSeen k e).flash = s.flash := rfl
@[simp] theorem State.setSeen_wired (k : Nat) (e : SeenEntry) : (s.setSeen k e).wired = s.wired := rfl
@[simp] theorem State.setSeen_pkg (k : Nat) (e : SeenEntry) : (s.setSeen k e).pkg = s.pkg := rfl
@[simp] theorem State.setSeen_mono (k : Nat) (e : SeenEntry) : (s.setSeen k e).mono = s.mono := rfl
@[simp] theorem State.setSeen_age (k : Nat) (e : SeenEntry) : (s.setSeen k e).age = s.age := rfl
@[simp] theorem State.setSeen_freeCount (k : Nat) (e : SeenEntry) : (s.setSeen k e).freeCount = s.freeCount := rfl

/-! ## `setTxns` -/

@[simp] theorem State.setTxns_pending (n : Nat) (xs : List (Nat × Bool)) : (s.setTxns n xs).pending = s.pending := rfl
@[simp] theorem State.setTxns_variant (n : Nat) (xs : List (Nat × Bool)) : (s.setTxns n xs).variant = s.variant := rfl
@[simp] theorem State.setTxns_wol (n : Nat) (xs : List (Nat × Bool)) : (s.setTxns n xs).wol = s.wol := rfl
@[simp] theorem State.setTxns_mem (n : Nat) (xs : List (Nat × Bool)) : (s.setTxns n xs).mem = s.mem := rfl
@[simp] theorem State.setTxns_upkeep (n : Nat) (xs : List (Nat × Bool)) : (s.setTxns n xs).upkeep = s.upkeep := rfl
@[simp] theorem State.setTxns_engines (n : Nat) (xs : List (Nat × Bool)) : (s.setTxns n xs).engines = s.engines := rfl
@[simp] theorem State.setTxns_faults (n : Nat) (xs : List (Nat × Bool)) : (s.setTxns n xs).faults = s.faults := rfl
@[simp] theorem State.setTxns_clusters (n : Nat) (xs : List (Nat × Bool)) : (s.setTxns n xs).clusters = s.clusters := rfl
@[simp] theorem State.setTxns_flight (n : Nat) (xs : List (Nat × Bool)) : (s.setTxns n xs).flight = s.flight := rfl
@[simp] theorem State.setTxns_prioFlight (n : Nat) (xs : List (Nat × Bool)) : (s.setTxns n xs).prioFlight = s.prioFlight := rfl
@[simp] theorem State.setTxns_log (n : Nat) (xs : List (Nat × Bool)) : (s.setTxns n xs).log = s.log := rfl
@[simp] theorem State.setTxns_fuses (n : Nat) (xs : List (Nat × Bool)) : (s.setTxns n xs).fuses = s.fuses := rfl
@[simp] theorem State.setTxns_cipher (n : Nat) (xs : List (Nat × Bool)) : (s.setTxns n xs).cipher = s.cipher := rfl
@[simp] theorem State.setTxns_radio (n : Nat) (xs : List (Nat × Bool)) : (s.setTxns n xs).radio = s.radio := rfl
@[simp] theorem State.setTxns_decoder (n : Nat) (xs : List (Nat × Bool)) : (s.setTxns n xs).decoder = s.decoder := rfl
@[simp] theorem State.setTxns_relay (n : Nat) (xs : List (Nat × Bool)) : (s.setTxns n xs).relay = s.relay := rfl
@[simp] theorem State.setTxns_cinch (n : Nat) (xs : List (Nat × Bool)) : (s.setTxns n xs).cinch = s.cinch := rfl
@[simp] theorem State.setTxns_girth (n : Nat) (xs : List (Nat × Bool)) : (s.setTxns n xs).girth = s.girth := rfl
@[simp] theorem State.setTxns_rtc (n : Nat) (xs : List (Nat × Bool)) : (s.setTxns n xs).rtc = s.rtc := rfl
@[simp] theorem State.setTxns_timers (n : Nat) (xs : List (Nat × Bool)) : (s.setTxns n xs).timers = s.timers := rfl
@[simp] theorem State.setTxns_flash (n : Nat) (xs : List (Nat × Bool)) : (s.setTxns n xs).flash = s.flash := rfl
@[simp] theorem State.setTxns_wired (n : Nat) (xs : List (Nat × Bool)) : (s.setTxns n xs).wired = s.wired := rfl
@[simp] theorem State.setTxns_mono (n : Nat) (xs : List (Nat × Bool)) : (s.setTxns n xs).mono = s.mono := rfl
@[simp] theorem State.setTxns_age (n : Nat) (xs : List (Nat × Bool)) : (s.setTxns n xs).age = s.age := rfl
@[simp] theorem State.setTxns_freeCount (n : Nat) (xs : List (Nat × Bool)) : (s.setTxns n xs).freeCount = s.freeCount := rfl

/-! ## `setBytes` -/

@[simp] theorem State.setBytes_pending (k : Nat) (bs : List Byte) : (s.setBytes k bs).pending = s.pending := by
  induction bs generalizing s k with
  | nil => rfl
  | cons b bs ih => exact (ih (s.setByte k b) (k + 1)).trans rfl
@[simp] theorem State.setBytes_variant (k : Nat) (bs : List Byte) : (s.setBytes k bs).variant = s.variant := by
  induction bs generalizing s k with
  | nil => rfl
  | cons b bs ih => exact (ih (s.setByte k b) (k + 1)).trans rfl
@[simp] theorem State.setBytes_regs (k : Nat) (bs : List Byte) : (s.setBytes k bs).regs = s.regs := by
  induction bs generalizing s k with
  | nil => rfl
  | cons b bs ih => exact (ih (s.setByte k b) (k + 1)).trans rfl
@[simp] theorem State.setBytes_wol (k : Nat) (bs : List Byte) : (s.setBytes k bs).wol = s.wol := by
  induction bs generalizing s k with
  | nil => rfl
  | cons b bs ih => exact (ih (s.setByte k b) (k + 1)).trans rfl
@[simp] theorem State.setBytes_upkeep (k : Nat) (bs : List Byte) : (s.setBytes k bs).upkeep = s.upkeep := by
  induction bs generalizing s k with
  | nil => rfl
  | cons b bs ih => exact (ih (s.setByte k b) (k + 1)).trans rfl
@[simp] theorem State.setBytes_engines (k : Nat) (bs : List Byte) : (s.setBytes k bs).engines = s.engines := by
  induction bs generalizing s k with
  | nil => rfl
  | cons b bs ih => exact (ih (s.setByte k b) (k + 1)).trans rfl
@[simp] theorem State.setBytes_faults (k : Nat) (bs : List Byte) : (s.setBytes k bs).faults = s.faults := by
  induction bs generalizing s k with
  | nil => rfl
  | cons b bs ih => exact (ih (s.setByte k b) (k + 1)).trans rfl
@[simp] theorem State.setBytes_clusters (k : Nat) (bs : List Byte) : (s.setBytes k bs).clusters = s.clusters := by
  induction bs generalizing s k with
  | nil => rfl
  | cons b bs ih => exact (ih (s.setByte k b) (k + 1)).trans rfl
@[simp] theorem State.setBytes_flight (k : Nat) (bs : List Byte) : (s.setBytes k bs).flight = s.flight := by
  induction bs generalizing s k with
  | nil => rfl
  | cons b bs ih => exact (ih (s.setByte k b) (k + 1)).trans rfl
@[simp] theorem State.setBytes_prioFlight (k : Nat) (bs : List Byte) : (s.setBytes k bs).prioFlight = s.prioFlight := by
  induction bs generalizing s k with
  | nil => rfl
  | cons b bs ih => exact (ih (s.setByte k b) (k + 1)).trans rfl
@[simp] theorem State.setBytes_log (k : Nat) (bs : List Byte) : (s.setBytes k bs).log = s.log := by
  induction bs generalizing s k with
  | nil => rfl
  | cons b bs ih => exact (ih (s.setByte k b) (k + 1)).trans rfl
@[simp] theorem State.setBytes_fuses (k : Nat) (bs : List Byte) : (s.setBytes k bs).fuses = s.fuses := by
  induction bs generalizing s k with
  | nil => rfl
  | cons b bs ih => exact (ih (s.setByte k b) (k + 1)).trans rfl
@[simp] theorem State.setBytes_cipher (k : Nat) (bs : List Byte) : (s.setBytes k bs).cipher = s.cipher := by
  induction bs generalizing s k with
  | nil => rfl
  | cons b bs ih => exact (ih (s.setByte k b) (k + 1)).trans rfl
@[simp] theorem State.setBytes_radio (k : Nat) (bs : List Byte) : (s.setBytes k bs).radio = s.radio := by
  induction bs generalizing s k with
  | nil => rfl
  | cons b bs ih => exact (ih (s.setByte k b) (k + 1)).trans rfl
@[simp] theorem State.setBytes_decoder (k : Nat) (bs : List Byte) : (s.setBytes k bs).decoder = s.decoder := by
  induction bs generalizing s k with
  | nil => rfl
  | cons b bs ih => exact (ih (s.setByte k b) (k + 1)).trans rfl
@[simp] theorem State.setBytes_relay (k : Nat) (bs : List Byte) : (s.setBytes k bs).relay = s.relay := by
  induction bs generalizing s k with
  | nil => rfl
  | cons b bs ih => exact (ih (s.setByte k b) (k + 1)).trans rfl
@[simp] theorem State.setBytes_cinch (k : Nat) (bs : List Byte) : (s.setBytes k bs).cinch = s.cinch := by
  induction bs generalizing s k with
  | nil => rfl
  | cons b bs ih => exact (ih (s.setByte k b) (k + 1)).trans rfl
@[simp] theorem State.setBytes_girth (k : Nat) (bs : List Byte) : (s.setBytes k bs).girth = s.girth := by
  induction bs generalizing s k with
  | nil => rfl
  | cons b bs ih => exact (ih (s.setByte k b) (k + 1)).trans rfl
@[simp] theorem State.setBytes_rtc (k : Nat) (bs : List Byte) : (s.setBytes k bs).rtc = s.rtc := by
  induction bs generalizing s k with
  | nil => rfl
  | cons b bs ih => exact (ih (s.setByte k b) (k + 1)).trans rfl
@[simp] theorem State.setBytes_timers (k : Nat) (bs : List Byte) : (s.setBytes k bs).timers = s.timers := by
  induction bs generalizing s k with
  | nil => rfl
  | cons b bs ih => exact (ih (s.setByte k b) (k + 1)).trans rfl
@[simp] theorem State.setBytes_flash (k : Nat) (bs : List Byte) : (s.setBytes k bs).flash = s.flash := by
  induction bs generalizing s k with
  | nil => rfl
  | cons b bs ih => exact (ih (s.setByte k b) (k + 1)).trans rfl
@[simp] theorem State.setBytes_wired (k : Nat) (bs : List Byte) : (s.setBytes k bs).wired = s.wired := by
  induction bs generalizing s k with
  | nil => rfl
  | cons b bs ih => exact (ih (s.setByte k b) (k + 1)).trans rfl
@[simp] theorem State.setBytes_pkg (k : Nat) (bs : List Byte) : (s.setBytes k bs).pkg = s.pkg := by
  induction bs generalizing s k with
  | nil => rfl
  | cons b bs ih => exact (ih (s.setByte k b) (k + 1)).trans rfl
@[simp] theorem State.setBytes_mono (k : Nat) (bs : List Byte) : (s.setBytes k bs).mono = s.mono := by
  induction bs generalizing s k with
  | nil => rfl
  | cons b bs ih => exact (ih (s.setByte k b) (k + 1)).trans rfl
@[simp] theorem State.setBytes_age (k : Nat) (bs : List Byte) : (s.setBytes k bs).age = s.age := by
  induction bs generalizing s k with
  | nil => rfl
  | cons b bs ih => exact (ih (s.setByte k b) (k + 1)).trans rfl
@[simp] theorem State.setBytes_freeCount (k : Nat) (bs : List Byte) : (s.setBytes k bs).freeCount = s.freeCount := by
  induction bs generalizing s k with
  | nil => rfl
  | cons b bs ih => exact (ih (s.setByte k b) (k + 1)).trans rfl

/-! ## `setNum` -/

@[simp] theorem State.setNum_pending (k n v : Nat) : (s.setNum k n v).pending = s.pending :=
  State.setBytes_pending _ _ _
@[simp] theorem State.setNum_variant (k n v : Nat) : (s.setNum k n v).variant = s.variant :=
  State.setBytes_variant _ _ _
@[simp] theorem State.setNum_regs (k n v : Nat) : (s.setNum k n v).regs = s.regs :=
  State.setBytes_regs _ _ _
@[simp] theorem State.setNum_wol (k n v : Nat) : (s.setNum k n v).wol = s.wol :=
  State.setBytes_wol _ _ _
@[simp] theorem State.setNum_upkeep (k n v : Nat) : (s.setNum k n v).upkeep = s.upkeep :=
  State.setBytes_upkeep _ _ _
@[simp] theorem State.setNum_engines (k n v : Nat) : (s.setNum k n v).engines = s.engines :=
  State.setBytes_engines _ _ _
@[simp] theorem State.setNum_faults (k n v : Nat) : (s.setNum k n v).faults = s.faults :=
  State.setBytes_faults _ _ _
@[simp] theorem State.setNum_clusters (k n v : Nat) : (s.setNum k n v).clusters = s.clusters :=
  State.setBytes_clusters _ _ _
@[simp] theorem State.setNum_flight (k n v : Nat) : (s.setNum k n v).flight = s.flight :=
  State.setBytes_flight _ _ _
@[simp] theorem State.setNum_prioFlight (k n v : Nat) : (s.setNum k n v).prioFlight = s.prioFlight :=
  State.setBytes_prioFlight _ _ _
@[simp] theorem State.setNum_log (k n v : Nat) : (s.setNum k n v).log = s.log :=
  State.setBytes_log _ _ _
@[simp] theorem State.setNum_fuses (k n v : Nat) : (s.setNum k n v).fuses = s.fuses :=
  State.setBytes_fuses _ _ _
@[simp] theorem State.setNum_cipher (k n v : Nat) : (s.setNum k n v).cipher = s.cipher :=
  State.setBytes_cipher _ _ _
@[simp] theorem State.setNum_radio (k n v : Nat) : (s.setNum k n v).radio = s.radio :=
  State.setBytes_radio _ _ _
@[simp] theorem State.setNum_decoder (k n v : Nat) : (s.setNum k n v).decoder = s.decoder :=
  State.setBytes_decoder _ _ _
@[simp] theorem State.setNum_relay (k n v : Nat) : (s.setNum k n v).relay = s.relay :=
  State.setBytes_relay _ _ _
@[simp] theorem State.setNum_cinch (k n v : Nat) : (s.setNum k n v).cinch = s.cinch :=
  State.setBytes_cinch _ _ _
@[simp] theorem State.setNum_girth (k n v : Nat) : (s.setNum k n v).girth = s.girth :=
  State.setBytes_girth _ _ _
@[simp] theorem State.setNum_rtc (k n v : Nat) : (s.setNum k n v).rtc = s.rtc :=
  State.setBytes_rtc _ _ _
@[simp] theorem State.setNum_timers (k n v : Nat) : (s.setNum k n v).timers = s.timers :=
  State.setBytes_timers _ _ _
@[simp] theorem State.setNum_flash (k n v : Nat) : (s.setNum k n v).flash = s.flash :=
  State.setBytes_flash _ _ _
@[simp] theorem State.setNum_wired (k n v : Nat) : (s.setNum k n v).wired = s.wired :=
  State.setBytes_wired _ _ _
@[simp] theorem State.setNum_pkg (k n v : Nat) : (s.setNum k n v).pkg = s.pkg :=
  State.setBytes_pkg _ _ _
@[simp] theorem State.setNum_mono (k n v : Nat) : (s.setNum k n v).mono = s.mono :=
  State.setBytes_mono _ _ _
@[simp] theorem State.setNum_age (k n v : Nat) : (s.setNum k n v).age = s.age :=
  State.setBytes_age _ _ _
@[simp] theorem State.setNum_freeCount (k n v : Nat) : (s.setNum k n v).freeCount = s.freeCount :=
  State.setBytes_freeCount _ _ _

/-! ## `setWord64` -/

@[simp] theorem State.setWord64_pending (k v : Nat) (m : BitVec 72) : (s.setWord64 k v m).pending = s.pending :=
  State.setNum_pending _ _ _ _
@[simp] theorem State.setWord64_variant (k v : Nat) (m : BitVec 72) : (s.setWord64 k v m).variant = s.variant :=
  State.setNum_variant _ _ _ _
@[simp] theorem State.setWord64_regs (k v : Nat) (m : BitVec 72) : (s.setWord64 k v m).regs = s.regs :=
  State.setNum_regs _ _ _ _
@[simp] theorem State.setWord64_wol (k v : Nat) (m : BitVec 72) : (s.setWord64 k v m).wol = s.wol :=
  State.setNum_wol _ _ _ _
@[simp] theorem State.setWord64_engines (k v : Nat) (m : BitVec 72) : (s.setWord64 k v m).engines = s.engines :=
  State.setNum_engines _ _ _ _
@[simp] theorem State.setWord64_faults (k v : Nat) (m : BitVec 72) : (s.setWord64 k v m).faults = s.faults :=
  State.setNum_faults _ _ _ _
@[simp] theorem State.setWord64_clusters (k v : Nat) (m : BitVec 72) : (s.setWord64 k v m).clusters = s.clusters :=
  State.setNum_clusters _ _ _ _
@[simp] theorem State.setWord64_flight (k v : Nat) (m : BitVec 72) : (s.setWord64 k v m).flight = s.flight :=
  State.setNum_flight _ _ _ _
@[simp] theorem State.setWord64_prioFlight (k v : Nat) (m : BitVec 72) : (s.setWord64 k v m).prioFlight = s.prioFlight :=
  State.setNum_prioFlight _ _ _ _
@[simp] theorem State.setWord64_log (k v : Nat) (m : BitVec 72) : (s.setWord64 k v m).log = s.log :=
  State.setNum_log _ _ _ _
@[simp] theorem State.setWord64_fuses (k v : Nat) (m : BitVec 72) : (s.setWord64 k v m).fuses = s.fuses :=
  State.setNum_fuses _ _ _ _
@[simp] theorem State.setWord64_cipher (k v : Nat) (m : BitVec 72) : (s.setWord64 k v m).cipher = s.cipher :=
  State.setNum_cipher _ _ _ _
@[simp] theorem State.setWord64_radio (k v : Nat) (m : BitVec 72) : (s.setWord64 k v m).radio = s.radio :=
  State.setNum_radio _ _ _ _
@[simp] theorem State.setWord64_decoder (k v : Nat) (m : BitVec 72) : (s.setWord64 k v m).decoder = s.decoder :=
  State.setNum_decoder _ _ _ _
@[simp] theorem State.setWord64_relay (k v : Nat) (m : BitVec 72) : (s.setWord64 k v m).relay = s.relay :=
  State.setNum_relay _ _ _ _
@[simp] theorem State.setWord64_cinch (k v : Nat) (m : BitVec 72) : (s.setWord64 k v m).cinch = s.cinch :=
  State.setNum_cinch _ _ _ _
@[simp] theorem State.setWord64_girth (k v : Nat) (m : BitVec 72) : (s.setWord64 k v m).girth = s.girth :=
  State.setNum_girth _ _ _ _
@[simp] theorem State.setWord64_rtc (k v : Nat) (m : BitVec 72) : (s.setWord64 k v m).rtc = s.rtc :=
  State.setNum_rtc _ _ _ _
@[simp] theorem State.setWord64_timers (k v : Nat) (m : BitVec 72) : (s.setWord64 k v m).timers = s.timers :=
  State.setNum_timers _ _ _ _
@[simp] theorem State.setWord64_flash (k v : Nat) (m : BitVec 72) : (s.setWord64 k v m).flash = s.flash :=
  State.setNum_flash _ _ _ _
@[simp] theorem State.setWord64_wired (k v : Nat) (m : BitVec 72) : (s.setWord64 k v m).wired = s.wired :=
  State.setNum_wired _ _ _ _
@[simp] theorem State.setWord64_pkg (k v : Nat) (m : BitVec 72) : (s.setWord64 k v m).pkg = s.pkg :=
  State.setNum_pkg _ _ _ _
@[simp] theorem State.setWord64_mono (k v : Nat) (m : BitVec 72) : (s.setWord64 k v m).mono = s.mono :=
  State.setNum_mono _ _ _ _
@[simp] theorem State.setWord64_age (k v : Nat) (m : BitVec 72) : (s.setWord64 k v m).age = s.age :=
  State.setNum_age _ _ _ _
@[simp] theorem State.setWord64_freeCount (k v : Nat) (m : BitVec 72) : (s.setWord64 k v m).freeCount = s.freeCount :=
  State.setNum_freeCount _ _ _ _

/-! ## `logAdd` -/

@[simp] theorem State.logAdd_pending (c t e x0 x1 x2 x3 : Nat) : (s.logAdd c t e x0 x1 x2 x3).pending = s.pending := by
  unfold State.logAdd; split <;> rfl
@[simp] theorem State.logAdd_variant (c t e x0 x1 x2 x3 : Nat) : (s.logAdd c t e x0 x1 x2 x3).variant = s.variant := by
  unfold State.logAdd; split <;> rfl
@[simp] theorem State.logAdd_wol (c t e x0 x1 x2 x3 : Nat) : (s.logAdd c t e x0 x1 x2 x3).wol = s.wol := by
  unfold State.logAdd; split <;> rfl
@[simp] theorem State.logAdd_mem (c t e x0 x1 x2 x3 : Nat) : (s.logAdd c t e x0 x1 x2 x3).mem = s.mem := by
  unfold State.logAdd; split <;> rfl
@[simp] theorem State.logAdd_upkeep (c t e x0 x1 x2 x3 : Nat) : (s.logAdd c t e x0 x1 x2 x3).upkeep = s.upkeep := by
  unfold State.logAdd; split <;> rfl
@[simp] theorem State.logAdd_engines (c t e x0 x1 x2 x3 : Nat) : (s.logAdd c t e x0 x1 x2 x3).engines = s.engines := by
  unfold State.logAdd; split <;> rfl
@[simp] theorem State.logAdd_faults (c t e x0 x1 x2 x3 : Nat) : (s.logAdd c t e x0 x1 x2 x3).faults = s.faults := by
  unfold State.logAdd; split <;> rfl
@[simp] theorem State.logAdd_clusters (c t e x0 x1 x2 x3 : Nat) : (s.logAdd c t e x0 x1 x2 x3).clusters = s.clusters := by
  unfold State.logAdd; split <;> rfl
@[simp] theorem State.logAdd_flight (c t e x0 x1 x2 x3 : Nat) : (s.logAdd c t e x0 x1 x2 x3).flight = s.flight := by
  unfold State.logAdd; split <;> rfl
@[simp] theorem State.logAdd_prioFlight (c t e x0 x1 x2 x3 : Nat) : (s.logAdd c t e x0 x1 x2 x3).prioFlight = s.prioFlight := by
  unfold State.logAdd; split <;> rfl
@[simp] theorem State.logAdd_fuses (c t e x0 x1 x2 x3 : Nat) : (s.logAdd c t e x0 x1 x2 x3).fuses = s.fuses := by
  unfold State.logAdd; split <;> rfl
@[simp] theorem State.logAdd_cipher (c t e x0 x1 x2 x3 : Nat) : (s.logAdd c t e x0 x1 x2 x3).cipher = s.cipher := by
  unfold State.logAdd; split <;> rfl
@[simp] theorem State.logAdd_radio (c t e x0 x1 x2 x3 : Nat) : (s.logAdd c t e x0 x1 x2 x3).radio = s.radio := by
  unfold State.logAdd; split <;> rfl
@[simp] theorem State.logAdd_decoder (c t e x0 x1 x2 x3 : Nat) : (s.logAdd c t e x0 x1 x2 x3).decoder = s.decoder := by
  unfold State.logAdd; split <;> rfl
@[simp] theorem State.logAdd_relay (c t e x0 x1 x2 x3 : Nat) : (s.logAdd c t e x0 x1 x2 x3).relay = s.relay := by
  unfold State.logAdd; split <;> rfl
@[simp] theorem State.logAdd_cinch (c t e x0 x1 x2 x3 : Nat) : (s.logAdd c t e x0 x1 x2 x3).cinch = s.cinch := by
  unfold State.logAdd; split <;> rfl
@[simp] theorem State.logAdd_girth (c t e x0 x1 x2 x3 : Nat) : (s.logAdd c t e x0 x1 x2 x3).girth = s.girth := by
  unfold State.logAdd; split <;> rfl
@[simp] theorem State.logAdd_rtc (c t e x0 x1 x2 x3 : Nat) : (s.logAdd c t e x0 x1 x2 x3).rtc = s.rtc := by
  unfold State.logAdd; split <;> rfl
@[simp] theorem State.logAdd_timers (c t e x0 x1 x2 x3 : Nat) : (s.logAdd c t e x0 x1 x2 x3).timers = s.timers := by
  unfold State.logAdd; split <;> rfl
@[simp] theorem State.logAdd_flash (c t e x0 x1 x2 x3 : Nat) : (s.logAdd c t e x0 x1 x2 x3).flash = s.flash := by
  unfold State.logAdd; split <;> rfl
@[simp] theorem State.logAdd_wired (c t e x0 x1 x2 x3 : Nat) : (s.logAdd c t e x0 x1 x2 x3).wired = s.wired := by
  unfold State.logAdd; split <;> rfl
@[simp] theorem State.logAdd_pkg (c t e x0 x1 x2 x3 : Nat) : (s.logAdd c t e x0 x1 x2 x3).pkg = s.pkg := by
  unfold State.logAdd; split <;> rfl
@[simp] theorem State.logAdd_mono (c t e x0 x1 x2 x3 : Nat) : (s.logAdd c t e x0 x1 x2 x3).mono = s.mono := by
  unfold State.logAdd; split <;> rfl
@[simp] theorem State.logAdd_age (c t e x0 x1 x2 x3 : Nat) : (s.logAdd c t e x0 x1 x2 x3).age = s.age := by
  unfold State.logAdd; split <;> rfl
@[simp] theorem State.logAdd_freeCount (c t e x0 x1 x2 x3 : Nat) : (s.logAdd c t e x0 x1 x2 x3).freeCount = s.freeCount := by
  unfold State.logAdd; split <;> rfl

/-! ## `logHw` -/

@[simp] theorem State.logHw_pending (c x0 x1 x2 : Nat) : (s.logHw c x0 x1 x2).pending = s.pending :=
  State.logAdd_pending _ _ _ _ _ _ _ _
@[simp] theorem State.logHw_variant (c x0 x1 x2 : Nat) : (s.logHw c x0 x1 x2).variant = s.variant :=
  State.logAdd_variant _ _ _ _ _ _ _ _
@[simp] theorem State.logHw_wol (c x0 x1 x2 : Nat) : (s.logHw c x0 x1 x2).wol = s.wol :=
  State.logAdd_wol _ _ _ _ _ _ _ _
@[simp] theorem State.logHw_mem (c x0 x1 x2 : Nat) : (s.logHw c x0 x1 x2).mem = s.mem :=
  State.logAdd_mem _ _ _ _ _ _ _ _
@[simp] theorem State.logHw_upkeep (c x0 x1 x2 : Nat) : (s.logHw c x0 x1 x2).upkeep = s.upkeep :=
  State.logAdd_upkeep _ _ _ _ _ _ _ _
@[simp] theorem State.logHw_engines (c x0 x1 x2 : Nat) : (s.logHw c x0 x1 x2).engines = s.engines :=
  State.logAdd_engines _ _ _ _ _ _ _ _
@[simp] theorem State.logHw_faults (c x0 x1 x2 : Nat) : (s.logHw c x0 x1 x2).faults = s.faults :=
  State.logAdd_faults _ _ _ _ _ _ _ _
@[simp] theorem State.logHw_clusters (c x0 x1 x2 : Nat) : (s.logHw c x0 x1 x2).clusters = s.clusters :=
  State.logAdd_clusters _ _ _ _ _ _ _ _
@[simp] theorem State.logHw_flight (c x0 x1 x2 : Nat) : (s.logHw c x0 x1 x2).flight = s.flight :=
  State.logAdd_flight _ _ _ _ _ _ _ _
@[simp] theorem State.logHw_prioFlight (c x0 x1 x2 : Nat) : (s.logHw c x0 x1 x2).prioFlight = s.prioFlight :=
  State.logAdd_prioFlight _ _ _ _ _ _ _ _
@[simp] theorem State.logHw_fuses (c x0 x1 x2 : Nat) : (s.logHw c x0 x1 x2).fuses = s.fuses :=
  State.logAdd_fuses _ _ _ _ _ _ _ _
@[simp] theorem State.logHw_cipher (c x0 x1 x2 : Nat) : (s.logHw c x0 x1 x2).cipher = s.cipher :=
  State.logAdd_cipher _ _ _ _ _ _ _ _
@[simp] theorem State.logHw_radio (c x0 x1 x2 : Nat) : (s.logHw c x0 x1 x2).radio = s.radio :=
  State.logAdd_radio _ _ _ _ _ _ _ _
@[simp] theorem State.logHw_decoder (c x0 x1 x2 : Nat) : (s.logHw c x0 x1 x2).decoder = s.decoder :=
  State.logAdd_decoder _ _ _ _ _ _ _ _
@[simp] theorem State.logHw_relay (c x0 x1 x2 : Nat) : (s.logHw c x0 x1 x2).relay = s.relay :=
  State.logAdd_relay _ _ _ _ _ _ _ _
@[simp] theorem State.logHw_cinch (c x0 x1 x2 : Nat) : (s.logHw c x0 x1 x2).cinch = s.cinch :=
  State.logAdd_cinch _ _ _ _ _ _ _ _
@[simp] theorem State.logHw_girth (c x0 x1 x2 : Nat) : (s.logHw c x0 x1 x2).girth = s.girth :=
  State.logAdd_girth _ _ _ _ _ _ _ _
@[simp] theorem State.logHw_rtc (c x0 x1 x2 : Nat) : (s.logHw c x0 x1 x2).rtc = s.rtc :=
  State.logAdd_rtc _ _ _ _ _ _ _ _
@[simp] theorem State.logHw_timers (c x0 x1 x2 : Nat) : (s.logHw c x0 x1 x2).timers = s.timers :=
  State.logAdd_timers _ _ _ _ _ _ _ _
@[simp] theorem State.logHw_flash (c x0 x1 x2 : Nat) : (s.logHw c x0 x1 x2).flash = s.flash :=
  State.logAdd_flash _ _ _ _ _ _ _ _
@[simp] theorem State.logHw_wired (c x0 x1 x2 : Nat) : (s.logHw c x0 x1 x2).wired = s.wired :=
  State.logAdd_wired _ _ _ _ _ _ _ _
@[simp] theorem State.logHw_pkg (c x0 x1 x2 : Nat) : (s.logHw c x0 x1 x2).pkg = s.pkg :=
  State.logAdd_pkg _ _ _ _ _ _ _ _
@[simp] theorem State.logHw_mono (c x0 x1 x2 : Nat) : (s.logHw c x0 x1 x2).mono = s.mono :=
  State.logAdd_mono _ _ _ _ _ _ _ _
@[simp] theorem State.logHw_age (c x0 x1 x2 : Nat) : (s.logHw c x0 x1 x2).age = s.age :=
  State.logAdd_age _ _ _ _ _ _ _ _
@[simp] theorem State.logHw_freeCount (c x0 x1 x2 : Nat) : (s.logHw c x0 x1 x2).freeCount = s.freeCount :=
  State.logAdd_freeCount _ _ _ _ _ _ _ _

/-! ## `postTenant` -/

@[simp] theorem State.postTenant_pending (t k l a b c : Nat) : (s.postTenant t k l a b c).pending = s.pending := by
  unfold State.postTenant; split <;> rfl
@[simp] theorem State.postTenant_variant (t k l a b c : Nat) : (s.postTenant t k l a b c).variant = s.variant := by
  unfold State.postTenant; split <;> rfl
@[simp] theorem State.postTenant_regs (t k l a b c : Nat) : (s.postTenant t k l a b c).regs = s.regs := by
  unfold State.postTenant; split <;> rfl
@[simp] theorem State.postTenant_wol (t k l a b c : Nat) : (s.postTenant t k l a b c).wol = s.wol := by
  unfold State.postTenant; split <;> rfl
@[simp] theorem State.postTenant_mem (t k l a b c : Nat) : (s.postTenant t k l a b c).mem = s.mem := by
  unfold State.postTenant; split <;> rfl
@[simp] theorem State.postTenant_upkeep (t k l a b c : Nat) : (s.postTenant t k l a b c).upkeep = s.upkeep := by
  unfold State.postTenant; split <;> rfl
@[simp] theorem State.postTenant_engines (t k l a b c : Nat) : (s.postTenant t k l a b c).engines = s.engines := by
  unfold State.postTenant; split <;> rfl
@[simp] theorem State.postTenant_faults (t k l a b c : Nat) : (s.postTenant t k l a b c).faults = s.faults := by
  unfold State.postTenant; split <;> rfl
@[simp] theorem State.postTenant_clusters (t k l a b c : Nat) : (s.postTenant t k l a b c).clusters = s.clusters := by
  unfold State.postTenant; split <;> rfl
@[simp] theorem State.postTenant_prioFlight (t k l a b c : Nat) : (s.postTenant t k l a b c).prioFlight = s.prioFlight := by
  unfold State.postTenant; split <;> rfl
@[simp] theorem State.postTenant_log (t k l a b c : Nat) : (s.postTenant t k l a b c).log = s.log := by
  unfold State.postTenant; split <;> rfl
@[simp] theorem State.postTenant_fuses (t k l a b c : Nat) : (s.postTenant t k l a b c).fuses = s.fuses := by
  unfold State.postTenant; split <;> rfl
@[simp] theorem State.postTenant_cipher (t k l a b c : Nat) : (s.postTenant t k l a b c).cipher = s.cipher := by
  unfold State.postTenant; split <;> rfl
@[simp] theorem State.postTenant_radio (t k l a b c : Nat) : (s.postTenant t k l a b c).radio = s.radio := by
  unfold State.postTenant; split <;> rfl
@[simp] theorem State.postTenant_decoder (t k l a b c : Nat) : (s.postTenant t k l a b c).decoder = s.decoder := by
  unfold State.postTenant; split <;> rfl
@[simp] theorem State.postTenant_relay (t k l a b c : Nat) : (s.postTenant t k l a b c).relay = s.relay := by
  unfold State.postTenant; split <;> rfl
@[simp] theorem State.postTenant_cinch (t k l a b c : Nat) : (s.postTenant t k l a b c).cinch = s.cinch := by
  unfold State.postTenant; split <;> rfl
@[simp] theorem State.postTenant_girth (t k l a b c : Nat) : (s.postTenant t k l a b c).girth = s.girth := by
  unfold State.postTenant; split <;> rfl
@[simp] theorem State.postTenant_rtc (t k l a b c : Nat) : (s.postTenant t k l a b c).rtc = s.rtc := by
  unfold State.postTenant; split <;> rfl
@[simp] theorem State.postTenant_timers (t k l a b c : Nat) : (s.postTenant t k l a b c).timers = s.timers := by
  unfold State.postTenant; split <;> rfl
@[simp] theorem State.postTenant_flash (t k l a b c : Nat) : (s.postTenant t k l a b c).flash = s.flash := by
  unfold State.postTenant; split <;> rfl
@[simp] theorem State.postTenant_wired (t k l a b c : Nat) : (s.postTenant t k l a b c).wired = s.wired := by
  unfold State.postTenant; split <;> rfl
@[simp] theorem State.postTenant_pkg (t k l a b c : Nat) : (s.postTenant t k l a b c).pkg = s.pkg := by
  unfold State.postTenant; split <;> rfl
@[simp] theorem State.postTenant_mono (t k l a b c : Nat) : (s.postTenant t k l a b c).mono = s.mono := by
  unfold State.postTenant; split <;> rfl
@[simp] theorem State.postTenant_age (t k l a b c : Nat) : (s.postTenant t k l a b c).age = s.age := by
  unfold State.postTenant; split <;> rfl
@[simp] theorem State.postTenant_freeCount (t k l a b c : Nat) : (s.postTenant t k l a b c).freeCount = s.freeCount := by
  unfold State.postTenant; split <;> rfl

/-! ## `traceBranch` -/

@[simp] theorem State.traceBranch_pending (t : Word) : (s.traceBranch t).pending = s.pending := by
  unfold State.traceBranch; split <;> rfl
@[simp] theorem State.traceBranch_variant (t : Word) : (s.traceBranch t).variant = s.variant := by
  unfold State.traceBranch; split <;> rfl
@[simp] theorem State.traceBranch_regs (t : Word) : (s.traceBranch t).regs = s.regs := by
  unfold State.traceBranch; split <;> rfl
@[simp] theorem State.traceBranch_wol (t : Word) : (s.traceBranch t).wol = s.wol := by
  unfold State.traceBranch; split <;> rfl
@[simp] theorem State.traceBranch_mem (t : Word) : (s.traceBranch t).mem = s.mem := by
  unfold State.traceBranch; split <;> rfl
@[simp] theorem State.traceBranch_upkeep (t : Word) : (s.traceBranch t).upkeep = s.upkeep := by
  unfold State.traceBranch; split <;> rfl
@[simp] theorem State.traceBranch_engines (t : Word) : (s.traceBranch t).engines = s.engines := by
  unfold State.traceBranch; split <;> rfl
@[simp] theorem State.traceBranch_faults (t : Word) : (s.traceBranch t).faults = s.faults := by
  unfold State.traceBranch; split <;> rfl
@[simp] theorem State.traceBranch_clusters (t : Word) : (s.traceBranch t).clusters = s.clusters := by
  unfold State.traceBranch; split <;> rfl
@[simp] theorem State.traceBranch_flight (t : Word) : (s.traceBranch t).flight = s.flight := by
  unfold State.traceBranch; split <;> rfl
@[simp] theorem State.traceBranch_prioFlight (t : Word) : (s.traceBranch t).prioFlight = s.prioFlight := by
  unfold State.traceBranch; split <;> rfl
@[simp] theorem State.traceBranch_log (t : Word) : (s.traceBranch t).log = s.log := by
  unfold State.traceBranch; split <;> rfl
@[simp] theorem State.traceBranch_fuses (t : Word) : (s.traceBranch t).fuses = s.fuses := by
  unfold State.traceBranch; split <;> rfl
@[simp] theorem State.traceBranch_cipher (t : Word) : (s.traceBranch t).cipher = s.cipher := by
  unfold State.traceBranch; split <;> rfl
@[simp] theorem State.traceBranch_radio (t : Word) : (s.traceBranch t).radio = s.radio := by
  unfold State.traceBranch; split <;> rfl
@[simp] theorem State.traceBranch_decoder (t : Word) : (s.traceBranch t).decoder = s.decoder := by
  unfold State.traceBranch; split <;> rfl
@[simp] theorem State.traceBranch_relay (t : Word) : (s.traceBranch t).relay = s.relay := by
  unfold State.traceBranch; split <;> rfl
@[simp] theorem State.traceBranch_cinch (t : Word) : (s.traceBranch t).cinch = s.cinch := by
  unfold State.traceBranch; split <;> rfl
@[simp] theorem State.traceBranch_girth (t : Word) : (s.traceBranch t).girth = s.girth := by
  unfold State.traceBranch; split <;> rfl
@[simp] theorem State.traceBranch_rtc (t : Word) : (s.traceBranch t).rtc = s.rtc := by
  unfold State.traceBranch; split <;> rfl
@[simp] theorem State.traceBranch_timers (t : Word) : (s.traceBranch t).timers = s.timers := by
  unfold State.traceBranch; split <;> rfl
@[simp] theorem State.traceBranch_flash (t : Word) : (s.traceBranch t).flash = s.flash := by
  unfold State.traceBranch; split <;> rfl
@[simp] theorem State.traceBranch_pkg (t : Word) : (s.traceBranch t).pkg = s.pkg := by
  unfold State.traceBranch; split <;> rfl
@[simp] theorem State.traceBranch_mono (t : Word) : (s.traceBranch t).mono = s.mono := by
  unfold State.traceBranch; split <;> rfl
@[simp] theorem State.traceBranch_age (t : Word) : (s.traceBranch t).age = s.age := by
  unfold State.traceBranch; split <;> rfl
@[simp] theorem State.traceBranch_freeCount (t : Word) : (s.traceBranch t).freeCount = s.freeCount := by
  unfold State.traceBranch; split <;> rfl

/-! ## `postRefused` -/

@[simp] theorem State.postRefused_pending (t c : Nat) (w : Bool) (e a : Nat) : (s.postRefused t c w e a).pending = s.pending :=
  State.postTenant_pending _ _ _ _ _ _ _
@[simp] theorem State.postRefused_variant (t c : Nat) (w : Bool) (e a : Nat) : (s.postRefused t c w e a).variant = s.variant :=
  State.postTenant_variant _ _ _ _ _ _ _
@[simp] theorem State.postRefused_regs (t c : Nat) (w : Bool) (e a : Nat) : (s.postRefused t c w e a).regs = s.regs :=
  State.postTenant_regs _ _ _ _ _ _ _
@[simp] theorem State.postRefused_wol (t c : Nat) (w : Bool) (e a : Nat) : (s.postRefused t c w e a).wol = s.wol :=
  State.postTenant_wol _ _ _ _ _ _ _
@[simp] theorem State.postRefused_mem (t c : Nat) (w : Bool) (e a : Nat) : (s.postRefused t c w e a).mem = s.mem :=
  State.postTenant_mem _ _ _ _ _ _ _
@[simp] theorem State.postRefused_upkeep (t c : Nat) (w : Bool) (e a : Nat) : (s.postRefused t c w e a).upkeep = s.upkeep :=
  State.postTenant_upkeep _ _ _ _ _ _ _
@[simp] theorem State.postRefused_engines (t c : Nat) (w : Bool) (e a : Nat) : (s.postRefused t c w e a).engines = s.engines :=
  State.postTenant_engines _ _ _ _ _ _ _
@[simp] theorem State.postRefused_faults (t c : Nat) (w : Bool) (e a : Nat) : (s.postRefused t c w e a).faults = s.faults :=
  State.postTenant_faults _ _ _ _ _ _ _
@[simp] theorem State.postRefused_clusters (t c : Nat) (w : Bool) (e a : Nat) : (s.postRefused t c w e a).clusters = s.clusters :=
  State.postTenant_clusters _ _ _ _ _ _ _
@[simp] theorem State.postRefused_prioFlight (t c : Nat) (w : Bool) (e a : Nat) : (s.postRefused t c w e a).prioFlight = s.prioFlight :=
  State.postTenant_prioFlight _ _ _ _ _ _ _
@[simp] theorem State.postRefused_log (t c : Nat) (w : Bool) (e a : Nat) : (s.postRefused t c w e a).log = s.log :=
  State.postTenant_log _ _ _ _ _ _ _
@[simp] theorem State.postRefused_fuses (t c : Nat) (w : Bool) (e a : Nat) : (s.postRefused t c w e a).fuses = s.fuses :=
  State.postTenant_fuses _ _ _ _ _ _ _
@[simp] theorem State.postRefused_cipher (t c : Nat) (w : Bool) (e a : Nat) : (s.postRefused t c w e a).cipher = s.cipher :=
  State.postTenant_cipher _ _ _ _ _ _ _
@[simp] theorem State.postRefused_radio (t c : Nat) (w : Bool) (e a : Nat) : (s.postRefused t c w e a).radio = s.radio :=
  State.postTenant_radio _ _ _ _ _ _ _
@[simp] theorem State.postRefused_decoder (t c : Nat) (w : Bool) (e a : Nat) : (s.postRefused t c w e a).decoder = s.decoder :=
  State.postTenant_decoder _ _ _ _ _ _ _
@[simp] theorem State.postRefused_relay (t c : Nat) (w : Bool) (e a : Nat) : (s.postRefused t c w e a).relay = s.relay :=
  State.postTenant_relay _ _ _ _ _ _ _
@[simp] theorem State.postRefused_cinch (t c : Nat) (w : Bool) (e a : Nat) : (s.postRefused t c w e a).cinch = s.cinch :=
  State.postTenant_cinch _ _ _ _ _ _ _
@[simp] theorem State.postRefused_girth (t c : Nat) (w : Bool) (e a : Nat) : (s.postRefused t c w e a).girth = s.girth :=
  State.postTenant_girth _ _ _ _ _ _ _
@[simp] theorem State.postRefused_rtc (t c : Nat) (w : Bool) (e a : Nat) : (s.postRefused t c w e a).rtc = s.rtc :=
  State.postTenant_rtc _ _ _ _ _ _ _
@[simp] theorem State.postRefused_timers (t c : Nat) (w : Bool) (e a : Nat) : (s.postRefused t c w e a).timers = s.timers :=
  State.postTenant_timers _ _ _ _ _ _ _
@[simp] theorem State.postRefused_flash (t c : Nat) (w : Bool) (e a : Nat) : (s.postRefused t c w e a).flash = s.flash :=
  State.postTenant_flash _ _ _ _ _ _ _
@[simp] theorem State.postRefused_wired (t c : Nat) (w : Bool) (e a : Nat) : (s.postRefused t c w e a).wired = s.wired :=
  State.postTenant_wired _ _ _ _ _ _ _
@[simp] theorem State.postRefused_pkg (t c : Nat) (w : Bool) (e a : Nat) : (s.postRefused t c w e a).pkg = s.pkg :=
  State.postTenant_pkg _ _ _ _ _ _ _
@[simp] theorem State.postRefused_mono (t c : Nat) (w : Bool) (e a : Nat) : (s.postRefused t c w e a).mono = s.mono :=
  State.postTenant_mono _ _ _ _ _ _ _
@[simp] theorem State.postRefused_age (t c : Nat) (w : Bool) (e a : Nat) : (s.postRefused t c w e a).age = s.age :=
  State.postTenant_age _ _ _ _ _ _ _
@[simp] theorem State.postRefused_freeCount (t c : Nat) (w : Bool) (e a : Nat) : (s.postRefused t c w e a).freeCount = s.freeCount :=
  State.postTenant_freeCount _ _ _ _ _ _ _

@[simp] theorem State.modPkg_pkg (f : PkgSt → PkgSt) : (s.modPkg f).pkg = f s.pkg := rfl

@[simp] theorem State.modCinch_cinch (f : CinchSt → CinchSt) : (s.modCinch f).cinch = f s.cinch := rfl

@[simp] theorem State.modGirth_girth (f : GirthSt → GirthSt) : (s.modGirth f).girth = f s.girth := rfl

@[simp] theorem State.modFlash_flash (f : FlashSt → FlashSt) : (s.modFlash f).flash = f s.flash := rfl

@[simp] theorem State.modDec_decoder (f : DecoderSt → DecoderSt) : (s.modDec f).decoder = f s.decoder := rfl

@[simp] theorem State.modRelay_relay (f : RelaySt → RelaySt) : (s.modRelay f).relay = f s.relay := rfl

/-! ## Cores and clusters -/

@[simp] theorem State.eng_setEng_self (n : Nat) (e : Engine) : (s.setEng n e).eng n = e := tabGet_tabSet_self _ _ _ _

theorem State.eng_setEng_of_ne {n m : Nat} (e : Engine) (h : m ≠ n) : (s.setEng n e).eng m = s.eng m :=
  tabGet_tabSet_of_ne _ _ _ _ h

@[simp] theorem State.eng_modEng_self (n : Nat) (f : Engine → Engine) : (s.modEng n f).eng n = f (s.eng n) :=
  tabGet_tabSet_self _ _ _ _

theorem State.eng_modEng_of_ne {n m : Nat} (f : Engine → Engine) (h : m ≠ n) : (s.modEng n f).eng m = s.eng m :=
  tabGet_tabSet_of_ne _ _ _ _ h

@[simp] theorem State.clu_modClu_self (n : Nat) (f : Cluster → Cluster) : (s.modClu n f).clu n = f (s.clu n) :=
  tabGet_tabSet_self _ _ _ _

theorem State.clu_modClu_of_ne {n m : Nat} (f : Cluster → Cluster) (h : m ≠ n) : (s.modClu n f).clu m = s.clu m :=
  tabGet_tabSet_of_ne _ _ _ _ h

end Sys2Proof.Machine
end

