-- ==== Sys2Proof/Laws/Clean.lean ====
section
/-!
SUPPORT. Reads and writes through check bits that are right (`State.Clean`): a read gives the bytes and leaves the state;
a write of bytes, in whole words or parts, leaves exactly those bytes changed.
-/

namespace Sys2Proof.Machine

theorem leBytes_length (n v : Nat) : (leBytes n v).length = n := by
  induction n generalizing v with
  | zero => rfl
  | succ n ih => simp [leBytes, ih]

theorem leNat_lt (bs : List Byte) : leNat bs < 256 ^ bs.length := by
  induction bs with
  | nil => simp [leNat]
  | cons b bs ih =>
    have hb := b.isLt
    simp only [leNat, List.length_cons, Nat.pow_succ]
    omega

/-- The bytes of the number that bytes hold are those bytes. -/
theorem leBytes_leNat (bs : List Byte) : leBytes bs.length (leNat bs) = bs := by
  induction bs with
  | nil => rfl
  | cons b bs ih =>
    have hb := b.isLt
    have h1 : (b.toNat + 256 * leNat bs) / 256 = leNat bs := by omega
    have h2 : BitVec.ofNat 8 (b.toNat + 256 * leNat bs) = b := by
      apply BitVec.eq_of_toNat_eq
      rw [BitVec.toNat_ofNat]
      omega
    simp only [List.length_cons, leBytes, leNat, h1, h2, ih]

theorem eccVerdict_zero : eccVerdict 0#72 = .ok := by decide

theorem State.clean_mono {s : State} {k n k' n' : Nat} (h : s.Clean k n) (hk : k / 8 * 8 ≤ k' / 8 * 8) (hn : k' + n' ≤ k + n) :
    s.Clean k' n' := fun j h1 h2 => h j (by omega) (by omega)

theorem State.word64_of_flip {s : State} {k : Nat} (h : s.flipAt k = 0#72) :
    s.word64 k = (BitVec.ofNat 64 (s.num k 8), .ok) := by
  have hp : popc 0#72 = 0 := by decide
  simp [State.word64, h, eccVerdict_zero, hp]

theorem State.num_lt (s : State) (k n : Nat) : s.num k n < 256 ^ n := by
  have h := leNat_lt (s.bytes k n)
  rwa [s.bytes_length] at h

/-- A word whose check bits are right reads as its bytes, and the read changes nothing. -/
theorem State.readWord_clean {s : State} {k : Nat} (addr reader : Nat) (h : s.flipAt k = 0#72) :
    s.readWord k addr reader = (BitVec.ofNat 64 (s.num k 8), true, s) := by
  simp [State.readWord, State.word64_of_flip h]

theorem State.bytes_append (s : State) (k m n : Nat) : s.bytes k (m + n) = s.bytes k m ++ s.bytes (k + m) n := by
  induction m generalizing k with
  | zero => simp [State.bytes]
  | succ m ih =>
    rw [show m + 1 + n = (m + n) + 1 by omega]
    simp only [State.bytes, List.cons_append, ih]
    rw [show k + 1 + m = k + (m + 1) by omega]

theorem State.readWords_clean {s : State} {k : Nat} (n reader : Nat)
    (h : ∀ i, i < n → s.flipAt (k + 8 * i) = 0#72) : s.readWords k n reader = (s.bytes k (8 * n), true, s) := by
  induction n generalizing k with
  | zero => rfl
  | succ n ih =>
    have h0 : s.flipAt k = 0#72 := by simpa using h 0 (by omega)
    have hr := ih (k := k + 8) (fun i hi => by
      have := h (i + 1) (by omega)
      rwa [show k + 8 * (i + 1) = k + 8 + 8 * i by omega] at this)
    have hb : leBytes 8 (BitVec.ofNat 64 (s.num k 8)).toNat = s.bytes k 8 := by
      have hl := s.num_lt k 8
      have hm : (BitVec.ofNat 64 (s.num k 8)).toNat = s.num k 8 := by
        rw [BitVec.toNat_ofNat]
        exact Nat.mod_eq_of_lt (by simpa using hl)
      have := leBytes_leNat (s.bytes k 8)
      rw [s.bytes_length] at this
      rw [hm]
      exact this
    simp only [State.readWords, State.readWord_clean k reader h0, hr, hb]
    rw [show 8 * (n + 1) = 8 + 8 * n by omega, State.bytes_append]
    rfl

theorem State.bytes_drop (s : State) (k n d : Nat) (h : d ≤ n) : (s.bytes k n).drop d = s.bytes (k + d) (n - d) := by
  obtain ⟨m, rfl⟩ : ∃ m, n = d + m := ⟨n - d, by omega⟩
  rw [State.bytes_append, List.drop_append_of_le_length (Nat.le_of_eq (s.bytes_length k d).symm),
    List.drop_of_length_le (Nat.le_of_eq (s.bytes_length k d))]
  simp

theorem State.bytes_take (s : State) (k n m : Nat) (h : m ≤ n) : (s.bytes k n).take m = s.bytes k m := by
  obtain ⟨r, rfl⟩ : ∃ r, n = m + r := ⟨n - m, by omega⟩
  rw [State.bytes_append, List.take_append_of_le_length (Nat.le_of_eq (s.bytes_length k m).symm),
    List.take_of_length_le (Nat.le_of_eq (s.bytes_length k m))]

/-- Bytes whose words have right check bits: the read gives them and changes nothing. -/
theorem State.readBytes_clean {s : State} {k n : Nat} (reader : Nat) (hn : 0 < n) (h : s.Clean k n) :
    s.readBytes k n reader = (s.bytes k n, true, s) := by
  have hr := s.readWords_clean (k := k / 8 * 8) ((k + n + 7) / 8 - k / 8 * 8 / 8) reader
    (fun i hi => h _ (by omega) (by omega))
  simp only [State.readBytes, hr]
  rw [State.bytes_drop _ _ _ _ (by omega), State.bytes_take _ _ _ _ (by omega)]
  rw [show k / 8 * 8 + (k - k / 8 * 8) = k by omega]

/-! ## Writes -/

theorem State.setBytes_rest (bs : List Byte) (s : State) (k : Nat) : s.setBytes k bs = { s with mem := (s.setBytes k bs).mem } := by
  induction bs generalizing s k with
  | nil => rfl
  | cons b bs ih =>
    rw [State.setBytes, ih (s.setByte k b) (k + 1)]
    rfl

theorem State.flipAt_setFlip (s : State) (k j : Nat) (f : BitVec 72) :
    (s.setFlip k f).flipAt j = if j = k then f else s.flipAt j := by
  unfold State.flipAt State.setFlip
  exact tabGet_tabSet _ _ _ _ _

theorem State.flipAt_setBytes (s : State) (k : Nat) (bs : List Byte) (j : Nat) : (s.setBytes k bs).flipAt j = s.flipAt j := by
  rw [State.setBytes_rest]
  rfl

theorem State.bytes_of_same {s t : State} (k n : Nat) (h : ∀ j, k ≤ j → j < k + n → t.byte j = s.byte j) :
    t.bytes k n = s.bytes k n := by
  induction n generalizing k with
  | zero => rfl
  | succ n ih =>
    simp only [State.bytes]
    rw [h k (by omega) (by omega), ih (k + 1) (fun j h1 h2 => h j (by omega) (by omega))]

/-- Bytes stored again as they stand change nothing that is read. -/
theorem State.byte_setBytes_same (s : State) (k n j : Nat) : (s.setBytes k (s.bytes k n)).byte j = s.byte j := by
  by_cases h : j < k ∨ k + n ≤ j
  · exact State.byte_setBytes_of_outside _ _ (by rw [s.bytes_length]; exact h)
  · have hi : j - k < (s.bytes k n).length := by rw [s.bytes_length]; omega
    have := State.byte_setBytes_inside (s.bytes k n) s k (j - k) hi
    rw [show k + (j - k) = j by omega] at this
    rw [this]
    have hb : ∀ (n k i : Nat) (hi : i < (s.bytes k n).length), (s.bytes k n)[i] = s.byte (k + i) := by
      intro n
      induction n with
      | zero => intro k i hi; simp [State.bytes] at hi
      | succ n ih =>
        intro k i hi
        cases i with
        | zero => simp [State.bytes]
        | succ i =>
          simp only [State.bytes, List.getElem_cons_succ]
          rw [ih, show k + 1 + i = k + (i + 1) by omega]
    rw [hb, show k + (j - k) = j by omega]

/-- What one step of a write of bytes does: the bytes of one word, or the part of it that is written. -/
structure State.PutBytes (s t : State) (k : Nat) (bs : List Byte) : Prop where
  rest : t = { s with mem := t.mem, upkeep := t.upkeep }
  bytes : ∀ i (h : i < bs.length), t.byte (k + i) = bs[i]
  outside : ∀ j, j < k ∨ k + bs.length ≤ j → t.byte j = s.byte j
  clean : ∀ j, t.flipAt j = if k / 8 * 8 ≤ j ∧ j < k + bs.length ∧ j % 8 = 0 then 0#72 else s.flipAt j

theorem State.putBytes_word (s : State) {k : Nat} {bs : List Byte} (hk : k % 8 = 0) (hb : bs.length = 8) :
    s.PutBytes (s.setWord64 k (leNat bs) 0#72) k bs := by
  have he : leBytes 8 (leNat bs) = bs := by have := leBytes_leNat bs; rwa [hb] at this
  have hs : s.setWord64 k (leNat bs) 0#72 = (s.setBytes k bs).setFlip k 0#72 := by
    unfold State.setWord64 State.setNum
    rw [he]
  rw [hs]
  refine ⟨?_, fun i h => ?_, fun j h => ?_, fun j => ?_⟩
  · rw [State.setBytes_rest]; rfl
  · exact State.byte_setBytes_inside bs s k i h
  · exact State.byte_setBytes_of_outside bs s h
  · rw [State.flipAt_setFlip, State.flipAt_setBytes, hb]
    by_cases h : j = k
    · rw [if_pos h, if_pos ⟨by omega, by omega, by omega⟩]
    · rw [if_neg h, if_neg (by omega)]

theorem State.putBytes_part (s : State) {k : Nat} {bs : List Byte} (addr reader : Nat) (h0 : 0 < bs.length)
    (hb : k % 8 + bs.length ≤ 8) (hc : s.flipAt (k / 8 * 8) = 0#72) :
    s.PutBytes (s.writePart k bs.length (leNat bs) addr reader 0#72).1 k bs := by
  have he := leBytes_leNat bs
  have hn : (BitVec.ofNat 64 (s.num (k / 8 * 8) 8)).toNat = s.num (k / 8 * 8) 8 := by
    rw [BitVec.toNat_ofNat]
    exact Nat.mod_eq_of_lt (by simpa using s.num_lt (k / 8 * 8) 8)
  have h8 : leBytes 8 (s.num (k / 8 * 8) 8) = s.bytes (k / 8 * 8) 8 := by
    have := leBytes_leNat (s.bytes (k / 8 * 8) 8)
    rwa [s.bytes_length] at this
  have hs : (s.writePart k bs.length (leNat bs) addr reader 0#72).1
      = ((s.setBytes (k / 8 * 8) (s.bytes (k / 8 * 8) 8)).setBytes k bs).setFlip (k / 8 * 8) 0#72 := by
    simp only [State.writePart, State.word64_of_flip hc, State.setNum, hn, h8, he]
    rfl
  rw [hs]
  refine ⟨?_, fun i h => ?_, fun j h => ?_, fun j => ?_⟩
  · rw [State.setBytes_rest bs, State.setBytes_rest (s.bytes _ 8)]; rfl
  · exact State.byte_setBytes_inside bs _ k i h
  · have := State.byte_setBytes_of_outside bs (s.setBytes (k / 8 * 8) (s.bytes (k / 8 * 8) 8)) h
    exact this.trans (s.byte_setBytes_same _ _ _)
  · rw [State.flipAt_setFlip, State.flipAt_setBytes, State.flipAt_setBytes]
    by_cases h : j = k / 8 * 8
    · rw [if_pos h, if_pos ⟨by omega, by omega, by omega⟩]
    · rw [if_neg h, if_neg (by omega)]

theorem State.PutBytes.append {s t u : State} {k : Nat} {as bs : List Byte} (h1 : s.PutBytes t k as)
    (h2 : t.PutBytes u (k + as.length) bs) (hb : bs = [] ∨ (k + as.length) % 8 = 0) : s.PutBytes u k (as ++ bs) := by
  refine ⟨?_, fun i h => ?_, fun j h => ?_, fun j => ?_⟩
  · rw [h2.rest, h1.rest]
  · by_cases hi : i < as.length
    · rw [h2.outside _ (by omega), h1.bytes i hi, List.getElem_append_left hi]
    · have := h2.bytes (i - as.length) (by simp at h; omega)
      rw [List.getElem_append_right (by omega), ← this]
      congr 1
      omega
  · simp only [List.length_append] at h
    rw [h2.outside _ (by omega), h1.outside _ (by omega)]
  · rw [h2.clean, h1.clean, List.length_append]
    rcases hb with rfl | hb
    · simp only [List.length_nil, Nat.add_zero]
      by_cases h : k / 8 * 8 ≤ j ∧ j < k + as.length ∧ j % 8 = 0
      · simp only [if_pos h]; split <;> rfl
      · rw [if_neg h]
        split
        · next h' => exfalso; omega
        · rfl
    · by_cases h : k / 8 * 8 ≤ j ∧ j < k + (as.length + bs.length) ∧ j % 8 = 0
      · rw [if_pos h]
        split
        · rfl
        · rw [if_pos (by omega)]
      · rw [if_neg h, if_neg (by omega), if_neg (by omega)]

/-- Bytes written by a hardware master into words with right check bits: those bytes, and no others. -/
theorem State.writeWordsB_put (fuel : Nat) (s : State) (k : Nat) (bs : List Byte) (hf : bs.length = 0 ∨ k % 8 + bs.length ≤ 8 * fuel)
    (h : s.Clean k bs.length) : s.PutBytes (s.writeWordsB k bs fuel) k bs := by
  induction fuel generalizing s k bs with
  | zero =>
    have hb : bs = [] := List.eq_nil_of_length_eq_zero (by omega)
    subst hb
    refine ⟨rfl, by simp, fun _ _ => rfl, fun j => ?_⟩
    split
    · next hj => exact h j hj.1 hj.2.1
    · rfl
  | succ m ih =>
    by_cases h0 : bs.length = 0
    · have hb : bs = [] := List.eq_nil_of_length_eq_zero h0
      subst hb
      have hs : s.writeWordsB k [] (m + 1) = s := by simp [State.writeWordsB]
      rw [hs]
      refine ⟨rfl, by simp, fun _ _ => rfl, fun j => ?_⟩
      split
      · next hj => exact h j hj.1 hj.2.1
      · rfl
    · have hn : min (8 - k % 8) bs.length ≠ 0 := by omega
      have hlen : (bs.take (min (8 - k % 8) bs.length)).length = min (8 - k % 8) bs.length := by
        rw [List.length_take]; omega
      have hstep : s.PutBytes (if min (8 - k % 8) bs.length = 8 then s.setWord64 k (leNat (bs.take 8)) 0#72
          else (s.writePart k (min (8 - k % 8) bs.length) (leNat (bs.take (min (8 - k % 8) bs.length))) k 0x7F 0#72).1) k
          (bs.take (min (8 - k % 8) bs.length)) := by
        split
        · next h8 => rw [h8]; exact s.putBytes_word (by omega) (by rw [List.length_take]; omega)
        · have := s.putBytes_part (k := k) (bs := bs.take (min (8 - k % 8) bs.length)) k 0x7F (by omega) (by omega)
            (h _ (by omega) (by omega))
          rwa [hlen] at this
      have hw : s.writeWordsB k bs (m + 1) = State.writeWordsB (if min (8 - k % 8) bs.length = 8 then s.setWord64 k
          (leNat (bs.take 8)) 0#72 else (s.writePart k (min (8 - k % 8) bs.length)
            (leNat (bs.take (min (8 - k % 8) bs.length))) k 0x7F 0#72).1) (k + min (8 - k % 8) bs.length)
          (bs.drop (min (8 - k % 8) bs.length)) m := by
        simp only [State.writeWordsB, if_neg hn]
      rw [hw]
      have hrest := ih (if min (8 - k % 8) bs.length = 8 then s.setWord64 k (leNat (bs.take 8)) 0#72
          else (s.writePart k (min (8 - k % 8) bs.length) (leNat (bs.take (min (8 - k % 8) bs.length))) k 0x7F 0#72).1)
        (k + min (8 - k % 8) bs.length) (bs.drop (min (8 - k % 8) bs.length)) (by rw [List.length_drop]; omega)
        (fun j h1 h2 => by
          rw [List.length_drop] at h2
          rw [hstep.clean]
          split
          · rfl
          · exact h j (by omega) (by omega))
      have happ := hstep.append (u := _) (bs := bs.drop (min (8 - k % 8) bs.length)) (by rw [hlen]; exact hrest) (by
        rw [hlen]
        by_cases hq : 8 - k % 8 ≤ bs.length
        · exact .inr (by omega)
        · exact .inl (List.drop_of_length_le (by omega)))
      rwa [List.take_append_drop] at happ

theorem State.writeBytes_put (s : State) (k : Nat) (bs : List Byte) (h : s.Clean k bs.length) :
    s.PutBytes (s.writeBytes k bs) k bs := s.writeWordsB_put _ k bs (by omega) h

/-- What was put reads back whole. -/
theorem State.PutBytes.reads {s t : State} {k : Nat} {bs : List Byte} (h : s.PutBytes t k bs) :
    t.bytes k bs.length = bs := by
  have hb : ∀ (n k : Nat) (cs : List Byte), cs.length = n → (∀ i (hi : i < cs.length), t.byte (k + i) = cs[i]) →
      t.bytes k n = cs := by
    intro n
    induction n with
    | zero => intro k cs hc _; rw [List.eq_nil_of_length_eq_zero hc]; rfl
    | succ n ih =>
      intro k cs hc hi
      cases cs with
      | nil => simp at hc
      | cons c cs =>
        have h0 := hi 0 (by simp)
        simp only [Nat.add_zero, List.getElem_cons_zero] at h0
        simp only [State.bytes, h0]
        rw [ih (k + 1) cs (by simpa using hc) (fun i h' => by
          have := hi (i + 1) (by simpa using h')
          rw [List.getElem_cons_succ] at this
          rw [← this, show k + 1 + i = k + (i + 1) by omega])]
  exact hb _ _ _ rfl h.bytes

end Sys2Proof.Machine
end

