-- ==== Sys2Proof/Laws/Core.lean ====
section
/-!
SUPPORT. Laws of a core: what a write to a register does to every register, and what `issue` does once an instruction
executes.
-/

namespace Sys2Proof.Machine

variable (e : Engine)

/-! ## Slots -/

@[simp] theorem Engine.slot_setSlot_self (p : Nat) (sl : Slot) : (e.setSlot p sl).slot p = sl := tabGet_tabSet_self _ _ _ _

theorem Engine.slot_setSlot_of_ne {p q : Nat} (sl : Slot) (h : q ≠ p) : (e.setSlot p sl).slot q = e.slot q :=
  tabGet_tabSet_of_ne _ _ _ _ h

@[simp] theorem Engine.slot_modSlot_self (p : Nat) (f : Slot → Slot) : (e.modSlot p f).slot p = f (e.slot p) :=
  tabGet_tabSet_self _ _ _ _

theorem Engine.slot_modSlot_of_ne {p q : Nat} (f : Slot → Slot) (h : q ≠ p) : (e.modSlot p f).slot q = e.slot q :=
  tabGet_tabSet_of_ne _ _ _ _ h

@[simp] theorem Engine.cur_modSlot (p : Nat) (f : Slot → Slot) : (e.modSlot p f).cur = e.cur := rfl
@[simp] theorem Engine.xs_modSlot (p : Nat) (f : Slot → Slot) : (e.modSlot p f).xs = e.xs := rfl
@[simp] theorem Engine.p13_modSlot (p : Nat) (f : Slot → Slot) : (e.modSlot p f).p13 = e.p13 := rfl
@[simp] theorem Engine.outs_modSlot (p : Nat) (f : Slot → Slot) : (e.modSlot p f).outs = e.outs := rfl
@[simp] theorem Engine.cur_setPc (v : Word) : (e.setPc v).cur = e.cur := rfl
@[simp] theorem Engine.outs_setPc (v : Word) : (e.setPc v).outs = e.outs := rfl
@[simp] theorem Engine.pc_setPc (v : Word) : (e.setPc v).pc = v := by simp [Engine.setPc, Engine.pc]

/-- Moving the program counter changes no register. -/
@[simp] theorem Engine.x_setPc (v : Word) (r : Nat) : (e.setPc v).x r = e.x r := by
  unfold Engine.x Engine.setPc
  simp

/-- Moving the program counter changes no predicate. -/
@[simp] theorem Engine.p_setPc (v : Word) (i : Nat) : (e.setPc v).p i = e.p i := by
  unfold Engine.p Engine.setPc
  simp

/-! ## Writes of registers -/

@[simp] theorem Engine.cur_setX (r : Nat) (v : Word) : (e.setX r v).cur = e.cur := by
  simp only [Engine.setX, Engine.setXOf]; split <;> (try split) <;> rfl

theorem Engine.slots_setX (r : Nat) (v : Word) :
    (e.setX r v).slots =
      if r < 16 then e.slots else (e.modSlot e.cur (fun sl => { sl with xs := tabSet 0#32 sl.xs r v })).slots := by
  simp only [Engine.setX, Engine.setXOf]
  by_cases h0 : r = 0
  · subst h0; rfl
  · by_cases h : r < 16 <;> simp [h0, h]

/-- A slot after a write of register r of the running slot: the upper registers of that slot alone may differ. -/
theorem Engine.slot_setX (r q : Nat) (v : Word) :
    (e.setX r v).slot q =
      if q = e.cur ∧ 16 ≤ r then { e.slot e.cur with xs := tabSet 0#32 (e.slot e.cur).xs r v } else e.slot q := by
  show tabGet {} (e.setX r v).slots q = _
  rw [Engine.slots_setX]
  by_cases h : r < 16
  · have h' : ¬16 ≤ r := by omega
    simp only [h, h', if_true, and_false, if_false]; rfl
  · have h' : 16 ≤ r := by omega
    simp only [h, h', if_false, and_true]
    by_cases hq : q = e.cur
    · subst hq; simp only [if_true]; exact e.slot_modSlot_self e.cur _
    · simp only [hq, if_false]; exact e.slot_modSlot_of_ne _ hq

theorem Engine.xs_setX (r : Nat) (v : Word) :
    (e.setX r v).xs = if r = 0 ∨ 16 ≤ r then e.xs else tabSet 0#32 e.xs r v := by
  simp only [Engine.setX, Engine.setXOf]
  by_cases h0 : r = 0
  · subst h0; rfl
  · by_cases h : r < 16
    · have h' : ¬16 ≤ r := by omega
      simp [h0, h, h']
    · have h' : 16 ≤ r := by omega
      simp [h0, h, h']

@[simp] theorem Engine.p13_setX (r : Nat) (v : Word) : (e.setX r v).p13 = e.p13 := by
  simp only [Engine.setX, Engine.setXOf]; split <;> (try split) <;> rfl

@[simp] theorem Engine.pc_setX (r : Nat) (v : Word) : (e.setX r v).pc = e.pc := by
  simp only [Engine.pc, Engine.cur_setX, Engine.slot_setX]
  split <;> rfl

@[simp] theorem Engine.p_setX (r : Nat) (v : Word) (i : Nat) : (e.setX r v).p i = e.p i := by
  simp only [Engine.p, Engine.cur_setX, Engine.slot_setX, Engine.p13_setX]
  by_cases h : 16 ≤ r <;> simp [h]

/-- A write of register r of the running slot: x0 discards it, every other register keeps its value. -/
theorem Engine.x_setX (r q : Nat) (v : Word) : (e.setX r v).x q = if q = r ∧ q ≠ 0 then v else e.x q := by
  simp only [Engine.x, Engine.cur_setX, Engine.slot_setX, Engine.xs_setX]
  by_cases hq : q = 0
  · simp [hq]
  · by_cases hq16 : q < 16
    · by_cases hr : r = 0 ∨ 16 ≤ r
      · have h : q ≠ r := by omega
        simp [hq, hq16, hr, h]
      · by_cases h : q = r
        · subst h; simp [hq, hq16, show ¬16 ≤ q by omega]
        · simp [hq, hq16, hr, h, tabGet_tabSet_of_ne]
    · by_cases hr : 16 ≤ r
      · by_cases h : q = r
        · subst h; simp [hq, hq16, hr]
        · simp [hq, hq16, hr, h, tabGet_tabSet_of_ne]
      · have h : q ≠ r := by omega
        simp [hq, hq16, hr, h]

theorem Engine.outs_length_setX (r : Nat) (v : Word) : (e.setX r v).outs.length = e.outs.length := by
  unfold Engine.setX
  split <;> simp

theorem Engine.setX_rest (r : Nat) (v : Word) :
    e.setX r v = { e with xs := (e.setX r v).xs, slots := (e.setX r v).slots, outs := (e.setX r v).outs } := by
  simp only [Engine.setX, Engine.setXOf]
  split
  · rfl
  · split <;> rfl

theorem Engine.x_tick (k r : Nat) : (e.tick k).x r = e.x r := rfl
theorem Engine.p_tick (k i : Nat) : (e.tick k).p i = e.p i := rfl
theorem Engine.slot_tick (k q : Nat) : (e.tick k).slot q = e.slot q := rfl
theorem Engine.pc_tick (k : Nat) : (e.tick k).pc = e.pc := rfl

/-- What an instruction that writes one register and takes no cycle does to its core. -/
theorem Engine.setX_adv_wrote (rd : Nat) (v : Word) :
    (∀ r, ((e.setX rd v).adv).x r = if r = rd ∧ r ≠ 0 then v else e.x r) ∧ ((e.setX rd v).adv).pc = e.pc + 4#32
      ∧ (∀ i, ((e.setX rd v).adv).p i = e.p i) ∧ (∀ q, q ≠ e.cur → ((e.setX rd v).adv).slot q = e.slot q)
      ∧ ((e.setX rd v).adv).slot e.cur =
          { e.slot e.cur with pc := ((e.setX rd v).adv).pc, xs := (((e.setX rd v).adv).slot e.cur).xs }
      ∧ ((e.setX rd v).adv).outs.length = e.outs.length
      ∧ (e.setX rd v).adv =
          { e with xs := ((e.setX rd v).adv).xs, slots := ((e.setX rd v).adv).slots, outs := ((e.setX rd v).adv).outs } := by
  have hs : ∀ q, ((e.setX rd v).adv).slot q =
      if q = e.cur then { (e.setX rd v).slot e.cur with pc := e.pc + 4#32 } else (e.setX rd v).slot q := by
    intro q
    unfold Engine.adv Engine.setPc
    by_cases hq : q = e.cur
    · have h := (e.setX rd v).slot_modSlot_self (e.setX rd v).cur (fun sl => { sl with pc := (e.setX rd v).pc + 4#32 })
      rw [Engine.cur_setX, Engine.pc_setX] at h
      rw [if_pos hq, hq, Engine.cur_setX, Engine.pc_setX, h]
    · rw [Engine.slot_modSlot_of_ne _ _ (by simpa using hq), if_neg hq]
  refine ⟨fun r => ?_, ?_, fun i => ?_, fun q hq => ?_, ?_, ?_, ?_⟩
  · simp [Engine.adv, Engine.x_setX]
  · simp [Engine.adv]
  · simp [Engine.adv]
  · rw [hs, if_neg hq, Engine.slot_setX, if_neg (fun h => hq h.1)]
  · have hp : ((e.setX rd v).adv).pc = e.pc + 4#32 := by simp [Engine.adv]
    rw [hs, if_pos rfl, hp, Engine.slot_setX]
    split <;> rfl
  · simp [Engine.adv, Engine.outs_length_setX]
  · have h := e.setX_rest rd v
    unfold Engine.adv Engine.setPc Engine.modSlot Engine.setSlot
    rw [h]

/-- What an instruction of one cycle that writes one register does to its core. -/
theorem Engine.wrote_setX_adv (rd : Nat) (v : Word) : e.Wrote (((e.tick 1).setX rd v).adv) rd v :=
  (e.tick 1).setX_adv_wrote rd v

/-! ## Issue -/

/-- An instruction that executes has its effect on the core after one cycle, or, while it must wait, what waiting does. -/
theorem issue_of_issues {s : State} {c : CoreId} {p : Pred} {uses : List (BitVec 5)} (h : s.Issues c p uses)
    (k : Engine → State → Option State) (held : State → State) :
    issue c p false uses k s 0 held =
      (match k ((s.eng (coreNum c)).tick 1) (s.setEng (coreNum c) ((s.eng (coreNum c)).tick 1)) with
        | some t => t
        | none => held s) := by
  have hu : uses.any (fun r => (s.eng (coreNum c)).inFlight r.toNat) = false := by
    rw [List.any_eq_false]
    intro r hr
    simp [h.ready r hr]
  unfold issue
  have hi := Nat.not_le.2 h.inside
  have hw := h.word
  have hl := h.legal
  simp only [h.may, h.holds, h.free, hu, hi]
  cases hv : s.word64 (fetchKey (coreNum c) (s.eng (coreNum c)).pc) with
  | mk v st =>
    rw [hv] at hw hl
    simp only at hw hl
    subst hw
    simp only [b2n, hl]
    simp <;> rfl

/-- An instruction that only changes its core. -/
theorem issueE_of_issues {s : State} {c : CoreId} {p : Pred} {uses : List (BitVec 5)} (h : s.Issues c p uses)
    (k : Engine → Engine) :
    issueE c p false uses k s =
      (s.setEng (coreNum c) ((s.eng (coreNum c)).tick 1)).setEng (coreNum c) (k ((s.eng (coreNum c)).tick 1)) := by
  unfold issueE
  rw [issue_of_issues h]

/-- Replacing the record of core n changes nothing else. -/
theorem State.onlyCore_setEng (s : State) (n : Nat) (f : Engine) : s.OnlyCore (s.setEng n f) n :=
  ⟨rfl, fun _ h => s.eng_setEng_of_ne f h⟩

end Sys2Proof.Machine
end

