-- ==== Sys2Proof/Laws/Dma.lean ====
section
/-!
SUPPORT. Laws of a hardware master's reads for a submitter (R311): what may be read and has right check bits is read, and
nothing changes; what the fence refuses is not read.
-/

namespace Sys2Proof.Machine

theorem State.dmaRead_zero (s : State) (t : Option Nat) (n a : Nat) : s.dmaRead t n a 0 = (some [], s) := rfl

theorem State.dmaRead_clean {s : State} {t : Option Nat} {n a k len : Nat} (h0 : 0 < len)
    (ho : s.dmaOk t n a len false = true) (hk : s.dmaKey n a = some k) (hu : s.unlaid k len = false) (hc : s.Clean k len)
    (hd : s.dieOff a = false) (hw : windowOff a = none) :
    s.dmaRead t n a len = (some (s.bytes k len), s) := by
  unfold State.dmaRead
  rw [if_neg (by omega), hd, if_pos ho, hk, hw]
  simp [hu, State.readBytes_clean _ h0 hc]

theorem State.dmaRead_refused {s : State} {t : Option Nat} {n a len : Nat} (h0 : 0 < len)
    (ho : s.dmaOk t n a len false = false) : s.dmaRead t n a len = (none, s.dmaRefuse t a false) := by
  have hd : s.dieOff a = false := by
    cases h : s.dieOff a
    · rfl
    · simp [State.dmaOk, h] at ho
  unfold State.dmaRead
  rw [if_neg (by omega), ho, hd]
  simp

end Sys2Proof.Machine
end

