-- ==== Sys2Proof/Laws/Reports.lean ====
section
/-!
SUPPORT. What a report can do: a notice posted, a log entry, a refusal by a fence, a corrected word.
Each law says once which parts of the state may differ.
-/

namespace Sys2Proof.Machine

theorem State.post_rest (s : State) (target kind low w1 w2 w3 : Nat) :
    s.post target kind low w1 w2 w3 = { s with flight := (s.post target kind low w1 w2 w3).flight } := rfl

theorem State.postTenant_rest (s : State) (t kind low w1 w2 w3 : Nat) :
    s.postTenant t kind low w1 w2 w3 = { s with flight := (s.postTenant t kind low w1 w2 w3).flight } := by
  unfold State.postTenant
  split <;> rfl

theorem State.postRefused_rest (s : State) (t cause : Nat) (write : Bool) (engine addr : Nat) :
    s.postRefused t cause write engine addr = { s with flight := (s.postRefused t cause write engine addr).flight } :=
  s.postTenant_rest _ _ _ _ _ _

theorem State.logAdd_rest (s : State) (code tenant engine d0 d1 d2 d3 : Nat) :
    s.logAdd code tenant engine d0 d1 d2 d3
      = { s with regs := (s.logAdd code tenant engine d0 d1 d2 d3).regs
                 log := (s.logAdd code tenant engine d0 d1 d2 d3).log } := by
  unfold State.logAdd
  split <;> rfl

/-- A log entry changes no register but the sequence number and the count of dropped entries. -/
theorem State.reg_logAdd (s : State) (code tenant engine d0 d1 d2 d3 a : Nat) (h1 : a ≠ aSYS_LOG_SEQ) (h2 : a ≠ aSYS_LOG_DROP) :
    (s.logAdd code tenant engine d0 d1 d2 d3).reg a = s.reg a := by
  unfold State.logAdd
  split
  · exact State.reg_fset_of_ne _ _ h1
  · exact State.reg_fset_of_ne _ _ h2

/-- The codes in the log buffer after an entry. -/
theorem State.codes_logAdd (s : State) (code tenant engine d0 d1 d2 d3 : Nat) :
    (s.logAdd code tenant engine d0 d1 d2 d3).log.buf.map LogItem.code
      = if s.log.buf.length < 16 then s.log.buf.map LogItem.code ++ [code] else s.log.buf.map LogItem.code := by
  unfold State.logAdd
  split
  · simp [State.finc, State.fadd, State.fset, State.setReg]
  · rfl

theorem fviolField_ok (t target : Nat) : (fviolField t target).lo + (fviolField t target).width ≤ 32 := by
  unfold fviolField
  split <;> simp

/-- A refusal by a fence: what may differ. -/
theorem State.refuseFence_rest (s : State) (t engine addr : Nat) (write : Bool) (target : Nat) :
    s.refuseFence t engine addr write target
      = { s with regs := (s.refuseFence t engine addr write target).regs
                 log := (s.refuseFence t engine addr write target).log
                 flight := (s.refuseFence t engine addr write target).flight } := by
  unfold State.refuseFence
  simp only
  split
  · rw [State.logAdd_rest, State.postRefused_rest]; rfl
  · rw [State.postRefused_rest]; rfl

theorem State.reg_postRefused (s : State) (t cause : Nat) (write : Bool) (engine addr a : Nat) :
    (s.postRefused t cause write engine addr).reg a = s.reg a := by
  rw [State.postRefused_rest]; rfl

theorem fviolField_addr (t target : Nat) : 0x10080000 ≤ (fviolField t target).addr := by
  unfold fviolField
  split <;> simp only [aTENANT_FVIOL_w0, aTENANT_FVIOL_w1, aTENANT_FVIOL_w2] <;> omega

/-- A refusal by a fence counts one violation of the tenant at the target. -/
theorem State.refuseFence_counted (s : State) (t engine addr : Nat) (write : Bool) (target : Nat) :
    s.Counted (s.refuseFence t engine addr write target) (fviolField t target) := by
  have hreg : ∀ u : State, (∀ a, 0x10080000 ≤ a → u.reg a = s.reg a) →
      s.Counted (u.finc (fviolField t target)) (fviolField t target) := by
    intro u hu
    unfold State.Counted
    rw [State.fget_finc_self _ (fviolField_ok t target)]
    unfold State.fget
    rw [hu _ (fviolField_addr t target)]
  unfold State.refuseFence
  simp only
  apply hreg
  intro a ha
  split
  · rw [State.reg_logAdd _ _ _ _ _ _ _ _ _ (by intro h; subst h; revert ha; decide) (by intro h; subst h; revert ha; decide)]
    exact s.reg_postRefused _ _ _ _ _ _
  · exact s.reg_postRefused _ _ _ _ _ _

theorem State.noteCorrected_rest (s : State) (k : Nat) :
    s.noteCorrected k = { s with regs := (s.noteCorrected k).regs, upkeep := (s.noteCorrected k).upkeep } := by
  unfold State.noteCorrected
  simp only
  split <;> rfl

end Sys2Proof.Machine
end

