-- ==== Sys2Proof/Tests/Slice0.lean ====
section
/-!
SUPPORT. Tests: ill-formed commands are refused by the well-formedness check, worked examples of the spec, and for every
statement with hypotheses a state and operands that meet them (`witness_<statement>`, its clauses in order).
-/

set_option Elab.async false

namespace Sys2Proof.Machine.Tests

open Sys2Proof Sys2Proof.Machine

/-! ## Small states -/

/-- A core that runs slot 0. -/
def core : Engine := { run := .running, slots := [(0, { st := .running, en := true })] }

/-- A state in which core n is e and nothing else has happened. -/
def withCore (n : Nat) (e : Engine) : State := State.reset.setEng n e

/-- Core 0 runs slot 0. -/
def s0 : State := withCore 0 core

/-- Core 0 runs slot 0 with x1 at w. -/
def sAt (w : Word) : State := withCore 0 { core with xs := [(1, w)] }

/-- The supervisor runs slot 0. -/
def sSup : State := withCore 128 core

/-- The predicate p0, which always holds. -/
def p0 : Pred := ⟨0#3, false⟩

/-- Core c has fetched an instruction. -/
def fetches (s : State) (c : CoreId) : Bool :=
  let e := s.eng (coreNum c)
  e.canIssue && !e.stepOne && decide (e.pc.toNat < iLimit (coreNum c))
    && decide ((s.word64 (fetchKey (coreNum c) e.pc)).2 = .ok)
    && !finhitIllegal (fetched (s.word64 (fetchKey (coreNum c) e.pc)).1 e.pc)

theorem fetches_of {s : State} {c : CoreId} (h : fetches s c = true) : s.Fetches c := by
  simp only [fetches, Bool.and_eq_true, Bool.not_eq_true', decide_eq_true_eq] at h
  exact ⟨h.1.1.1.1, h.1.1.1.2, h.1.1.2, h.1.2, h.2⟩

/-- Core c executes an instruction under p that reads `uses`. -/
def issues (s : State) (c : CoreId) (p : Pred) (uses : List (BitVec 5)) : Bool :=
  fetches s c && uses.all (fun r => !(s.eng (coreNum c)).inFlight r.toNat) && (s.eng (coreNum c)).guard p

theorem issues_of {s : State} {c : CoreId} {p : Pred} {uses : List (BitVec 5)} (h : issues s c p uses = true) :
    s.Issues c p uses := by
  simp only [issues, Bool.and_eq_true, List.all_eq_true, Bool.not_eq_true'] at h
  exact ⟨fetches_of h.1.1, h.1.2, h.2⟩

theorem mayAsk_of {s : State} {c : CoreId} {k : Nat} {rd : BitVec 5}
    (h : (decide ((s.eng (coreNum c)).outs.length < 8) && s.linkGrants (coreNum c) (copLink (coreNum c) k)) = true) :
    s.MayAsk c k rd := by
  simp only [Bool.and_eq_true, decide_eq_true_eq] at h
  exact ⟨fun _ => h.1, h.2⟩

/-- A state whose words have right check bits everywhere. -/
theorem clean_of {s : State} (k n : Nat) (h : s.upkeep.flips = []) : s.Clean k n := by
  intro j _ _
  unfold State.flipAt
  rw [h]
  rfl

/-- The state with fields set. -/
def with' (s : State) (fs : List (Fld × Nat)) : State := fs.foldl (fun t f => t.fset f.1 f.2) s

/-- Tenant t owns cluster 0 and may read and write all of region 0 and of system SRAM. -/
def owned (s : State) (t : Nat) : State :=
  with' s [(fENGCTL_CL_owned 0, 1), (fENGCTL_CL_tenant 0, t), (fTENANT_RFENCE_valid 0 0, 1),
      (fTENANT_RFENCE_write 0 0, 1),
    (fTENANT_RFENCE_tenant 0 0, t), (fTENANT_RFENCE_last 0 0, 127), (fTENANT_SFENCE_valid 0, 1),
    (fTENANT_SFENCE_write 0, 1), (fTENANT_SFENCE_tenant 0, t), (fTENANT_SFENCE_last 0, 127),
        (fTENANT_CFG_declared t, 1),
    (fSYS_TENANT_RUN_started, 2 ^ t)]

/-! ## Witnesses: cores -/

theorem witness_StepRunsFront : State.reset.pending = [] := rfl

theorem witness_AluFunctions : s0.Issues (.eng 0) p0 [1#5, 2#5] ∧ s0.Issues (.eng 0) p0 [31#5] ∧ sSup.Issues .sup p0 []
    ∧ s0.Issues (.eng 0) p0 [5#5] :=
  ⟨issues_of (by decide), issues_of (by decide), issues_of (by decide), issues_of (by decide)⟩

theorem witness_PredicatesWritten : (6#3 : BitVec 3) ≠ 7#3 ∧ s0.Issues (.eng 0) p0 [1#5, 2#5]
    ∧ s0.Issues (.eng 0) p0 [1#5]
    ∧ (2#2 : BitVec 2) ≠ 3#2 ∧ s0.Issues (.eng 0) p0 [] :=
  ⟨by decide, issues_of (by decide), issues_of (by decide), by decide, issues_of (by decide)⟩

theorem witness_PredicatedOff :
    let i := Instr.add (.eng 0) ⟨1#3, false⟩ 1#5 2#5 3#5
    let j := Instr.brk (.eng 0) p0 0#16
    (i.finhit = some (.eng 0, ⟨1#3, false⟩, [2#5, 3#5]) ∧ s0.Fetches (.eng 0) ∧ i.illegalIn s0 = false
      ∧ (∀ r ∈ [2#5, 3#5], (s0.eng 0).inFlight r.toNat = false) ∧ Bool.xor ((s0.eng 0).p 1) false = false)
    ∧ j.finhit = some (.eng 0, p0, []) ∧ j.illegalIn s0 = false ∧ Bool.xor ((s0.eng 0).p 0) false = true :=
  ⟨⟨rfl, fetches_of (by decide), by decide, by decide, by decide⟩, rfl, by decide, by decide⟩

/-- Core 0 before the instruction word w. -/
def sWord (w : Nat) : State := s0.setNum (iKey 0 0) 4 w

theorem witness_FaultsBeforePredicate :
    let far := withCore 0 { core with slots := [(0, { st := .running, pc := 0x10000#32 })] }
    let busy := withCore 0 { core with outs := [{ target := 0, txn := none, kind := .load 0 2 0#32 }] }
    let m (w : Nat) : Nat := bitsN (fetched ((sWord w).word64 (fetchKey 0 ((sWord w).eng 0).pc)).1 ((sWord w).eng 0).pc) 27 22
    let fn (w : Nat) : Nat := bitsN (fetched ((sWord w).word64 (fetchKey 0 ((sWord w).eng 0).pc)).1 ((sWord w).eng 0).pc) 11 0
    (State.reset.eng 0).canIssue = false
    ∧ ((far.eng 0).canIssue = true ∧ iLimit 0 ≤ (far.eng 0).pc.toNat)
    ∧ (∀ w ∈ [0x16, 0x27, 0x37, 0x3E], ((sWord (w * 2 ^ 22)).eng 0).canIssue = true
      ∧ ((sWord (w * 2 ^ 22)).word64 (fetchKey 0 ((sWord (w * 2 ^ 22)).eng 0).pc)).2 = .ok
      ∧ ((sWord (w * 2 ^ 22)).eng 0).pc.toNat < iLimit 0 ∧ m (w * 2 ^ 22) = w)
    ∧ (m 0x16 = 0 ∧ fn 0x16 = 0x16) ∧ (m 0x890 = 0 ∧ fn 0x890 = 0x890)
    ∧ (m (0x0D * 2 ^ 22 + 3) = 0x0D ∧ fn (0x0D * 2 ^ 22 + 3) = 3)
    ∧ (m (0x0A * 2 ^ 22 + 0x70) = 0x0A ∧ fn (0x0A * 2 ^ 22 + 0x70) = 0x70)
    ∧ (m (0x0B * 2 ^ 22 + 0xE00) = 0x0B ∧ fn (0x0B * 2 ^ 22 + 0xE00) = 0xE00)
    ∧ (m (0x3B * 2 ^ 22 + 64) = 0x3B ∧ fn (0x3B * 2 ^ 22 + 64) = 64)
    ∧ (s0.Fetches (.eng 0) ∧ (Instr.cmp (.eng 0) p0 1#3 0#2 1#5 2#5 7#3).illegalIn s0 = true)
    ∧ (busy.Fetches (.eng 0) ∧ (Instr.add (.eng 0) p0 1#5 2#5 3#5).illegalIn busy = false
      ∧ ∃ r ∈ [2#5, 3#5], (busy.eng 0).inFlight r.toNat = true) :=
  ⟨by decide, ⟨by decide, by decide⟩, by decide +kernel, by decide +kernel, by decide +kernel, by decide +kernel,
    by decide +kernel, by decide +kernel, by decide +kernel, ⟨fetches_of (by decide), by decide⟩, fetches_of (by decide),
    by decide, 2#5, by decide, by decide⟩

theorem witness_MultiplierAndSpecials :
    let q (k : Nat) : State := withCore 0 { core with mulq := [(.mac 1#32 2#32, k), (.setLo 3#32, 3)] }
    let out := withCore 0 { core with mulq := [(.mac 1#32 2#32, 3)], outs := [{ target := 0, txn := none, kind := .posted }] }
    s0.Issues (.eng 0) p0 [1#5, 2#5] ∧ ((q 2).eng 0).mulq = (.mac 1#32 2#32, 2) :: [(.setLo 3#32, 3)]
    ∧ ((q 1).eng 0).mulq = (.mac 1#32 2#32, 1) :: [(.setLo 3#32, 3)]
    ∧ ((out.eng 0).mulq = (.mac 1#32 2#32, 3) :: [] ∧ (out.eng 0).outs ≠ [])
    ∧ (((q 2).eng 0).canIssue = true ∧ ((q 2).eng 0).outs = []) ∧ (s0.eng 0).mulq = []
    ∧ sSup.Issues .sup p0 [] ∧ s0.Issues (.eng 0) p0 [1#5] :=
  ⟨issues_of (by decide), by decide, by decide, by decide, by decide, by decide, issues_of (by decide),
    issues_of (by decide)⟩

theorem witness_ControlFlow :
    let near (off : BitVec 22) : Nat := ((s0.eng 0).pc + 4#32 * off.signExtend 32).toNat
    let far (imm : BitVec 12) : Nat := (((s0.eng 0).x 1 + imm.signExtend 32) &&& 0xFFFFFFFC#32).toNat
    let out := withCore 0 { core with outs := [{ target := 0, txn := none, kind := .posted }] }
    let dbg := with' s0 [(fSYS_DBG_attached, 1), (fSYS_DBG_scope, 2)]
    let traces (lost : Bool) (k : Nat) : State := { with' State.reset [(fPINMUX_SEL_func 0, 7)] with
      wired := { State.reset.wired with trace := { fifo := List.replicate k 5#16, lost := lost } } }
    let tab : State := (s0.setNum (dtabKey 0 0) 4 (0x80000000 + 511)).setNum (dtabKey 0 (4 * 511)) 4 0
    s0.Issues (.eng 0) p0 [] ∧ near 0x3FFF#22 < iLimit 0 ∧ iLimit 0 ≤ near 0x4000#22 ∧ iLimit 0 ≤ near 0x3FFFFF#22
    ∧ s0.Issues (.eng 0) p0 [1#5] ∧ far 0x7FF#12 < iLimit 0 ∧ iLimit 0 ≤ far 0xFFF#12
    ∧ (s0.eng 0).outs = [] ∧ (out.Issues (.eng 0) p0 [] ∧ (out.eng 0).outs ≠ [])
    ∧ ((∀ q ∈ (s0.eng 0).slots, q.1 ≠ (s0.eng 0).cur → q.2.st ≠ .ready)
      ∧ ((s0.eng 0).slot 0).offDue = false ∧ keysRise (s0.eng 0).slots = true ∧ ((s0.eng 0).slot 0).pend = false
      ∧ ((s0.eng 0).slot 0).cancelDue = false)
    ∧ s0.fon fSYS_DBG_attached = false
    ∧ (dbg.Issues (.eng 0) p0 [] ∧ dbg.fon fSYS_DBG_attached = true ∧ dbg.fget fSYS_DBG_scope ≠ 0)
    ∧ (tab.Issues (.eng 0) p0 [1#5, 2#5] ∧ tab.variant = .sln4512 ∧ tab.dtabEntry (clusterOf 0) 0 = some [0])
    ∧ (s0.tracing = false ∧ (traces false 255).tracing = true ∧ (traces true 255).tracing = true)
    ∧ ((traces false 255).wired.trace.lost = false ∧ (traces false 255).traceLeft.length < 256)
    ∧ ((traces true 254).wired.trace.lost = true ∧ (traces true 254).traceLeft.length < 255)
    ∧ (255 ≤ (traces true 255).traceLeft.length ∧ 256 ≤ (traces false 256).traceLeft.length) :=
  ⟨issues_of (by decide), by decide, by decide, by decide, issues_of (by decide), by decide, by decide, by decide,
    ⟨issues_of (by decide), by decide⟩, ⟨by decide, by decide, by decide, by decide, by decide⟩, by decide,
    ⟨issues_of (by decide), by decide, by decide⟩, ⟨issues_of (by decide), by decide, by decide⟩,
    by decide +kernel, by decide +kernel, by decide +kernel, by decide +kernel⟩

theorem witness_OwnLoads :
    let a (s : State) (imm : BitVec 12) : Nat := ((s.eng 0).x 1 + imm.signExtend 32).toNat
    (sAt 0xFFF0#32).Issues (.eng 0) p0 [1#5] ∧ a (sAt 0xFFF0#32) 0xF#12 < ownSize 0 ∧ a (sAt 0xFFF0#32) 8#12 % 8 = 0
    ∧ (sAt 0xFFF0#32).flipAt (ownKey 0 (a (sAt 0xFFF0#32) 8#12) / 8 * 8) = 0#72 ∧ (30#5 : BitVec 5).toNat % 2 = 0 :=
  ⟨issues_of (by decide), by decide, by decide, by decide, by decide⟩

theorem witness_OwnStores :
    let s := sAt 0xFFF8#32
    let a := ((s.eng 0).x 1 + (0#12).signExtend 32).toNat
    a < ownSize 0 ∧ (s.eng 0).flip.armed = false ∧ s.fon fMEM_FLIP_armed = false
    ∧ (s.Issues (.eng 0) p0 [1#5, 2#5] ∧ s.flipAt (ownKey 0 a / 8 * 8) = 0#72 ∧ a % 4 = 0)
    ∧ (s.Issues (.eng 0) p0 [1#5, 2#5, 2#5 + 1#5] ∧ a % 8 = 0 ∧ (2#5 : BitVec 5).toNat % 2 = 0) :=
  ⟨by decide, by decide, by decide, ⟨issues_of (by decide), by decide, by decide⟩, issues_of (by decide), by decide,
    by decide⟩

theorem witness_AlignAndAccess :
    let a (w : Word) : Nat := (((sAt w).eng 0).x 1 + (0#12).signExtend 32).toNat
    let i (w : Word) : Prop := (sAt w).Issues (.eng 0) p0 [1#5] ∧ (sAt w).Issues (.eng 0) p0 [1#5, 2#5]
      ∧ (sAt w).Issues (.eng 0) p0 [1#5, 2#5, 2#5 + 1#5]
    (2#5 : BitVec 5).toNat % 2 = 0 ∧ (i 1#32 ∧ a 1#32 % 2 ≠ 0)
    ∧ (i 0x20000000#32 ∧ a 0x20000000#32 % 8 = 0 ∧ 0x20000000 ≤ a 0x20000000#32)
    ∧ (i 0x08000000#32 ∧ a 0x08000000#32 % 8 = 0 ∧ 0x08000000 ≤ a 0x08000000#32)
    ∧ (i 0x0FFFFFF8#32 ∧ a 0x0FFFFFF8#32 % 8 = 0 ∧ a 0x0FFFFFF8#32 < 0x10000000) :=
  have i (w : Word) (h : issues (sAt w) (.eng 0) p0 [1#5, 2#5, 2#5 + 1#5] = true)
      (h2 : issues (sAt w) (.eng 0) p0 [1#5, 2#5] = true) (h1 : issues (sAt w) (.eng 0) p0 [1#5] = true) :=
    And.intro (issues_of h1) (And.intro (issues_of h2) (issues_of h))
  ⟨by decide, ⟨i _ (by decide) (by decide) (by decide), by decide⟩, ⟨i _ (by decide) (by decide) (by decide), by decide⟩,
    ⟨i _ (by decide) (by decide) (by decide), by decide⟩, i _ (by decide) (by decide) (by decide), by decide⟩

/-- Core 0 has the accesses outstanding, oldest first. -/
def sOuts (os : List OutAcc) : State := withCore 0 { core with outs := os }

theorem witness_RemoteAccesses :
    let s := owned (sAt 0x01000000#32) 0
    let last := owned (sAt 0x017FFFFC#32) 0
    let post : OutAcc := { target := 0, txn := none, kind := .posted }
    let full := owned (withCore 0 { core with xs := [(1, 0x01000000#32)], outs := List.replicate 8 post }) 0
    let sup (v : Word) : State := withCore 128 { core with xs := [(1, v)] }
    let of (k : OutKind) : OutAcc := { target := 1, txn := none, kind := k }
    let four := sOuts [post, of (.load 0 7 9#32), { of (.io 0 31 9#32) with target := 2 },
      { of (.loadPair 0 30 1#32 2#32) with target := 3 }, { post with target := 3, txn := some (0, 0) }]
    (aliasAddr 0 ((s.eng 0).x 1).toNat = 0x02000000 ∧ ((s.eng 0).x 1).toNat % 4 = 0 ∧ s.regionUp (regionOf 0) = true
      ∧ s.isClearing 0x02000000 = false ∧ s.flipAt 0x02000000 = 0#72 ∧ s.Issues (.eng 0) p0 [1#5]
      ∧ s.fenceOk (s.engTenant 0) 0x02000000 4 false = true ∧ (s.eng 0).outs.length < 8)
    ∧ (aliasAddr 0 ((last.eng 0).x 1).toNat = 0x027FFFFC ∧ last.Issues (.eng 0) p0 [1#5, 2#5]
      ∧ last.fenceOk (last.engTenant 0) 0x027FFFFC 4 true = true)
    ∧ (full.Issues (.eng 0) p0 [1#5, 2#5] ∧ (full.eng 0).outs.length = 8 ∧ full.regionUp (regionOf 0) = true)
    ∧ (∀ v ∈ [0x04000000#32, 0x043FFFFC#32, 0x04520000#32, 0x055FFFFC#32], (sup v).Issues .sup p0 [1#5, 2#5]
      ∧ ((sup v).eng 128).x 1 = v ∧ nodeOwned v.toNat 4 = true ∧ (sup v).unlaid v.toNat 4 = false
      ∧ (sup v).isClearing v.toNat = false)
    ∧ ((four.eng 0).outs[0]? = some post ∧ (four.eng 0).outs[1]? = some (of (.load 0 7 9#32))
      ∧ (four.eng 0).outs[2]? = some { of (.io 0 31 9#32) with target := 2 }
      ∧ (four.eng 0).outs[3]? = some { of (.loadPair 0 30 1#32 2#32) with target := 3 }
      ∧ ∀ i < 4, ∀ x ∈ (four.eng 0).outs.take i, x.target ≠ (((four.eng 0).outs[i]?).getD post).target)
    ∧ ((four.eng 0).outs[7]? = none ∧ OutAcc.ready { post with target := 3, txn := some (0, 0) } = false
      ∧ ∃ x ∈ (four.eng 0).outs.take 4, x.target = 3) :=
  ⟨⟨by decide +kernel, by decide +kernel, by decide +kernel, by decide +kernel, by decide +kernel,
      issues_of (by decide), by decide +kernel, by decide +kernel⟩,
    ⟨by decide +kernel, issues_of (by decide), by decide +kernel⟩, ⟨issues_of (by decide), by decide +kernel,
        by decide +kernel⟩,
    fun v hv => by
      simp only [List.mem_cons, List.not_mem_nil, or_false] at hv
      obtain rfl | rfl | rfl | rfl := hv <;>
        exact ⟨issues_of (by decide), by decide +kernel, by decide +kernel, by decide +kernel, by decide +kernel⟩,
    by decide +kernel, by decide +kernel⟩

/-- Every Latigo link is UP. -/
def linked (s : State) : State := with' s ((List.range 5).map (fun k => (fLATIGO_STATUS_state k, 2)))

theorem witness_PortsInAndOut :
    let port (w : Word) : Nat := (((sAt w).eng 0).x 1 + (0#12).signExtend 32).toNat % 65536
    let s := linked (sAt 0x7FF#32)
    s.Issues (.eng 0) p0 [1#5, 2#5] ∧ s.Issues (.eng 0) p0 [1#5] ∧ (s.eng 0).outs.length < 8 ∧ port 0x18#32 = 0x18
    ∧ port 0x19#32 = 0x19
    ∧ (portFault 0 (port 0x0FFF#32) = false ∧ inLink 0 (port 0x0FFF#32) = none
      ∧ portLink 0 (port 0x0FFF#32) 0 = none ∧ s.linkGrants 0 none = true)
    ∧ (portFault 0 (port 0x7FF#32) = false ∧ inLink 0 (port 0x7FF#32) ≠ none
      ∧ s.linkGrants 0 (inLink 0 (port 0x7FF#32)) = true)
    ∧ 0x1000 ≤ port 0x1000#32 ∧ 0x300 ≤ port 0x37F#32 ∧ port 0x37F#32 < 0x380 :=
  ⟨issues_of (by decide +kernel), issues_of (by decide +kernel), by decide +kernel, by decide, by decide, by decide +kernel,
    by decide +kernel, by decide, by decide, by decide⟩

theorem witness_CrcAndBits : s0.Issues (.eng 0) p0 [1#5, 2#5] ∧ s0.MayAsk (.eng 0) 2 0#5
    ∧ (withCore 127 core).MayAsk (.eng 127) 2 31#5 :=
  ⟨issues_of (by decide), mayAsk_of (by decide), mayAsk_of (by decide)⟩

theorem witness_GolayCorrectsThree : 4095 < 4096 ∧ (0x10101 : Nat) < 2 ^ 24 ∧ onesBelow 24 0x10101 = 3
    ∧ onesBelow 24 0x8010101 = 3 ∧ onesBelow 24 0x810101 = 4 := by decide

theorem witness_CipherAndRingPorts :
    let free (v : Word) : State := with' (sAt v) [(fDECODER_RING_WR_count 0 0, 64)]
    let back (v : Nat) : Nat := (v + 2 ^ 24 - (free 0#32).fget (fDECODER_RING_RD_count 0 0)) % 2 ^ 24
    let fifo : State := { s0 with cipher := { s0.cipher with fifo := [5#32] } }
    let far := linked (withCore 127 core)
    -- ECB encryption of 16 bytes at the start of region 0 with key slot 0
    let d : List Byte := leBytes 4 0x10000000 ++ leBytes 12 0 ++ leBytes 4 16 ++ leBytes 12 0
    let desc := with' ((owned (sAt 0x02000000#32) 0).setBytes 0x02000000 d) [(fTENANT_CIPHER_q_guar 0, 1)]
    let j := jobOf (.core 0 0) (some 0) 0x02000000 (desc.reqPrio 0 (desc.eng 0)) d
    (s0.Issues (.eng 0) p0 [1#5, 2#5] ∧ s0.MayAsk (.eng 0) 1 0#5)
    ∧ (back 64 ≤ back ((free 0#32).fget (fDECODER_RING_WR_count 0 0)) ∧ (free 64#32).decoder.frames = [])
    ∧ back ((free 0#32).fget (fDECODER_RING_WR_count 0 0)) < back 65
    ∧ (s0.MayAsk (.eng 0) 0 0#5 ∧ far.Issues (.eng 127) p0 [1#5, 2#5] ∧ far.MayAsk (.eng 127) 0 0#5)
    ∧ (fifo.cipher.fifo = [5#32] ∧ s0.cipher.fifo = [])
    ∧ (desc.Issues (.eng 0) p0 [1#5, 2#5] ∧ ((desc.eng 0).x 1).toNat % 8 = 0
      ∧ desc.dmaWaits 0 (0x02000000, 32) = false
      ∧ desc.dmaRead (some 0) 0 0x02000000 32 = (some d, desc) ∧ descBad d = false ∧ j.lengthOk = true
      ∧ desc.keyColumn j = true ∧ desc.suspended 0 = false ∧ desc.queueAdmits (some 0) = true)
    ∧ (let w := withCore 0 { core with wait := some (7, 1#32) }
      (w.eng 0).wait = some ((7#5 : BitVec 5).toNat, 1#32) ∧ (w.eng 0).waitTxn = none) :=
  ⟨⟨issues_of (by decide), mayAsk_of (by decide)⟩, ⟨by decide +kernel, by decide +kernel⟩, by decide +kernel,
      ⟨mayAsk_of (by decide), issues_of (by decide +kernel), mayAsk_of (by decide +kernel)⟩,
      ⟨by decide +kernel, by decide +kernel⟩,
    ⟨issues_of (by decide), by decide +kernel, by decide +kernel, by decide +kernel, by decide +kernel, by decide +kernel,
        by decide +kernel, by decide +kernel, by decide +kernel⟩, by decide +kernel⟩

theorem witness_CinchCompares :
    let s : State := { sAt 0#32 with cinch := { s0.cinch with started := true, frame := 1, tu := 8000000000 * 100 } }
    let b (v w : Word) : State := s.setEng 0 { core with xs := [(1, v), (2, w)] }
    let ns (w : Word) : Nat := w.toNat % 2 ^ 30
    let slots (r : RunSt) (st : SlotSt) : State := s.setEng 0 { core with run := r, slots := [(0, { st := st }), (3,
      { st := .waiting, armed := some (1, 101) }), (4, { st := .waiting, armed := some (1, 110) })] }
    let armed := slots .running .running
    let idle := slots .idle .waiting
    ((b 0#32 0x40000000#32).Issues (.eng 0) p0 [1#5, 2#5] ∧ s.MayAsk (.eng 0) 3 0#5
      ∧ (((b 0#32 0x40000000#32).eng 0).x 2).toNat / 2 ^ 30 ≠ 0)
    ∧ (s.cinch.frame < 2 ^ 32
      ∧ (((1#32 : Word).toNat + 0) % 2 ^ 32 = s.cinch.frame ∧ (s.nowNs : Int) + s.lastLens 0 < ns 101#32)
      ∧ (((0#32 : Word).toNat + 1) % 2 ^ 32 = s.cinch.frame ∧ (s.nowNs : Int) + s.lastLens 1 < ns 1000000101#32))
    ∧ (s.nowNs < s.frameLen ∧ (s.cinch.frame + (2 ^ 31 - 1)) % 2 ^ 32 = (0x80000000#32 : Word).toNat)
    ∧ (((1#32 : Word).toNat + 0) % 2 ^ 32 = s.cinch.frame ∧ (ns 100#32 : Int) ≤ s.nowNs + s.lastLens 0)
    ∧ (((0#32 : Word).toNat + 1) % 2 ^ 32 = s.cinch.frame ∧ (ns 1000000100#32 : Int) ≤ s.nowNs + s.lastLens 1)
    ∧ (((armed.eng 0).slot 3).armed = some (armed.cinch.frame, 101) ∧ armed.cinch.started = true ∧ 101 < armed.frameLen
      ∧ armed.nowNs < armed.frameLen ∧ ((armed.eng 0).slot 3).st = .waiting ∧ (armed.eng 0).run = .running)
    ∧ ((3#4 : BitVec 4) < 4#4 ∧ ((idle.eng 0).slot 3).armed = some (idle.cinch.frame, 101)
      ∧ ((idle.eng 0).slot 4).armed = some (idle.cinch.frame, 110) ∧ idle.nowNs < 101 ∧ (101 + 9) / 10 = (110 + 9) / 10
      ∧ ((idle.eng 0).slot 3).prio = ((idle.eng 0).slot 4).prio ∧ (∀ z ∈ (idle.eng 0).slots, z.2.st ≠ .ready)
      ∧ keysRise (idle.eng 0).slots = true ∧ (idle.eng 0).run = .idle ∧ (idle.eng 0).hold = false
      ∧ (idle.eng 0).dbgStop = false) :=
  ⟨⟨issues_of (by decide), mayAsk_of (by decide), by decide⟩, by decide, by decide, by decide, by decide, by decide,
    by decide⟩

/-! ## Witnesses: the engine runtime -/

/-- The start sequence is over. -/
def up (s : State) : State := { s with pkg := { s.pkg with stage := .run, power := .run } }

theorem witness_TaskSlots :
    let s := withCore 0 { core with slots := [(0, { st := .running, en := true }), (1, { st := .waiting, en := true }),
      (15, { st := .ready, en := true })] }
    s.coreRuns 0 = true ∧ sSup.coreRuns 128 = true
    ∧ (((s.eng 0).slot 2).st = .idle ∧ ((s.eng 0).slot 2).en = false ∧ (0x80070100#32 : Word).getLsbD 31 = true)
    ∧ (((s.eng 0).slot 15).st = .ready ∧ ((s.eng 0).slot 15).en = true) ∧ ((s.eng 0).slot 1).st = .waiting
    ∧ ((s.eng 0).slot 0).st = .running ∧ (0x7FFFFFFF#32 : Word).getLsbD 31 = false := by decide +kernel

theorem witness_Notices :
    let f : Flight := { target := 0, notice := { w0 := 0x70000000#32 } }
    let slot : Flight := { target := 0, notice := { w0 := 0x50000000#32 } }
    let msg : Flight := { f with notice := { w0 := 0x80050000#32 }, msg := some (1, 5) }
    let s : State := { s0 with flight := [{ f with target := 9 }, f, slot, msg] }
    let wait := { s0.setEng 0 { core with slots := [(0, { st := .waiting }), (1, { st := .running })], cur := 1 } with
      flight := [f] }
    let nq (n : Nat) : State := s0.setEng 0 { core with nq := { queue := List.replicate n {} } }
    let own := with' (owned s0 0) [(fENGCTL_CL_owned 15, 1), (fENGCTL_CL_tenant 15, 1), (fENGCTL_CL_owned 8, 1)]
    let full := own.setEng 0 { core with outs := List.replicate 8 { target := 0, txn := none, kind := .posted } }
    (s.takeFlight 0 3 s.flight = some (f, [{ f with target := 9 }, slot, msg]) ∧ f.msg = none)
    ∧ (s.takeFlight 0 3 [msg] = some (msg, []) ∧ msg.msg = some (1, 5))
    ∧ (wait.takeFlight 0 3 wait.flight = some (f, []) ∧ ((wait.eng 0).slot 0).st = .waiting ∧ (wait.eng 0).run = .running)
    ∧ (s.takeFlight 0 0 s.flight = some (slot, [{ f with target := 9 }, f, msg])
      ∧ s.takeFlight 0 3 [{ f with target := 9 }, f, msg] = some (f, [{ f with target := 9 }, msg])
      ∧ (0#2 : BitVec 2) < 3#2 ∧ slot.msg = none ∧ ((nq 14).eng 0).nq.queue.length + 2 ≤ 16)
    ∧ s.takeFlight 0 1 s.flight = none
    ∧ ((nq 15).eng 0).nq.queue.length < 16 ∧ ((nq 16).eng 0).nq.queue.length = 16
    ∧ ((nq 1).coreRuns 0 = true ∧ ((nq 1).eng 0).nq.queue = {} :: []) ∧ ((nq 0).eng 0).nq.queue = []
    ∧ ((own.eng 0).outs.length < 8 ∧ (0x007F0000#32 : Word).toNat / 2 ^ 16 % 128 = 127
      ∧ own.linkOpen (dieLink 0 false) = true)
    ∧ (own.clusterTenant (clusterOf 7) = own.clusterTenant (clusterOf 0)
      ∧ own.fon (fENGCTL_CL_owned (clusterOf 0)) = true)
    ∧ (full.coreRuns 0 = true ∧ 8 ≤ (full.eng 0).outs.length)
    ∧ (own.linkOpen (dieLink 0 true) = false ∧ (0x00400000#32 : Word).toNat / 2 ^ 16 % 128 = 64
      ∧ own.clusterTenant (clusterOf 64) = own.clusterTenant (clusterOf 0))
    ∧ (own.coreRuns 0 = true ∧ (0x007E0000#32 : Word).toNat / 2 ^ 16 % 128 = 126
      ∧ own.clusterTenant (clusterOf 126) ≠ own.clusterTenant (clusterOf 0)) := by decide +kernel

theorem witness_HaltersAndRestarts :
    let on (us : Nat) : State := s0.modClu 0 (fun x => { x with halterOn := true, halter := us })
    let sup (us : Nat) : State := sSup.modClu 16 (fun x => { x with halterOn := true, halter := us })
    let off := withCore 0 { core with run := .stopped }
    let idle := withCore 127 { core with run := .idle }
    s0.coreRuns 0 = true ∧ ((on 1).coreRuns 0 = true ∧ (on 1).haltLeft (clusterOf 0) ≠ 0)
    ∧ (0x0000C1A6#32 : Word) ≠ 0x0000C1A5#32 ∧ ((on 0).coreRuns 0 = true ∧ (on 0).haltLeft (clusterOf 0) = 0)
    ∧ ((sup 1).coreRuns 128 = true ∧ 0 < (sup 1).haltLeft 16) ∧ ((sup 0).coreRuns 128 = true ∧ (sup 0).haltLeft 16 = 0)
    ∧ (((on 0).clu 0).halterOn = true ∧ (on 0).haltLeft 0 = 0) ∧ (s0.eng 0).run = .running ∧ (idle.eng 127).run = .idle
    ∧ ((off.eng 0).run ≠ .running ∧ (off.eng 0).run ≠ .idle) ∧ (s0.clu 15).halterOn = false
    ∧ (off.engHere 0 = true ∧ off.engStopped 0 = true) ∧ (({ s0 with variant := .sln4256 } : State).engHere 127 = false ∧ s0.engStopped 0 = false)
    ∧ (0 : Nat) % 8 = 0 ∧ Memory.wf off.mem = true := by decide +kernel

theorem witness_WindowsAndPriorities :
    let off := withCore 5 { core with run := .stopped, win := { addr := 0xFFF8 } }
    let gated := withCore 5 { core with run := .gated }
    let prio : State := { s0 with prioFlight := [.cap 3 0, .slot 0 1 2, .decoder 3 15 7] }
    (off.engHere 5 = true ∧ off.engStopped 5 = true ∧ (off.eng 5).win.addr % 8 = 0)
    ∧ (gated.engHere 5 = true ∧ (gated.eng 5).run = .gated) ∧ (s0.engHere 0 = true ∧ (s0.eng 0).run = .running)
    ∧ ({ s0 with variant := .sln4256 } : State).engHere 64 = false ∧ off.flipAt (iKey 5 (off.eng 5).win.addr) = 0#72 ∧ s0.coreRuns 0 = true
    ∧ (2 ≤ (2#4 : BitVec 4).toNat ∧ (8#4 : BitVec 4).toNat ≤ 8)
    ∧ (6#32 : Word).toNat % 8 ≠ 7 ∧ (15#32 : Word).toNat % 8 = 7
    ∧ prio.prioFlight = .cap 3 0 :: [.slot 0 1 2, .decoder 3 15 7]
    ∧ ({ prio with prioFlight := prio.prioFlight.drop 1 } : State).prioFlight = .slot 0 1 2 :: [.decoder 3 15 7]
    ∧ ({ prio with prioFlight := prio.prioFlight.drop 2 } : State).prioFlight = .decoder 3 15 7 :: []
    ∧ s0.prioFlight = [] := by decide +kernel

theorem witness_FencesAndSuspension :
    let s := owned s0 0
    let shut := up (with' s [(fTENANT_CFG_suspend 0, 1)])
    let v : Word := 0x00007F7F#32
    let new : Word := 0x80000000#32
    let sys : Word := 0xC007F060#32
    let bare := with' State.reset [(fTENANT_CFG_declared 0, 1), (fSYS_TENANT_RUN_started, 1)]
    (s.hasRegion 3 = true ∧ v.toNat % 128 ≤ v.toNat / 2 ^ 8 % 128 ∧ s.declared (v.toNat / 2 ^ 26 % 16) = true
      ∧ v.getLsbD 31 = false
      ∧ s.notStarted (s.fget (fTENANT_RFENCE_tenant 3 63)) = false
      ∧ ∀ x, x < 16 → s.ringKept (s.setReg (aTENANT_RFENCE 3 63) (v &&& 0xFC007F7F#32)) 3 x = true)
    ∧ (bare.hasRegion 0 = true ∧ bare.declared (new.toNat / 2 ^ 26 % 16) = true ∧ new.getLsbD 31 = true
      ∧ bare.notStarted (new.toNat / 2 ^ 26 % 16) = false ∧ (∀ j, j < 64 → bare.fon (fTENANT_RFENCE_valid 0 j) = false)
      ∧ ∀ x, x < 16 → bare.ringKept (bare.setReg (aTENANT_RFENCE 0 0) (new &&& 0xFC007F7F#32)) 0 x = true)
    ∧ (sys.toNat % 2048 ≤ sys.toNat / 2 ^ 12 % 2048 ∧ bare.declared (sys.toNat / 2 ^ 26 % 16) = true
      ∧ bare.notStarted (sys.toNat / 2 ^ 26 % 16) = false
      ∧ grantable (sys.toNat / 2 ^ 24 % 4) (sys.toNat % 2048) (sys.toNat / 2 ^ 12 % 2048) (sys.getLsbD 30) = true
      ∧ (∀ j, j < 32 → bare.fon (fTENANT_SFENCE_valid j) = false)
      ∧ ∀ x, x < 16 → bare.inboxKept (bare.setReg (aTENANT_SFENCE 31) (sys &&& 0xFF7FF7FF#32)) x = true)
    ∧ (s.hasRegion 0 = true ∧ s.declared ((0x84000100#32 : Word).toNat / 2 ^ 26 % 16) = false)
    ∧ ((up s).declared 0 = true ∧ (up s).regOpen (.core .sup) (aTENANT_CFG 0) true = true ∧ (up s).suspended 0 = false)
    ∧ (shut.suspended 0 = true ∧ shut.started 0 = true ∧ shut.declared 0 = true
      ∧ shut.regOpen (.core .sup) (aTENANT_CFG 0) true = true)
    ∧ ((up s).regOpen (.core .sup) (aTENANT_CFG 15) true = true ∧ (up s).declared 15 = false)
    ∧ (up s).regReach (.core (.eng 0)) (aTENANT_CFG 0) = true := by decide +kernel

/-! ## Witnesses: the radio -/

/-- Path A in a state, resting. -/
def path (st : Nat) (x : PathSt) : State := (with' State.reset [(fRADIO_PATH_STATUS_state 0,
    st)]).modPath 0 (fun _ => x)

theorem witness_PathsAndTuners :
    let rest (s : State) : Bool := s.hasPath 0 && !(s.path 0).off && decide ((s.path 0).move = .rest)
    let stby := path 1 { want := 1 }
    let go := up (path 1 { want := 2, move := .toReceive })
    let rcv := path 2 { want := 2, lnaEn := true }
    let off := path 0 { off := true }
    let back (want : Nat) : State := path 0 { move := .toStandby, want := want }
    -- tuner 0 with the widest span on 868 MHz, and at the edge of the range
    let kept (centre : Nat) : State := with' State.reset [(fRADIO_TUNER_CFG_span 0, 4),
        (fRADIO_TUNER_CFG_centre_khz 0, centre)]
    let on := with' State.reset [(fRADIO_TUNER_CFG_en 0, 1), (fRADIO_TUNER_CFG_span 0, 2)]
    (rest (path 0 {}) = true ∧ (path 0 {}).pathState 0 = 0) ∧ (rest stby = true ∧ stby.pathState 0 = 1)
    ∧ (rest rcv = true ∧ rcv.pathState 0 = 2)
    ∧ ((stby.hasPath 0 = true ∧ (2#2 : BitVec 2) ≠ 3#2) ∧ (off.hasPath 0 = true ∧ (off.path 0).off = true)
      ∧ (go.hasPath 0 = true ∧ (go.path 0).off = false ∧ (go.path 0).move ≠ .rest))
    ∧ (((back 0).path 0).move = .toStandby ∧ ((back 0).path 0).want = 0)
    ∧ (stby.path 0).move ≠ .toStandby ∧ (stby.path 0).move ≠ .toReceive
    ∧ (((back 1).path 0).move = .toStandby ∧ ((back 1).path 0).want = 1 ∧ ((back 2).path 0).want = 2)
    ∧ ((go.path 0).move = .toReceive ∧ (go.path 0).want = 2 ∧ go.pkg.power = .run ∧ go.pkg.reqWait = 0
      ∧ (go.path 1).cycling = none)
    ∧ (stby.pathState 0 ≠ 2 ∧ (stby.path 0).move ≠ .toReceive) ∧ stby.fget (fRADIO_PATH_CTRL_lna_byp 0) ≠ b2n true
    ∧ stby.fget (fRADIO_PATH_CTRL_lna_byp 0) = b2n false
    ∧ (State.reset.hasPath 0 = true ∧ State.reset.fon (fRADIO_TUNER_CFG_en 0) = false
      ∧ (0x80000000#32 + 0x01000000#32 : Word).getLsbD 31 = true ∧ (kept 868000).spanOk 0 0 = true
      ∧ (kept 868000).spanUsed 0 + 5 * 2 ^ 4 ≤ 160)
    ∧ (kept 0).spanOk 0 0 = false
    ∧ (on.fon (fRADIO_TUNER_CFG_en 0) = true ∧ 3 ≠ on.fget (fRADIO_TUNER_CFG_span 0) ∧ on.hasPath 0 = true)
    ∧ ((0x80800000#32 : Word).toNat / 2 ^ 22 % 8 = on.fget (fRADIO_TUNER_CFG_span 0)
      ∧ (0x80800000#32 : Word).toNat % 2 ^ 22 = on.fget (fRADIO_TUNER_CFG_centre_khz 0)
      ∧ (0x80800000#32 : Word).getLsbD 31 = true)
    ∧ (0x7FFFFFFF#32 : Word).getLsbD 31 = false ∧ (0x01000000#32 : Word).toNat / 2 ^ 22 % 8 < 5
    ∧ 5 ≤ (0x01400000#32 : Word).toNat / 2 ^ 22 % 8 := by decide +kernel

/-- Receiver n of tenant 0 in state st with branch A bound. -/
def rx (n st : Nat) : State :=
  with' (owned State.reset 0) [(fRADIO_RX_CFG_en n, 1), (fRADIO_RX_STATUS_state n, st), (fRADIO_RX_STATUS_bound_a n, 1)]

theorem witness_Receivers :
    let s := up (owned State.reset 0)
    let v : Word := 0x80000000#32
    let c := { rxCfgOf v.toNat with en := true }
    let fill := (rx 511 2).modRx 511 (fun r => { r with fillA := true })
    let may (t : State) : Bool := decide (511 < Config.receivers t.variant) && t.regOpen (.core .sup) (aRADIO_RX_CFG 511) true
    let u := linked s
    let held := with' u [(fRADIO_RX_STATUS_plan_off 511, 1)]
    let on (st : Nat) : State := linked (up (rx 511 st))
    (may u = true ∧ u.fon (fRADIO_RX_CFG_en 511) = false ∧ u.fon (fRADIO_RX_STATUS_plan_off 511) = false
      ∧ u.tagOf (.core .sup) = none ∧ c.reserved = false ∧ u.rxEnableOk 511 c = true)
    ∧ ({ rxCfgOf 0x85000000 with en := true } : RxCfg).reserved = true ∧ u.rxEnableOk 511 { c with tenant := 1 } = false
    ∧ (may held = true ∧ held.fon (fRADIO_RX_STATUS_plan_off 511) = true ∧ held.fon (fRADIO_RX_CFG_en 511) = false
      ∧ held.rxEnableOk 511 c = true)
    ∧ (may (on 4) = true ∧ (on 4).fon (fRADIO_RX_CFG_en 511) = true
      ∧ (rxCfgOf ((on 4).reg (aRADIO_RX_CFG 511)).toNat).mode ≠ 5 ∧ c.sel = (rxCfgOf ((on 4).reg (aRADIO_RX_CFG 511)).toNat).sel
      ∧ c.mode = (rxCfgOf ((on 4).reg (aRADIO_RX_CFG 511)).toNat).mode
      ∧ c.width = (rxCfgOf ((on 4).reg (aRADIO_RX_CFG 511)).toNat).width)
    ∧ ((on 4).rxState 511 = 4 ∧ (on 3).rxState 511 ≠ 4) ∧ 511 < Config.receivers s.variant
    ∧ (fill.fon (fRxBound 511 false) = true ∧ fill.rxState 511 = 2 ∧ (fill.rx 511).timerB = false
      ∧ fill.fon (fRxBlank 511 false) = false ∧ ((fill.rx 511).fillA || (fill.rx 511).recovA) = true)
    ∧ ((rx 511 3).fon (fRxBound 511 false) = true ∧ (rx 511 3).rxState 511 ≠ 2)
    ∧ ((rx 511 3).fon (fRxBound 511 true) = false ∧ (rx 511 3).rxState 511 ≠ 2) := by
  decide +kernel

theorem witness_SyncDetect :
    ((rx 0 3).rxState 0 = 3 ∧ (rx 0 3).fget (fRADIO_RX_CFG_branch_sel 0) = 0 ∧ (rx 0 3).branchSearch 0 false = true)
    ∧ (rx 0 4).rxState 0 ≠ 3 := by decide +kernel

theorem witness_Levels :
    let on := with' State.reset [(fRADIO_TUNER_CFG_en 15, 1)]
    (rx 0 3).fon (fRADIO_RX_CFG_en 0) = true ∧ on.fon (fRADIO_RX_CFG_en 0) = false
    ∧ (on.fon fRADIO_SPEC_CTRL_busy = false ∧ on.fon (fRADIO_TUNER_CFG_en 15) = true)
    ∧ (with' on [(fRADIO_SPEC_CTRL_busy, 1)]).fon fRADIO_SPEC_CTRL_busy = true := by decide +kernel

/-- A command of the supervisor in mode 0 on 868.1 MHz. -/
def cmd : TxCmd :=
  { who := .sup, freq := 868100000, power := 56, mode := 0, sub := 0, prio := 0, urgent := false, tenant := 0,
      access := 2
    buffer := 0x04000000, code := 0, len := 20, startF := 0, startNs := 0, lateUs := 1000000 }

/-- Chain TXL in state st with record h; sub-band 0 holds 868 to 868.6 MHz at full duty, power 14 dBm, cap 400 ms. -/
def chain (st : Nat) (h : ChainSt) : State :=
  ({ with' State.reset [(fRADIO_TX_STATUS_state 0, st)] with
      fuses := { State.reset.fuses with
        subband := [(0, 0x80000000#32 + 868000#32), (1, 868600#32), (2, 0x38FA0000#32), (3,
            0x5A080FA0#32)] } } : State).modChain 0
    (fun _ => h)

theorem witness_TxChainStates :
    let here (s : State) : Bool := s.hasChain 0 && !(s.chain 0).off && !(s.chain 0).planSleep && !(s.chain 0).jtagHold
      && !s.fon (fRADIO_TX_STATUS_pa_gain_fault 0)
    let ctrl (s : State) (v : Nat) : State := up (with' s [(fRADIO_TX_CTRL_state_req 0, v)])
    let wake := ctrl (chain 0 { waking := true }) 1
    let sleep := ctrl (chain 0 { waking := true }) 0
    let jtag := ctrl (chain 0 { waking := true, jtagHold := true }) 1
    let emptied := ctrl (chain 0 { waking := true, auto := true }) 0
    let woken := ctrl (chain 0 { waking := true, auto := true, queue := [cmd] }) 0
    let auto := up (with' (chain 0 { queue := [cmd] }) [(fRADIO_TX_CTRL_auto_wake 0, 1)])
    let hop := chain 2 { start := some { cmd := cmd, phase := .hop, join := false } }
    let on (s : State) : Bool := decide (s.pkg.stage = .run) && (s.chain 0).waking && decide ((s.chain 0).start = none)
    let due := chain 1 { calReq := some 868100, queue := [{ cmd with startNs := 0 }] }
    (here (chain 0 {}) = true ∧ (chain 0 {}).chainState 0 = 0)
    ∧ (here (chain 1 {}) = true ∧ (chain 1 {}).chainState 0 = 1 ∧ ((chain 1 {}).chain 0).start = none)
    ∧ (here (chain 3 { air := [{ cmd := cmd }] }) = true ∧ (chain 3 { air := [{ cmd := cmd }] }).chainState 0 = 3)
    ∧ (here (chain 3 { feStep := 3 }) = true ∧ ((chain 3 { feStep := 3 }).chain 0).feStep < 4
      ∧ ((chain 3 { feStep := 3 }).chain 0).air = [])
    ∧ 2 ≤ (2#2 : BitVec 2).toNat ∧ ({ s0 with variant := .sln4128 } : State).hasChain 1 = false
    ∧ ((chain 0 { jtagHold := true }).hasChain 0 = true ∧ here (chain 0 { jtagHold := true }) = false)
    ∧ ((chain 0 {}).chain 0).waking = false
    ∧ (on sleep = true ∧ sleep.fget (fRADIO_TX_CTRL_state_req 0) = 0 ∧ (sleep.chain 0).auto = false)
    ∧ (on jtag = true ∧ (jtag.chain 0).jtagHold = true)
    ∧ (on emptied = true ∧ (emptied.chain 0).auto = true ∧ (emptied.chain 0).queue = [] ∧ (emptied.chain 0).air = []
      ∧ (emptied.chain 0).feStep = 0 ∧ emptied.fget (fRADIO_TX_CTRL_state_req 0) = 0)
    ∧ (on wake = true ∧ (wake.chain 0).jtagHold = false ∧ wake.fget (fRADIO_TX_CTRL_state_req 0) ≠ 0
      ∧ (wake.chain 0).auto = false ∧ (wake.chain 0).sleepDue = false ∧ (wake.chain 0).off = false)
    ∧ (on woken = true ∧ (woken.chain 0).auto = true ∧ (woken.chain 0).queue ≠ [])
    ∧ (auto.pkg.power = .run ∧ auto.chainState 0 = 0 ∧ auto.autoWake 0 = true ∧ (auto.chain 0).queue ≠ []
      ∧ (auto.chain 0).off = false ∧ (auto.chain 0).waking = false ∧ auto.fon (fRADIO_TX_STATUS_pa_gain_fault 0) = false)
    ∧ (hop.chainState 0 = 2 ∧ hop.locked 0 = false ∧ cmd.access = 2
      ∧ hop.startLate 0 { cmd := cmd, phase := .hop, join := false } = false)
    ∧ (((chain 0 {}).chain 0).calReq = none ∧ (960000#22 : BitVec 22).toNat % 100 = 0
      ∧ (380000#22 : BitVec 22).toNat % 100 = 0) ∧ (868101#22 : BitVec 22).toNat % 100 ≠ 0
    ∧ ((chain 0 {}).hasChain 0 = true ∧ (chain 0 {}).chainState 0 ≤ 1)
    ∧ (((chain 1 { calReq := some 868100 }).chain 0).calReq = some 868100 ∧ (chain 1 { calReq := some 868100 }).chainState 0 = 1)
    ∧ (∃ z ∈ (due.chain 0).queue, due.eligible 0 200 z = true) :=
  ⟨by decide +kernel, by decide +kernel, by decide +kernel, by decide +kernel, by decide +kernel, by decide +kernel,
    by decide +kernel, by decide +kernel, by decide +kernel, by decide +kernel, by decide +kernel, by decide +kernel,
    by decide +kernel, by decide +kernel, by decide +kernel, by decide +kernel, by decide +kernel, by decide +kernel,
    by decide +kernel, by decide +kernel⟩

/-- A word of the submit registers of TXL that makes the command above, without its buffer checked. -/
def submitWord (i : Nat) : Nat :=
  match i with
  | 0 => 868100000
  | 1 => 56 * 2 ^ 24 + 2 * 2 ^ 6
  | 2 => 0x04000000
  | 3 => 20
  | 6 => 1000000
  | _ => 0

/-- Chain TXL in state st, every link UP, and core 0 with a tenant that owns it, before the command block. -/
def txEngine (h : ChainSt) : State :=
  ((linked (owned (chain 1 h) 0)).setEng 0 core).setBytes 0x02000000
    ((List.range 8).flatMap (fun i => leBytes 4 (if i = 2 then 0x02000040 else submitWord i)))

theorem witness_TxCommands :
    let s := linked (s0.modChain 0 (fun h => h))
    let lone (b : Nat) : State :=
      let e := linked (withCore 3 { core with wait := some (0, 0#32) })
      { e with radio := { e.radio with submits := [(3, 0, b)] } }
    let stby := linked (owned (chain 1 {}) 0)
    let x := txCmdOf .sup 0 submitWord
    let two := linked ((chain 1 { queue := [{ cmd with age := 1, tag := 7 }, { cmd with age := 2 }] }).setEng 0 core)
    let hop := chain 2 { start := some { cmd := { cmd with lateUs := 0, startF := 0xFFFFFFFF }, phase := .hop, join := false } }
    let across := ((txEngine {}).linkTake (some (radioLink 0))).2
    let u := ({ across with radio := { across.radio with submits := [] } } : State).modEng 0 Engine.outDone
    let bs := u.bytes 0x02000000 32
    let y := txCmdOf (.engine 0) (u.engTenant 0) (wordAt bs)
    (s.coreRuns 0 = true ∧ s.hasChain 0 = true)
    ∧ (({ s0 with variant := .sln4128 } : State).hasChain 1 = false ∧ s0.radio.submits = []
      ∧ s0.linkOpen (some (radioLink 0)) = false ∧ s0.linkOpen (some (1, false)) = false)
    ∧ (((lone 0x02000004).radio.submits = [(3, 0, 0x02000004)] ∧ 0x02000004 % 8 ≠ 0
      ∧ (lone 0x02000004).linkOpen (some (radioLink 3)) = true ∧ ((lone 0x02000004).eng 3).wait = some (0, 0#32)
      ∧ (lone 0x02000004).clearMeets (aliasAddr 3 0x02000004) 32 = false) ∧ txMem (aliasAddr 3 0x10000000) = false)
    ∧ ((txEngine {}).linkOpen (some (radioLink 0)) = true ∧ aliasAddr 0 0x02000000 = 0x02000000
      ∧ (txEngine {}).clearMeets 0x02000000 32 = false ∧ txMem 0x02000000 = true
      ∧ (u.dieOff 0x02000000 || u.fenceOk (u.engTenant 0) 0x02000000 32 false) = true
      ∧ u.dmaRead (some (u.engTenant 0)) 0 0x02000000 32 = (some bs, u) ∧ txWordsBad (wordAt bs) = false
      ∧ u.txCheck 0 y = (none, u) ∧ (u.chain 0).queue.length < 64)
    ∧ (txWordsBad (fun i => if i = 3 then 0xFFFFFFFF else submitWord i) = true)
    ∧ (txWordsBad submitWord = false ∧ stby.txCheck 0 x = (none, stby) ∧ (stby.chain 0).queue.length < 64
      ∧ stby.linkOpen (some (1, false)) = true ∧ stby.hasChain 0 = true)
    ∧ (stby.txCheck 0 { x with len := 0 } = (some 0xB, stby) ∧ 0xB < 16)
    ∧ ((two.chain 0).start = none ∧ (two.chain 0).queue.Pairwise (fun y z => y.age ≠ z.age) ∧ two.coreRuns 0 = true
      ∧ two.linkOpen (some (radioLink 0)) = true ∧ two.linkOpen (some (1, false)) = true
      ∧ ((two.chain 0).queue.filter (fun y => y.who == .sup && y.tag == 7)).length = 1 ∧ (two.chain 0).air = [])
    ∧ two.untilLatest { cmd with lateUs := 0, startF := 0xFFFFFFFF } < 0
    ∧ ((hop.chain 0).start = some { cmd := { cmd with lateUs := 0, startF := 0xFFFFFFFF }, phase := .hop, join := false }
      ∧ (hop.chain 0).queue = [] ∧ hop.chainState 0 ≠ 0) :=
  ⟨by decide +kernel, by decide +kernel, by decide +kernel, by decide +kernel, by decide +kernel, by decide +kernel,
    by decide +kernel, by decide +kernel, by decide +kernel, by decide +kernel⟩

theorem witness_TxCommands_plain : cmd.Plain := ⟨.inr rfl, rfl, rfl, rfl⟩

theorem witness_StartSequence :
    let agent (s : State) : State := up { s with radio := { s.radio with agent := { s.radio.agent with w := 0xFFFFFFFF } } }
    let go (s : State) : Bool := s.chainState 0 != 0 && !(s.chain 0).off && !(s.chain 0).sleepDue
      && decide ((s.chain 0).start = none) && decide (s.pkg.power = .run) && (s.chain 0).air.isEmpty
      && bestCmd ((s.chain 0).queue.filter (s.eligible 0 0)) == some cmd && s.headMayStart 0 cmd
      && s.radio.agent.w == 0xFFFFFFFF && s.subDuty 0 == 1000
    let ready := agent (owned (chain 1 { queue := [cmd] }) 0)
    let synth := agent (with' (owned (chain 2 { queue := [cmd] }) 0) [(fRADIO_TX_STATUS_locked 0, 1)])
    let cca (y : TxStart) : State := ((rx 0 3).modChain 0 (fun h => { h with start := some y }))
    let y : TxStart := { cmd := { cmd with freq := 868100000, access := 0, tenant := 0 }, phase := .cca, join := false }
    let late : TxStart := { y with cmd := { y.cmd with lateUs := 0, startF := 0xFFFFFFFF } }
    let probing := with' (cca { y with phase := .backoff }) [(fRADIO_RX_FREQ_freq_hz 0, 868100000),
      (fRADIO_RX_CFG_width 0, (modeWidthCode 0).getD 0)]
    let msg : State := { ready with radio := { ready.radio with agent := { ready.radio.agent with
      msg := some { w := 5, urgPm := 1, share := [], engine := [] } } } }
    (go ready = true ∧ ready.chainState 0 ≠ 2
      ∧ txMem cmd.buffer = true ∧ 0 < psduRead cmd.mode cmd.len
      ∧ ready.dmaOk cmd.reader 128 cmd.buffer (psduRead cmd.mode cmd.len) false = true
      ∧ ready.dieOff cmd.buffer = false ∧ ready.unlaid cmd.buffer (psduRead cmd.mode cmd.len) = false)
    ∧ (go synth = true ∧ synth.chainState 0 = 2 ∧ synth.locked 0 = true ∧ loOf cmd.freq ≠ (synth.chain 0).lo)
    ∧ ((chain 0 {}).chainState 0 = 0 ∧ ((chain 1 {}).chain 0).queue = [] ∧ ((chain 1 {}).chain 0).start = none)
    ∧ ((cca y).chain 0).start = some y ∧ y.phase ≠ .backoff ∧ { y with phase := .backoff }.phase ≠ .cca
    ∧ (y.hit = false ∧ (cca y).ccaBranch y.probe.1 y.probe.2 = true
      ∧ signedN 16 ((cca y).branchLevel y.probe.1 y.probe.2 0xFE00#16) < -(4 * ((cca y).subThr 0 : Int)))
    ∧ ((cca y).startLate 0 y = false ∧ (cca late).startLate 0 late = true ∧ late.hit = false ∧ late.cmd.node = .none
      ∧ late.cmd.who = .sup)
    ∧ ¬signedN 16 ((cca y).branchLevel y.probe.1 y.probe.2 0x7FFF#16) < -(4 * ((cca y).subThr 0 : Int))
    ∧ (y.cmd.access ≠ 1 ∧ y.tries ≠ 4 ∧ y.cmd.node = .none ∧ y.cmd.who = .sup) ∧ { y with tries := 4 }.tries = 4
    ∧ (((probing.chain 0).start.map TxStart.phase) = some .backoff ∧ probing.probeOf y.cmd = some 0
      ∧ probing.probeBranch 0 false = some false ∧ y.cmd.access ≠ 2
      ∧ 1000 * (probing.subCca 0 + (probing.chain 0).lead + (probing.chain 0).ramp : Nat) ≤ probing.untilLatest y.cmd)
    ∧ ready.radio.agent.msg = none ∧ msg.radio.agent.msg = some { w := 5, urgPm := 1, share := [], engine := [] } :=
  ⟨by decide +kernel, by decide +kernel, by decide +kernel, by decide +kernel, by decide +kernel, by decide +kernel,
    by decide +kernel, by decide +kernel, by decide +kernel, by decide +kernel, by decide +kernel, by decide +kernel,
    by decide +kernel⟩

theorem witness_StartSequence_clean : (chain 1 {}).Clean cmd.buffer 16 := clean_of _ _ rfl

theorem witness_TxOnAir :
    let y : TxStart := { cmd := cmd, phase := .go, join := false }
    let late : TxStart := { y with cmd := { cmd with lateUs := 0, startF := 0xFFFFFFFF } }
    let k : Carrier := { cmd := cmd, first := some (0, 5) }
    let st (h : ChainSt) : Bool := (((up (chain 2 h)).chain 0) == h) && decide ((up (chain 2 h)).pkg.power = .run)
      && (up (chain 2 h)).pkg.reqWait == 0
    (st { start := some y } = true ∧ (chain 2 { start := some y }).startLate 0 y = false) ∧ st { feStep := 2 } = true
    ∧ (st { start := some late } = true ∧ (chain 2 { start := some late }).startLate 0 late = true ∧ late.cmd.node = .none
      ∧ late.cmd.who = .sup)
    ∧ st { start := some y, feStep := 3 } = true
    ∧ (st { start := some { y with join := true }, air := [k], feStep := 5 } = true
      ∧ (chain 2 { start := some { y with join := true }, air := [k], feStep := 5 }).startLate 0 { y with join := true } = false)
    ∧ st { air := [{ k with first := none }] } = true ∧ st { feStep := 6 } = true ∧ st { feStep := 7 } = true
    ∧ st { feStep := 8 } = true ∧ (st { air := [k, k, k, k] } = true ∧ [k, k, k, k][(3#2 : BitVec 2).toNat]? = some k)
    ∧ cmd.who = .sup ∧ ((chain 2 {}).chain 0).air[0]? = none ∧ ((chain 2 {}).chain 0).queue = [] := by decide +kernel

/-- Node 5 is here, of tenant 0, with record 9; a COMMAND frame to it stands at 0x0460_0000. -/
def nodes (s : State) : State :=
  (s.setBytes (nodeAddr 5 0) (nodeBytes { id := 5, valid := true, here := true, record := 9 })).setBytes 0x04600000
    ([4#8] ++ leBytes 7 0 ++ leBytes 4 5)

theorem witness_TxOnAir_nodes :
    let c (q : NodeCheck) : TxCmd := { cmd with buffer := 0x04600000, node := q }
    let due := nodes (chain 1 { queue := [c .none] })
    let asked := nodes (chain 1 { queue := [c .asked] })
    let deny := asked.setBytes (acctAddr 9) (leBytes 8 0 ++ leBytes 4 (2 ^ 20) ++ leBytes 4 0)
    let cost (s : State) : Nat := ujOfTime (s.fget (fGIRTH_NCLASS_rx_uj_ms 0)) (airThirds 0 0 20)
    let dear := with' deny [(fGIRTH_NCLASS_rx_uj_ms 0, 1000)]
    let acct (s : State) : Account := acctOf (s.bytes (acctAddr 9) 16)
    let ask (s : State) : Prop := (s.chain 0).queue.find? (fun z => z.node == .asked) = some (c .asked)
      ∧ s.nodeOfCmd (c .asked) = (some (9, true), s) ∧ (acct s).day = s.nodeDay % 65536 ∧ 9 < 2 ^ 17
    bestCmd ((due.chain 0).queue.filter (fun z => due.eligible 0 5 z && due.nodeDue z)) = some (c .none)
    ∧ (ask asked ∧ (acct asked).enforce = false ∧ (acct asked).spent + cost asked < 2 ^ 32)
    ∧ (ask dear ∧ (acct dear).enforce = true ∧ (acct dear).allowance < (acct dear).spent + cost dear
      ∧ (c .asked).units = 0 ∧ (c .asked).uj = 0 ∧ (c .asked).who = .sup)
    ∧ (∀ z ∈ (due.chain 0).queue, z.node ≠ .asked) :=
  ⟨by decide +kernel, ⟨⟨by decide +kernel, by decide +kernel, by decide +kernel, by decide⟩, by decide +kernel,
    by decide +kernel⟩, ⟨⟨by decide +kernel, by decide +kernel, by decide +kernel, by decide⟩, by decide +kernel,
    by decide +kernel, by decide, by decide, by decide⟩, by decide +kernel⟩

/-! ## Witnesses: the decoder pool -/

theorem ringFlat_of {s : State} {r t count n : Nat} (h : s.upkeep.flips = [])
    (a : ((s.reg (aDECODER_RING_BASE r t)).toNat % 8 == 0 && count % 8 == 0
      && decide (count % s.ringSize r t + n ≤ s.ringSize r t)) = true) : s.RingFlat r t count n := by
  simp only [Bool.and_eq_true, beq_iff_eq, decide_eq_true_eq] at a
  exact ⟨a.1.1, a.1.2, a.2, clean_of _ _ h⟩

/-- Tenant 3 has a ring of 1 KiB at 0x0210_0000, in region 0; its guarantee is 2 and its ceiling 4. -/
def ring : State := (with' (linked State.reset) [(fDECODER_RING_CFG_valid 0 3, 1), (fDECODER_TQ_guar 0 3, 2),
    (fDECODER_TQ_ceil 0 3, 4), (fDECODER_TQ_urg_max 0 3, 1),
  (fRADIO_RX_STATUS_state 9 , 4)]).setReg (aDECODER_RING_BASE 0 3) 0x02100000#32

/-- Receiver 9 in an ingress state with a frame, in a mode. -/
def ing (st : IngSt) (mode : Nat) (f : DecFrame) : State :=
  { ring with decoder := { ring.decoder with
      ingress := [(9, { st := st, tenant := 3, mode := mode, frame := 1 })], frames := [(1, f)], next := 2 } }

/-- A coded frame of 32 bytes of tenant 3. -/
def coded : DecFrame := { rx := 9, tenant := 3, code := 1, len := 32 }

/-- Bits as sure soft bits. -/
def sure (bits : List Bool) : List (BitVec 4) := bits.map (fun b => if b then 9#4 else 7#4)

/-- The frame of receiver 9 is in its body and its entry stands. -/
def inBody (s : State) : Bool :=
  decide ((s.ingress 9).st = .body) && s.softOpen (s.frameRec 1).region && s.ringsFree
    && s.decoder.frames.find? (fun e => e.1 == 1) == some (1, s.frameRec 1) && (s.frameRec 1).ended == none

theorem witness_Ingress :
    let sync : State := { ring with radio := { ring.radio with reports := [.sync 8 {} 0 0 0, .sync 9 {} 3 0 3] } }
    let down : State := { sync with regs := [] }
    let head (mode : Nat) : State := ing .header mode coded
    let full := with' (head 3) [(fDECODER_RING_WR_count 0 3, 1000)]
    let seen (mode : Nat) (bits : List Bool) : Option (Nat × Nat) :=
      headerOf mode (headerWord mode ((head mode).hardSoft mode (headerSoft mode) (sure bits)))
    let body := ing .body 0 coded
    let urgent := ing .body 0 { coded with code := 5 }
    let shut := with' urgent [(fDECODER_TQ_urg_max 0 3, 0)]
    let spent := with' body [(fDECODER_TQ_guar 0 3, 0), (fDECODER_TQ_ceil 0 3, 0)]
    let hold (full : Bool) : HeldCw :=
      { frame := 1, cw := 0, region := 0, tenant := 3, urgent := false, prio := 0, age := 0, full := full }
    let beyond : State := { spent with decoder := { spent.decoder with holds := [hold true, hold false] } }
    let fill : State := { body with decoder := { body.decoder with ctxs := [(1, { st := .fill, frame := 1 })] } }
    let f : DecFrame := { coded with code := 0, mode := 3, len := 6 }
    let plain := ing .body 3 f
    let data := [1#8, 2#8] ++ leBytes 4 (crc32 [1#8, 2#8])
    let last := ing .body 0 { coded with begun := codewords 1 32 }
    let ended (s : State) : State := { s with radio := { s.radio with reports := [.ended 9 2 false true] } }
    (takeReport 9 sync.radio.reports = some (.sync 9 {} 3 0 3, [.sync 8 {} 0 0 0]) ∧ (sync.ingress 9).st = .idle
      ∧ sync.softOpen 0 = true)
    ∧ ((body.ingress 9).st ≠ .idle ∧ down.softOpen 0 = false)
    ∧ (((head 3).ingress 9).st = .header ∧ (head 3).softOpen 0 = true ∧ (head 3).ringsFree = true
      ∧ seen 3 (bitsUp 8 4) = none ∧ ((head 3).ingress 9).tenant < 16)
    ∧ (seen 3 (bitsUp 8 127) = some (0, 127) ∧ full.ringRoom 0 3 127 = false ∧ (full.ingress 9).st = .header)
    ∧ (seen 6 (bitsDown 8 6) = some (0, 9) ∧ (head 3).ringRoom 0 3 127 = true
      ∧ seen 0 (bitsDown 24 (golayEnc (512 + 5))) = some (1, 5))
    ∧ (sync.ingress 9).st ≠ .header
    ∧ (inBody body = true ∧ 0 < codewords 1 32 ∧ ¬4 ≤ (body.frameRec 1).code ∧ body.grantCore 0 3 false = some 0
      ∧ (List.range 12).find? (fun p => (body.ctx (12 * 0 + p)).st == .free) = some 0)
    ∧ (inBody urgent = true ∧ 0 < codewords 5 32 ∧ urgent.urgentOpen 0 3 = true ∧ urgent.grantCore 0 3 true = some 0)
    ∧ (inBody shut = true ∧ shut.urgentOpen 0 3 = false ∧ shut.grantCore 0 3 false = some 0
      ∧ (List.range 12).find? (fun p => (shut.ctx (12 * 0 + p)).st == .free) = some 0)
    ∧ (inBody spent = true ∧ spent.grantCore 0 3 false = none ∧ spent.heldOf 9 < 2)
    ∧ (inBody beyond = true ∧ beyond.grantCore 0 3 false = none ∧ 2 ≤ beyond.heldOf 9 ∧ 9 < 320 ∧ (beyond.frameRec 1).cap = false
      ∧ ∀ e ∈ beyond.decoder.ctxs, e.2.frame ≠ 1)
    ∧ (fill.decoder.ctxs.find? (fun e => e.2.st == .fill && (fill.frameRec e.2.frame).rx == 9)
        = some (1, { st := .fill, frame := 1 }) ∧ fill.softOpen (fill.frameRec 1).region = true)
    ∧ (beyond.decoder.ctxs.find? (fun e => e.2.st == .fill && (beyond.frameRec e.2.frame).rx == 9) = none
      ∧ beyond.decoder.holds.find? (fun y => !y.full && (beyond.frameRec y.frame).rx == 9) = some (hold false))
    ∧ body.decoder.holds.find? (fun y => !y.full && (body.frameRec y.frame).rx == 9) = none
    ∧ (inBody (ended plain) = true ∧ codewords 0 6 ≤ ((ended plain).frameRec 1).begun
      ∧ takeReport 9 (ended plain).radio.reports = some (.ended 9 2 false true, []))
    ∧ (inBody plain = true ∧ plain.radio.reports = [] ∧ codewords 0 6 = 0 ∧ f.stored = 0 ∧ f.cap = false
      ∧ psduGood 3 (uncodedPsdu 3 6 (plain.hardSoft 3 48 (sure (bytesUp data)))) = true)
    ∧ (inBody last = true ∧ codewords 1 32 ≠ 0 ∧ (last.frameRec 1).begun = codewords 1 32
      ∧ (last.frameRec 1).stored < codewords 1 32)
    ∧ (let s := ended (head 3)
      takeReport 9 s.radio.reports = some (.ended 9 2 false true, []) ∧ s.ringsFree = true ∧ (s.ingress 9).st ≠ .body)
    ∧ (let s := ended body
      takeReport 9 s.radio.reports = some (.ended 9 2 false true, []) ∧ inBody s = true ∧ (s.frameRec 1).cap = false
      ∧ s.decoder.ctxs = [] ∧ s.decoder.holds = []) :=
  ⟨by decide +kernel, by decide +kernel, by decide +kernel, by decide +kernel, by decide +kernel, by decide +kernel,
    by decide +kernel, by decide +kernel, by decide +kernel, by decide +kernel, by decide +kernel, by decide +kernel,
    by decide +kernel, by decide +kernel, by decide +kernel, by decide +kernel, by decide +kernel, by decide +kernel,
    by decide +kernel⟩

theorem witness_Ingress_ring :
    (ing .header 3 coded).RingFlat 0 3 0 32 ∧ (ing .body 3
      { coded with code := 0, mode := 3, len := 6 }).RingFlat 0 3 0 (entrySize 6) :=
  ⟨ringFlat_of rfl (by decide +kernel), ringFlat_of rfl (by decide +kernel)⟩

/-- A codeword whose first k bits came wrong. -/
def wrong (k : Nat) : List (BitVec 4) := List.replicate k 9#4 ++ List.replicate (512 - k) 7#4

/-- The pool with contexts of the coded frame; the iteration caps are 10 and 20. -/
def pool (cs : List (Nat × CwCtx)) : State :=
  let s := with' (ing .body 0 { coded with begun := 1 }) [(fDECODER_CAP_norm_cap, 10), (fDECODER_CAP_urg_cap, 20)]
  { s with decoder := { s.decoder with ctxs := cs } }

theorem witness_DecoderContexts :
    let c (k : Nat) : CwCtx := { st := .load, frame := 1, tenant := 3, soft := wrong k }
    let it (k : Nat) : CwCtx := { c k with st := .iterate }
    let busy := pool [(0, it 0), (11, c 1)]
    let on (k : Nat) : State := pool [(0, it k)]
    let gone : State := { on 1 with decoder := { (on 1).decoder with
      frames := [(1, { coded with begun := 1, ended := some 2 })] } }
    let urgent := pool [(0, it 60), (1, { c 0 with st := .ready, urgent := true })]
    let store := pool [(0, { c 0 with st := .store })]
    let rd := with' (withCore 0 core) [(fDECODER_RING_WR_count 0 0, 40)]
    let tq := up (linked State.reset)
    let fits (v : Word) : Bool := r147 (fun u => if u = 15 then v.toNat % 32 else State.reset.fget (fDECODER_TQ_guar
        3 u))
      (fun u => if u = 15 then v.toNat / 2 ^ 8 % 32 else State.reset.fget (fDECODER_TQ_ceil 3 u))
      (fun u => if u = 15 then v.toNat / 2 ^ 16 % 32 else State.reset.fget (fDECODER_TQ_urg_max 3 u)) 0
    let resFits (v : Nat) : Bool := (List.range 4).all (fun z => r147 (fun u => tq.fget (fDECODER_TQ_guar z u))
      (fun u => tq.fget (fDECODER_TQ_ceil z u)) (fun u => tq.fget (fDECODER_TQ_urg_max z u))
      (resOf (resMerge (tq.fget fDECODER_RESERVE_res) v 8) z))
    let iterates (s : State) (k : CwCtx) : Bool := keysRise s.decoder.ctxs
      && s.decoder.ctxs.find? (fun z => z.1 / 12 == 0 && z.2.st == .iterate) == some (0, k)
      && s.decoder.frames.find? (fun z => z.1 == 1) == some (1, s.frameRec 1) && (s.frameRec 1).ended == none
    let waits (s : State) : Bool := s.decoder.ctxs.any (fun z => z.1 / 12 == 0 && z.2.st == .ready && z.2.urgent)
    (keysRise (pool [(95, c 0)]).decoder.ctxs = true ∧ ((pool [(95, c 0)]).ctx 95).st = .load
      ∧ (pool [(95, c 0)]).ctxZero (c 0) 0 0 = true)
    ∧ (on 0).decoder.ctxs.find? (fun z => z.1 / 12 == 7 && z.2.st == .iterate) = none
    ∧ (keysRise busy.decoder.ctxs = true ∧ (busy.ctx 11).st = .load ∧ busy.ctxZero (c 1) 0 0 = false ∧ 0 / 12 = 11 / 12
      ∧ (busy.ctx 0).st = .iterate)
    ∧ ((pool [(95, c 1)]).ctxZero (c 1) 0 0 = false
      ∧ ∀ z, z ≠ 95 → ((pool [(95, c 1)]).ctx z).st ≠ .iterate ∧ ((pool [(95, c 1)]).ctx z).st ≠ .ready)
    ∧ (keysRise gone.decoder.ctxs = true ∧ gone.decoder.holds = [] ∧ (gone.frameRec 1).ended ≠ none
      ∧ gone.decoder.ctxs.find? (fun z => z.1 / 12 == 0 && z.2.st == .iterate) = some (0, it 1))
    ∧ (iterates (on 1) (it 1) = true ∧ (on 1).ctxZero (it 1) 1 0 = true)
    ∧ (iterates (on 60) (it 60) = true ∧ (on 60).ctxZero (it 60) 1 0 = false ∧ waits (on 60) = false
      ∧ 1 < (on 60).fget fDECODER_CAP_norm_cap)
    ∧ (with' (on 60) [(fDECODER_CAP_norm_cap, 1)]).fget fDECODER_CAP_norm_cap ≤ 1
    ∧ (iterates urgent (it 60) = true ∧ waits urgent = true ∧ (it 60).urgent = false)
    ∧ (on 0).ringsFree = true ∧ ((on 0).ctx 0).st ≠ .store ∧ ((on 0).ctx 0).st ≠ .load
    ∧ ((store.ctx 0).st = .store ∧ store.ringsFree = true ∧ store.decoder.holds = [] ∧ (store.frameRec 1).lastIn = false
      ∧ (store.frameRec 1).ended = none ∧ store.decoder.frames.find? (fun z => z.1 == 1) = some (1, store.frameRec 1)
      ∧ cwFirst 32 (codewords 1 32) 0
        + (packUp (store.ctxBytes (store.ctx 0)) (store.ctxBits (store.ctx 0) 0 0)).length ≤ 32)
    ∧ (rd.coreRuns 0 = true ∧ rd.decoder.frames = [] ∧ countDiff 40 0 ≤ countDiff (rd.fget (fDECODER_RING_WR_count 0 0)) 0
      ∧ countDiff (rd.fget (fDECODER_RING_WR_count 0 0)) 0 < countDiff 48 0)
    ∧ (State.reset.coreRuns 0 = false ∧ State.reset.regReach (.core .sup) (aDECODER_TQ 3 15) = false
      ∧ State.reset.regReach (.core .sup) aDECODER_RESERVE = false)
    ∧ (tq.regOpen (.core .sup) (aDECODER_TQ 3 15) true = true ∧ tq.hasRegion 3 = true ∧ fits 0x00030402#32 = true
      ∧ fits 0x00050402#32 = false ∧ (0x00030402#32 : Word).toNat / 2 ^ 24 % 8 ≠ 7)
    ∧ (tq.regOpen (.core .sup) aDECODER_RESERVE true = true ∧ resFits 0x3001 = true)
    ∧ ((List.range 4).all (fun z => r147 (fun u => if z = 0 ∧ u = 0 then 24 else tq.fget (fDECODER_TQ_guar z u))
      (fun u => if z = 0 ∧ u = 0 then 24 else tq.fget (fDECODER_TQ_ceil z u)) (fun u => tq.fget (fDECODER_TQ_urg_max z u))
      (resOf (resMerge (tq.fget fDECODER_RESERVE_res) 1 8) z)) = false) :=
  ⟨by decide +kernel, by decide +kernel, by decide +kernel, ⟨by decide +kernel, fun z hz => by
      have h : (pool [(95, { st := .load, frame := 1, tenant := 3, soft := wrong 1 })]).ctx z = {} := by
        show tabGet _ [(95, _)] z = _
        simp only [tabGet]
        split <;> simp_all
      rw [h]
      decide⟩, by decide +kernel, by decide +kernel, by decide +kernel, by decide +kernel, by decide +kernel,
    by decide +kernel, by decide +kernel, by decide +kernel, by decide +kernel, by decide +kernel, by decide +kernel,
    by decide +kernel, by decide +kernel, by decide +kernel⟩

theorem witness_DecoderContexts_ring : (pool []).RingFlat 0 3 0 (entrySize 32) := ringFlat_of rfl (by decide +kernel)

/-! ## Witnesses: the relay unit -/

theorem takes_of {s : State} {e : RelayEntry} {rest : List RelayEntry} (h : s.upkeep.flips = [])
    (a : (s.relay.queue == e :: rest && s.relay.job.isNone && decide (s.cipher.queue.length < 32) && s.ringsFree
      && decide (e.region < 4) && decide (e.tenant < 16)) = true)
    (b : ((s.reg (aDECODER_RING_BASE e.region e.tenant)).toNat % 8 == 0 && e.start % 8 == 0
      && decide (e.start % s.ringSize e.region e.tenant + entrySize e.len ≤ s.ringSize e.region e.tenant)) = true) :
    s.Takes e rest := by
  simp only [Bool.and_eq_true, beq_iff_eq, decide_eq_true_eq, Option.isNone_iff_eq_none] at a
  exact ⟨a.1.1.1.1.1, a.1.1.1.1.2, a.1.1.1.2, a.1.1.2, a.1.2, a.2, ringFlat_of h b⟩

/-- The entry of a PSDU in the ring of tenant 3, in a mode. -/
def entryOf (mode : Nat) (p : List Byte) : RelayEntry :=
  { region := 0, tenant := 3, start := 0, rx := 9, mode := mode, code := 0, len := p.length, sync := {} }

/-- That PSDU waits at the relay unit; tenant 3 is declared and started; node 5 is tenant 3's, with record 9. -/
def waits (mode : Nat) (p : List Byte) : State :=
  let s := (with' ring [(fRELAY_CTRL_en, 1), (fSYS_TENANT_RUN_started, 8), (fTENANT_CFG_declared 3, 1),
    (fRELAY_CTRL_life, 100)]).setBytes 0x02100020 p
  let s := s.setBytes (nodeAddr 5 0) (nodeBytes { id := 5, valid := true, here := true, tenant := 3, record := 9 })
  { s with relay := { s.relay with queue := [entryOf mode p] } }

/-- A frame of node 5 with frame control fc and n bytes in all. -/
def psdu (fc n : Nat) (dst : Nat := 6) : List Byte :=
  leBytes 2 fc ++ leBytes 2 1 ++ leBytes 4 5 ++ leBytes 4 dst ++ leBytes 4 77 ++ leBytes (n - 16) 0

/-- The frame that waits. -/
def heads (s : State) : Frame :=
  match s.relay.queue with
  | e :: _ => frameOf (s.entryBytes e) e.len
  | [] => { fc := 0, seq := 0, src := 0, dst := 0, ctr := 0, len := 0 }

/-- The relay unit waits for the verification of that PSDU, which has ended in a status. -/
def verified (p : List Byte) (j : RelayJob) (st : Nat) : State :=
  let s := waits 0 p
  { s with relay := { s.relay with queue := [], job := some { j with entry := entryOf 0 p, psdu := p, tenant := 3 } }
           cipher := { s.cipher with relayDone := [(st, [1#8, 2#8])] } }

/-- Receiver 9 hears 868.1 MHz, which lies in sub-band 0 of a chain. -/
def onAir868 (s : State) : State :=
  { with' s [(fRADIO_RX_FREQ_freq_hz 9, 868100000)] with fuses := (chain 1 {}).fuses }

theorem witness_RelayVerdicts :
    let f (s : State) : Frame := heads s
    let rein (s : State) : Bool := s.fon fRELAY_CTRL_en && !(f s).malformed && s.started (f s).tenant
    let plain := waits 0 (psdu 0x3000 20)
    let ok := with' plain [(fRELAY_TCFG_plain_ok 3, 1)]
    let k := 4 * seenSet 5 77
    let twice := ok.setSeen k { valid := true, src := 5, ctr := 77, tenant := 3, dlv := true }
    let shut := waits 0 (psdu 0x3080 28)
    let flood := onAir868 (with' (waits 0 (psdu 0x3120 20)) [(fRELAY_TCFG_plain_ok 3, 1), (fRELAY_TCFG_relay_en 3, 1)])
    let fd : Frame := frameOf (psdu 0x3080 28) 28
    let ackP := psdu 0x3090 28 0xFFFE0000
    let ack := with' (onAir868 (verified ackP { entry := entryOf 0 ackP, byNode := true, node := some (1, 5, 76), record := 9 } 0))
      [(fRELAY_TCFG_ack_en 3, 1)]
    let res (st : Nat) : State := verified (psdu 0x3080 28) { entry := entryOf 0 [] } st
    let off := with' plain [(fRELAY_CTRL_en, 0)]
    let other := with' (waits 0 (psdu 0x4000 20)) [(fRELAY_CTRL_en, 0)]
    let f1p (c : Byte) : List Byte := [9#8, c] ++ beBytes 3 7 ++ beBytes 2 4 ++ List.replicate 6 0#8
    let f1 (c : Byte) : State := with' (waits 6 (f1p c)) [(fRELAY_TCFG_plain_ok 3, 1)]
    let known (c : Byte) : State :=
      { f1 c with relay := { (f1 c).relay with aliases := [(28, { valid := true, addr := 7, tenant := 3, node := 5 })] }
                  fuses := { State.reset.fuses with oldTree := 0x40000000#32 } }
    State.reset.relayNext (fun y => State.reset.fon fRELAY_CTRL_en && y.mode != 6) = none
    ∧ (plain.relay.job = none ∧ State.reset.cipher.relayDone = [])
    ∧ ((f (waits 0 (psdu 0x3008 20))).malformed = true ∧ (waits 0 (psdu 0x3008 20)).fon fRELAY_CTRL_en = true)
    ∧ (rein plain = true ∧ (f plain).flood = false ∧ (f plain).secured = false ∧ plain.fon (fRELAY_TCFG_plain_ok 3) = false)
    ∧ (rein ok = true ∧ (f ok).tenant = 3 ∧ ok.fon (fRELAY_TCFG_plain_ok 3) = true ∧ ok.seenLookup 5 77 = none)
    ∧ (rein twice = true ∧ twice.seenLookup 5 77 = some k ∧ (twice.seen k).dlv = true ∧ (twice.seen k).relay ≠ .pending)
    ∧ (rein shut = true ∧ (f shut).secured = true ∧ (f shut).flood = false
      ∧ shut.relayKey (f shut) (shut.nodeLookup 5).1 ≠ .absent)
    ∧ (rein flood = true ∧ (f flood).flood = true ∧ 0 < (f flood).ttl ∧ (f flood).secured = false
      ∧ flood.fon (fRELAY_TCFG_relay_en 3) = true ∧ flood.seenLookup 5 77 = none
      ∧ flood.chainFor 868100000 (modeWidth 0) = some 0 ∧ flood.subOf 868100000 (modeWidth 0) = some 0
      ∧ (List.range 256).find? (fun i => !flood.relay.bufs.contains i) = some 0
      ∧ 0x02000000 ≤ flood.entryKey (entryOf 0 (psdu 0x3120 20))
      ∧ flood.entryKey (entryOf 0 (psdu 0x3120 20)) + entrySize 20 ≤ 0x04000000)
    ∧ (fd.secured = true ∧ fd.flood = false ∧ fd.type = 0 ∧ fd.ackReq = false ∧ fd.tenant = 3)
    ∧ ((res 0).relay.job.map RelayJob.entry = some (entryOf 0 (psdu 0x3080 28)) ∧ (res 0).ringsFree = true
      ∧ (res 2).cipher.relayDone = [(2, [1#8, 2#8])] ∧ (res 0).seenLookup 5 77 = none)
    ∧ (76 < 77 ∧ (frameOf ackP 28).type = 0 ∧ (frameOf ackP 28).ackReq = true ∧ (frameOf ackP 28).dst = ack.airAddr
      ∧ ack.fon (fRELAY_TCFG_ack_en 3) = true ∧ ack.seenLookup 5 77 = none
      ∧ ack.chainFor 868100000 (modeWidth 0) = some 0 ∧ ack.subOf 868100000 (modeWidth 0) = some 0
      ∧ (entryOf 0 ackP).sync.era = ack.cinch.era ∧ ack.cipher.queue.length < 32
      ∧ ack.fget (fRADIO_RX_FREQ_freq_hz 9) = 868100000)
    ∧ (off.fon fRELAY_CTRL_en = false ∧ (f off).tenant = 3 ∧ (f other).tenant ≠ 3 ∧ (f off).type < 8)
    ∧ ((f1 0#8).fon fRELAY_CTRL_en = true ∧ (f1 0#8).aliasFind 7 = none)
    ∧ ((0x80#8 : Byte).toNat / 2 ^ 7 % 2 = 1 ∧ (known 0x80#8).aliasFind 7 = some { valid := true, addr := 7, tenant := 3, node := 5 }
      ∧ (known 0x80#8).fuses.oldTree.getLsbD 30 = true ∧ 13 ≤ (f1p 0x80#8).length)
    ∧ ((known 0#8).aliasFind 7 = some { valid := true, addr := 7, tenant := 3, node := 5 }
      ∧ ((known 0#8).nodeLookup 5).1.map (fun x => (x.1, x.2.tenant)) = some (nodeAddr 5 0, 3)
      ∧ (known 0#8).fon (fRELAY_TCFG_plain_ok 3) = true ∧ (known 0#8).seenLookup 5 (0x80000000 + 4) = none) :=
  ⟨by decide +kernel, by decide +kernel, by decide +kernel, by decide +kernel, by decide +kernel, by decide +kernel,
    by decide +kernel, by decide +kernel, by decide +kernel, by decide +kernel, by decide +kernel, by decide +kernel,
    by decide +kernel, by decide +kernel, by decide +kernel⟩

theorem witness_RelayVerdicts_takes :
    (waits 0 (psdu 0x3000 20)).Takes (entryOf 0 (psdu 0x3000 20)) []
    ∧ (waits 0 (psdu 0x3080 28)).Takes (entryOf 0 (psdu 0x3080 28)) []
    ∧ (waits 0 (psdu 0x3000 20)).Clean 0x04000000 0x520000
    ∧ (waits 0 (psdu 0x3080 28)).RingFlat 0 3 0 (entrySize 28) :=
  ⟨takes_of rfl (by decide +kernel) (by decide +kernel), takes_of rfl (by decide +kernel) (by decide +kernel),
    clean_of _ _ rfl, ringFlat_of rfl (by decide +kernel)⟩

theorem witness_RelaySupport :
    let r (k : RelayKind) (cut : Bool) : RelayTx := { kind := k, buf := some 2, cut := cut }
    let tx (k : RelayKind) (cut : Bool) : TxCmd := { cmd with who := .relay (r k cut) }
    let done (d : List (TxCmd × Nat × Option (Nat × Nat))) : State :=
      { State.reset with relay := { State.reset.relay with done := d, bufs := [2] } }
    let v : Reserve := { rx := 0, tenant := 0, freq := 868100000, rsF := 0, rsNs := 0, eF := 0, eNs := 0 }
    let held (n : Nat) : State := chain 1 { reserves := List.replicate n v }
    let reply : State := chain 3 { reserves := [v], air := [{ cmd := { cmd with who := .engine 0, mode := 6, startNs := 20000000 }, first := some (0, 0) }] }
    let id := up (linked (with' State.reset [(fOLDTREE_ALIAS_node_id, 0xFFFDFFFF), (fOLDTREE_ALIAS_tenant, 15),
        (fTENANT_CFG_declared 15, 1)]))
    let tab (l : List Nat) : State := { id with relay := { id.relay with
      aliases := l.map (fun w => (4 * aliasSet 7 + w, { valid := true, addr := 7 + w, tenant := 0, node := 5 })) } }
    let due := with' { State.reset with cinch := { State.reset.cinch with started := true } }
      [(fCINCH_BEACON_en, 1)]
    let plan := due.setReg (aCINCH_PLAN (due.bankFor false) 3899) 0x00020000#32
    let keyed : State := { plan with cipher := { plan.cipher with slots := [(1, { valid := true })] } }
    State.reset.relay.done = []
    ∧ ((done [(cmd, 0, none)]).relay.done = [(cmd, 0, none)] ∧ cmd.who = .sup)
    ∧ ((tx .relay true).who = .relay (r .relay true) ∧ (tx .relay false).who = .relay (r .relay false) ∧ 1 < 0xD)
    ∧ (({ tx .relay false with urgent := true } : TxCmd).urgent = true ∧ (r .relay false).era = (done []).cinch.era
      ∧ (tx .relay false).tenant < 16)
    ∧ (tx .ack false).who = .relay (r .ack false) ∧ (tx .relay false).urgent = false
    ∧ ((held 0).chain 0).reserves[0]? = none
    ∧ ((reply.chain 0).reserves[0]? = some v
      ∧ (reply.chain 0).air.any (fun q => q.first.isSome && reply.isReply v q.cmd) = true)
    ∧ (((held 16).chain 0).reserves[(15#4 : BitVec 4).toNat]? = some v
      ∧ ((held 16).chain 0).air.any (fun q => q.first.isSome && (held 16).isReply v q.cmd) = false)
    ∧ State.reset.regReach (.core .sup) aOLDTREE_ALIAS_w0 = false
    ∧ (id.regOpen (.core .sup) aOLDTREE_ALIAS_w0 true = true ∧ isNodeId (id.fget fOLDTREE_ALIAS_node_id) = true
      ∧ id.declared (id.fget fOLDTREE_ALIAS_tenant) = true ∧ isNodeId 0xFFFE0000 = false)
    ∧ ((tab [3, 0]).aliasKey 7 = some (4 * aliasSet 7) ∧ (tab [3, 0]).regOpen (.core .sup) aOLDTREE_ALIAS_w0 true = true)
    ∧ ((tab [3]).aliasKey 7 = none ∧ ((List.range 4).map (fun b => 4 * aliasSet 7 + b)).find?
        (fun q => !(tabGet {} (tab [3]).relay.aliases q).valid) = some (4 * aliasSet 7))
    ∧ ¬State.reset.cinch.started = true ∧ State.reset.cinch.beaconDone = []
    ∧ (keyed.cinch.started = true ∧ keyed.fon fCINCH_BEACON_en = true ∧ keyed.cinch.stepDue = false
      ∧ (keyed.reg (aCINCH_PLAN (keyed.bankFor (decide (3899 * 250000 < keyed.nowNs))) 3899)).getLsbD 17 = true
      ∧ keyed.fget fCINCH_BEACON_mode < 3 ∧ (keyed.keySlot 1).valid = true
      ∧ keyed.hasChain (keyed.fget fCINCH_BEACON_chain) = true)
    ∧ (plan.keySlot 1).valid = false :=
  ⟨by decide +kernel, by decide +kernel, by decide +kernel, by decide +kernel, by decide +kernel, by decide +kernel,
    by decide +kernel, by decide +kernel, by decide +kernel, by decide +kernel, by decide +kernel, by decide +kernel,
    by decide +kernel, by decide +kernel, by decide +kernel, by decide +kernel, by decide +kernel⟩

/-- A set of the alias table that holds four other addresses. -/
theorem witness_RelaySupport_full :
    let a (w addr : Nat) : Nat × AliasEntry := (4 * aliasSet 7 + w,
      { valid := true, addr := addr, tenant := 0, node := 5 })
    let s : State := { State.reset with relay := { State.reset.relay with aliases := [a 0 8, a 1 9, a 2 10, a 3 11] } }
    s.aliasKey 7 = none ∧ ((List.range 4).map (fun b => 4 * aliasSet 7 + b)).find?
        (fun q => !(tabGet {} s.relay.aliases q).valid) = none := by decide +kernel


/-! ## Witnesses: Cinch and the node-table unit -/

/-- Cinch time has started and stands tu units into frame 10. -/
def cin (tu : Nat) (f : CinchSt → CinchSt) : State :=
  { State.reset with cinch := f { State.reset.cinch with started := true, frame := 10, tu := tu } }

/-- The unit of `CinchSt.tu` in a nanosecond. -/
def tuNs : Nat := 8000000000

theorem witness_CinchServo :
    let late (s : State) : Bool := match s.cinch.ppsAt with
      | some y => decide (20000000 ≤ s.mono - y)
      | none => true
    let s := cin (5 * tuNs) id
    let again := cin (5 * tuNs) (fun c => { c with ppsAt := some 0 })
    let once := cin (5 * tuNs) (fun c => { c with sources := [(1, { taken := true })] })
    let ptp := with' s [(fCINCH_PTP_CFG_ptp_ok 1, 1), (fCINCH_EPOCH_epoch, 0xFFFFFFF7)]
    let near := up (linked (with' s [(fCINCH_AIR_NBR_valid 7, 1), (fCINCH_AIR_NBR_device 7, 4095),
      (fCINCH_STATUS_stratum, 15)]))
    let near := (near.setReg aCINCH_AIR_OBS_w0 10#32).setReg (aCINCH_AIR_OBS_w0 + 8) 10#32
    let old := near.setReg aCINCH_AIR_OBS_w0 7#32
    let v : Word := 0xFFF30001#32
    let src (o : Int) : SourceSt := { last := o, offs := [o], qualified := true, fresh := true, stratum := 1 }
    let atD (st : Nat) (o : Int) (last : Option Nat) : State := with' (cin (400000000 * tuNs) (fun c => { c with
      sources := [(1, src o), (2, { fresh := true }), (3, { fresh := true }), (4, { fresh := true })],
          lastStep := last }))
      [(fCINCH_STATUS_state, st), (fCINCH_CTRL_src_en, 15), (fCINCH_STATUS_source, 1)]
    let free (s : State) : Bool := s.cinch.started && !s.cinch.decided
      && decide (400000000 * 8000000000 ≤ s.cinch.tu) && [1, 2, 3, 4].all (fun j => (s.source j).fresh)
    let isD (s : State) : Bool := free s && !s.cinch.reacquire
    let shut := with' (atD 2 0 none) [(fCINCH_CTRL_src_en, 0)]
    let again' : State := { atD 2 0 none with cinch := { (atD 2 0 none).cinch with reacquire := true } }
    let hold := with' (cin 0 (fun c => { c with holdFrames := 2 ^ 24 })) [(fCINCH_STATUS_state, 3)]
    let wr (st : Nat) : State := up (linked (with' State.reset [(fCINCH_STATUS_state, st)]))
    State.reset.cinch.started = false
    ∧ (once.cinch.started = true ∧ late once = true ∧ (once.source 1).taken = true)
    ∧ (s.cinch.started = true ∧ late s = true ∧ (s.source 1).taken = false)
    ∧ (again.cinch.started = true ∧ late again = false)
    ∧ (ptp.cinch.started = true ∧ ptp.fon (fCINCH_PTP_CFG_ptp_ok 1) = true ∧ (ptp.source 3).taken = false
      ∧ s.fon (fCINCH_PTP_CFG_ptp_ok 0) = false
      ∧ (let t := ptp.cinchTo 6
        let sec := (t.ptpTime 1).1 + 1
        (signedN 32 (t.cinch.frame + 2 ^ 32 - (sec % 2 ^ 32 + 2 ^ 32 - t.fget fCINCH_EPOCH_epoch) % 2 ^ 32) * 1000000000
          + (t.nowNs : Int)).natAbs ≤ 500000000))
    ∧ (State.reset.regReach (.core .sup) aCINCH_AIR_OBS_w4 = false ∧ State.reset.regReach (.core .sup) aCINCH_CTRL = false
      ∧ State.reset.regReach (.core .sup) aCINCH_RATE = false)
    ∧ (near.regOpen (.core .sup) aCINCH_AIR_OBS_w4 true = true ∧ near.airNbr ((v.toNat ||| 1) / 2 ^ 20 % 2 ^ 12) = some 7
      ∧ (near.cinch.frame + 2 ^ 32 - (near.reg aCINCH_AIR_OBS_w0).toNat) % 2 ^ 32 ≤ 2 ∧ (near.source 4).taken = false
      ∧ (v.toNat ||| 1).testBit 15 = false ∧ (v.toNat ||| 1) / 2 ^ 16 % 16 = 3 ∧ 3 < near.fget fCINCH_STATUS_stratum
      ∧ ((near.reg aCINCH_AIR_OBS_w0).toNat, (near.reg (aCINCH_AIR_OBS_w0 + 4)).toNat) = (10, 0))
    ∧ near.airNbr 4094 = none
    ∧ (old.cinch.frame + 2 ^ 32 - (old.reg aCINCH_AIR_OBS_w0).toNat) % 2 ^ 32 = 3
    ∧ (free again' = true ∧ again'.cinch.reacquire = true ∧ again'.selectSource = some 1)
    ∧ (isD (atD 3 2000000 none) = true ∧ (atD 3 2000000 none).selectSource = some 1 ∧ (atD 3 2000000 none).cinchState = 3)
    ∧ (isD shut = true ∧ shut.selectSource = none ∧ shut.cinchState = 2)
    ∧ (isD (atD 1 (-2000000) none) = true ∧ (atD 1 (-2000000) none).selectSource = some 1
      ∧ (atD 1 (-2000000) none).cinchState = 1 ∧ ((atD 1 (-2000000) none).source 1).last = -2000000)
    ∧ (isD (atD 2 2000001 none) = true ∧ (atD 2 2000001 none).selectSource = some 1 ∧ (atD 2 2000001 none).cinchState = 2
      ∧ (atD 2 2000001 none).fget fCINCH_STATUS_source = 1 ∧ (atD 2 2000001 none).cinch.stepOpen = true)
    ∧ ((atD 2 2000001 (some 9)).cinch.stepOpen = false ∧ (atD 2 2000001 (some 9)).selectSource = some 1)
    ∧ (isD (atD 0 5 none) = true ∧ (atD 0 5 none).selectSource = some 1 ∧ (atD 0 5 none).cinchState = 0)
    ∧ (hold.cinchState = 3 ∧ hold.cinch.holdOut = false ∧ hold.fget fCINCH_SERVO_holdover_keep ≤ hold.cinch.holdFrames)
    ∧ s.cinchState ≠ 3
    ∧ ((wr 0).regOpen (.core .sup) aCINCH_CTRL true = true ∧ (wr 0).regOpen (.core .sup) aCINCH_RATE true = true
      ∧ (wr 0).cinchState = 0 ∧ (wr 1).cinchState = 1 ∧ (wr 1).regOpen (.core .sup) aCINCH_RATE true = true)
    ∧ (signedN 16 ((10000#32 : Word).toNat % 65536)).natAbs ≤ 10000
    ∧ 10000 < (signedN 16 ((0xD8EF#32 : Word).toNat % 65536)).natAbs :=
  ⟨by decide +kernel, by decide +kernel, by decide +kernel, by decide +kernel, by decide +kernel, by decide +kernel,
    by decide +kernel, by decide +kernel, by decide +kernel, by decide +kernel, by decide +kernel, by decide +kernel,
    by decide +kernel, by decide +kernel, by decide +kernel, by decide +kernel, by decide +kernel, by decide +kernel,
    by decide +kernel, by decide, by decide⟩

theorem witness_CinchFrames :
    let s := up (linked (with' (cin 0 (fun c => { c with decided := true })) [(fGIRTH_CTRL_auto, 0), (fGIRTH_CTRL_force, 0)]))
    let slow := cin 0 (fun c => { c with slot := 3998 })
    let drift (v : Word) : ExtSt := { slow.extNow 3 with tu := (slow.extNow 3).tu + signedN 32 v.toNat * 7812500 }
    let ext (v : Word) : Nat := ({ slow with cinch := { slow.cinch with ext := [(3, { frame := 10 })] } } : State).extDiff
      { drift v with frame := 10 } |>.natAbs
    State.reset.cinch.started = false
    ∧ (s.cinch.started = true ∧ s.cinch.decided = true ∧ s.cinch.stepDue = false ∧ s.cinch.renumber = none
      ∧ s.pkg.power = .run ∧ s.pkg.reqWait = 0 ∧ s.fon fGIRTH_CTRL_auto = false ∧ s.fon fGIRTH_CTRL_force = false)
    ∧ (slow.cinch.started = true ∧ slow.cinch.slot < 3999 ∧ 3999 * 250000 < slow.frameLen ∧ 3998 ≤ slow.cinch.slot)
    ∧ (State.reset.regReach (.core .sup) aCINCH_PLAN_CTRL = false
      ∧ State.reset.regReach (.core .sup) (aCINCH_PLAN 1 3999) = false)
    ∧ (s.regOpen (.core .sup) aCINCH_PLAN_CTRL true = true ∧ s.regOpen (.core .sup) (aCINCH_PLAN 1 3999) true = true
      ∧ s.regOpen (.core .sup) (aCINCH_PLAN 0 3999) true = true ∧ b2n true ≠ s.planBank ∧ b2n false = s.planBank
      ∧ (3999#12 : BitVec 12).toNat < 4000)
    ∧ (8 * 1024 < ext 8193#32 ∧ ext 8192#32 ≤ 8 * 1024) := by
  decide +kernel

theorem portHolds_of {s : State} {p : Nat} {x : PortCmd} {op : Nat}
    (h : (s.portCmd p == some x && x.w 0 / 2 ^ 28 == op && x.blk.length == 48 && aliasAddr x.core x.addr % 8 == 0
      && s.portReady p && s.portPick == some p && !s.relayAsks && !s.dieOff (aliasAddr x.core x.addr + 8)
      && s.dmaKey x.core (aliasAddr x.core x.addr + 8) == some (aliasAddr x.core x.addr + 8)
      && !s.noStore (aliasAddr x.core x.addr + 8) 40) = true) :
    s.PortHolds p x op := by
  simp only [Bool.and_eq_true, beq_iff_eq, Bool.not_eq_true'] at h
  exact ⟨h.1.1.1.1.1.1.1.1.1, h.1.1.1.1.1.1.1.1.2, h.1.1.1.1.1.1.1.2, h.1.1.1.1.1.1.2, h.1.1.1.1.1.2, h.1.1.1.1.2,
    h.1.1.1.2, h.1.1.2, h.1.2, h.2⟩

/-- A command block at 0x0460_0000 of a core: its words 0 to 11 from a list, then zeros. -/
def blk (core : Nat) (ws : List Nat) : PortCmd :=
  { core := core, addr := 0x04600000, blk := takePad 48 (ws.flatMap (leBytes 4)) }

/-- Core 0 of tenant 0 runs; port 3 runs the command; node 5 of tenant 0 stands in the node table. -/
def port (x : PortCmd) : State :=
  let s := nodes ((owned (withCore 0 core) 0))
  let s := with' s [(fTABLE_TQUOTA_rec_count 0, 16), (fTABLE_TINBOX_valid 0, 1), (fTABLE_TINBOX_wr 0, 8),
      (fTABLE_CFG_sweep_en, 1)]
  { s with relay := { s.relay with ports := [(3, some x)] } }

/-- Op n of the supervisor with word 1. -/
def op (n w1 : Nat) : PortCmd := blk 128 [n * 2 ^ 28, w1]

/-- An INSERT of a node with record r. -/
def ins (id r : Nat) : PortCmd :=
  { op 2 id with blk := takePad 16 ((op 2 id).blk) ++ nodeBytes { id := id, valid := true, here := true, record := r } }

/-- A FORWARD of the 16-byte message at 0x0460_0100 to this device. -/
def fwd : PortCmd := blk 128 [7 * 2 ^ 28, 0x04600100, 16]

theorem witness_NodePorts :
    let found (s : State) (id : Nat) : Bool := (s.nodeLookup id).1.any (fun x => sees (s.asker 128) x.2)
    let ins' (id : Nat) : Bool :=
      let x := ins id 15
      let s := port x
      let e := nodeOf (x.blk.drop 16)
      isNodeId (x.w 1) && e.id == x.w 1 && e.here == (e.home == s.device) && decide (0 ≤ e.record)
        && decide (e.record < s.fget (fTABLE_TQUOTA_rec_count 0)) && s.nodeEntries 0 != s.fget
            (fTABLE_TQUOTA_rec_count 0)
        && !e.pinned
    let route := op 5 4095
    let m := (port fwd).setBytes 0x04600100 (({ ixtOf [] with version := 1 } : Ixt).bytes)
    let i := ixtOf (m.bytes 0x04600100 16)
    let fetch : State := (port { op 1 5 with blk := [] }).setBytes 0x04600000 (op 1 5).blk
    let clear : State := { fetch with upkeep := { fetch.upkeep with clearing := some (0x04600000, 0x04610000) } }
    let two : State := { port (op 1 5) with relay := { (port (op 1 5)).relay with
      ports := [(2, some (op 1 5)), (3, some (op 1 5))] } }
    State.reset.portCmd 3 = none ∧ (two.portReady 3 = true ∧ two.portPick = some 2)
    ∧ ((port (op 1 5)).portReady 3 = true ∧ (op 1 5).w 0 / 2 ^ 28 % 16 ≠ 2)
    ∧ ((clear.portCmd 3).map PortCmd.blk = some [] ∧ clear.dmaWaits 128 (0x04600000, 48) = true)
    ∧ ((fetch.portCmd 3).map PortCmd.blk = some [] ∧ fetch.dmaWaits 128 (0x04600000, 48) = false
      ∧ fetch.dieOff 0x04600000 = false ∧ windowOff 0x04600000 = none ∧ fetch.dmaOk none 128 0x04600000 48 false = true
      ∧ fetch.dmaKey 128 0x04600000 = some 0x04600000 ∧ fetch.unlaid 0x04600000 48 = false
      ∧ ({ op 1 5 with blk := fetch.bytes 0x04600000 48 } : PortCmd).malformed = false)
    ∧ ((port (blk 0 [8 * 2 ^ 28, 2 ^ 24])).asker 0 = some 0 ∧ (port (op 8 0)).asker 128 = none)
    ∧ (isNodeId ((op 2 0xFFFFFFFF).w 1) = false ∧ bitN ((op 7 5).w 0) 18 = false ∧ (op 7 5).w 2 % 2 ^ 9 < 16)
    ∧ State.reset.fon fTABLE_CFG_sweep_en = false
    ∧ (found (port (op 1 5)) 5 = true ∧ ((port (op 1 6)).nodeLookup 6).1 = none ∧ (port (op 4 0x1FFFF)).asker 128 = none)
    ∧ (port (blk 0 [4 * 2 ^ 28])).asker 0 = some 0
    ∧ (ins' 6 = true ∧ ((port (ins 6 15)).nodeLookup 6).1 = none
      ∧ (port (ins 6 15)).insertWay ((port (ins 6 15)).nodeWays 6 0 8).1 = some (0, nodeOf (List.replicate 32 0#8))
      ∧ (nodeOf (List.replicate 32 0#8)).valid = false)
    ∧ (ins' 5 = true ∧ found (port (ins 5 15)) 5 = true)
    ∧ (route.w 1 < 4096 ∧ route.w 4 / 2 ^ 27 % 8 = 0 ∧ route.w 1 ≠ (port route).device ∧ (port route).nbrCount = 0)
    ∧ ((port (blk 0 [8 * 2 ^ 28, 8])).asker 0 = some 0
      ∧ countDiff 8 0 ≤ countDiff ((port (blk 0 [8 * 2 ^ 28, 8])).fget (fTABLE_TINBOX_wr 0)) 0)
    ∧ (m.dmaOk none 128 0x04600100 16 false = true ∧ m.dmaKey 128 0x04600100 = some 0x04600100
      ∧ m.unlaid 0x04600100 16 = false ∧ m.dieOff 0x04600100 = false ∧ windowOff 0x04600100 = none
      ∧ i.version = 1 ∧ i.kind = 0 ∧ i.length = 0 ∧ i.dst = m.device
      ∧ m.started i.tenant = true ∧ m.fon (fTABLE_TINBOX_valid i.tenant) = true
      ∧ countDiff (m.fget (fTABLE_TINBOX_wr 0)) 0 + 16 ≤ m.inboxSize 0)
    ∧ ((port fwd).fon fTABLE_CFG_sweep_en = true ∧ (up (port fwd)).pkg.power.awake = true
      ∧ (port fwd).relay.sweepSet < 16384) :=
  ⟨by decide +kernel, by decide +kernel, by decide +kernel, by decide +kernel, by decide +kernel, by decide +kernel,
    by decide +kernel, by decide +kernel, by decide +kernel, by decide +kernel, by decide +kernel, by decide +kernel,
    by decide +kernel, by decide +kernel, by decide +kernel, by decide +kernel⟩

theorem witness_NodePorts_holds :
    (∀ n, 1 ≤ n → n ≤ 8 → n ≠ 2 → n ≠ 7 → (port (op n 5)).PortHolds 3 (op n 5) n)
    ∧ (port (ins 6 15)).PortHolds 3 (ins 6 15) 2 ∧ (port fwd).PortHolds 3 fwd 7
    ∧ (port (blk 0 [8 * 2 ^ 28, 8])).PortHolds 3 (blk 0 [8 * 2 ^ 28, 8]) 8
    ∧ (port fwd).Clean 0x04000000 0x400000 := by
  refine ⟨fun n a b _ _ => ?_, portHolds_of (by decide +kernel), portHolds_of (by decide +kernel),
    portHolds_of (by decide +kernel), clean_of _ _ rfl⟩
  rcases n with _ | _ | _ | _ | _ | _ | _ | _ | _ | n <;> first | omega | exact portHolds_of (by decide +kernel)


/-! ## Witnesses: the cipher -/

/-- The key, plaintext and ciphertext of FIPS 197, C.1; RFC 3394, 4.1 has the same key and key data. -/
def key16 : List Byte := beBytes 16 0x000102030405060708090A0B0C0D0E0F
/-- See `key16`. -/
def text16 : List Byte := beBytes 16 0x00112233445566778899AABBCCDDEEFF
/-- The wrapping of RFC 3394, 4.1. -/
def wrapped : List Byte := beBytes 24 0x1FA68B0A8112B447AEF34BD8FB5A7B829D3E862371D2CFE5

theorem test_aesEnc_fips197 : aesEnc key16 text16 = beBytes 16 0x69C4E0D86A7B0430D8CDB78070B4C55A := by decide +kernel

theorem test_aesDec_fips197 : aesDec key16 (beBytes 16 0x69C4E0D86A7B0430D8CDB78070B4C55A) = text16 := by decide +kernel

theorem test_kwUnwrap_rfc3394 : kwUnwrap key16 wrapped = some text16 := by decide +kernel

/-- Packet vector 1 of RFC 3610: key, nonce, associated data, payload, ciphertext and tag. -/
def keyCcm : List Byte := beBytes 16 0xC0C1C2C3C4C5C6C7C8C9CACBCCCDCECF
/-- See `keyCcm`. -/
def nonceCcm : List Byte := beBytes 13 0x00000003020100A0A1A2A3A4A5
/-- See `keyCcm`. -/
def aadCcm : List Byte := beBytes 8 0x0001020304050607
/-- See `keyCcm`. -/
def textCcm : List Byte := beBytes 23 0x08090A0B0C0D0E0F101112131415161718191A1B1C1D1E
/-- See `keyCcm`. -/
def outCcm : List Byte := beBytes 23 0x588C979A61C663D2F066D0C2C0F989806D5F6B61DAC384
/-- See `keyCcm`. -/
def tagCcm : List Byte := beBytes 8 0x17E8D12CFDF926E0

theorem test_ccmDec_rfc3610 : ccmDec keyCcm nonceCcm aadCcm outCcm tagCcm = some textCcm := by decide +kernel

/-- A wrong tag of the same length. -/
theorem test_ccmDec_wrong : ccmDec keyCcm nonceCcm aadCcm outCcm (beBytes 8 0) = none := by
  have h := test_ccmDec_rfc3610
  unfold ccmDec at h ⊢
  dsimp only at h ⊢
  have hl : tagCcm.length = (beBytes 8 0).length := by decide
  have hn : tagCcm ≠ beBytes 8 0 := by decide
  rw [← hl]
  split at h
  · rename_i e
    rw [e, if_neg hn]
  · cases h

/-- A last message of n bytes that the relay unit's port brought, with an op under key slot 2 and its input. -/
def job (op n : Nat) (inl : List Byte × List Byte × List Byte) : Job :=
  { who := .relay, tenant := none, op := op, key := 2, last := true, dataLen := n, inl := inl }

/-- The cipher with one job queued and these key slots loaded; the record range of tenant 0 is 0 to 15. -/
def queued (j : Job) (slots : List (Nat × KeySlot)) : State :=
  let s := with' State.reset [(fTABLE_TQUOTA_rec_count 0, 16)]
  { s with cipher := { s.cipher with queue := [j], slots := slots } }

/-- A slot of tenant 0 that holds a key. -/
def slot (key : List Byte) : KeySlot := { valid := true, key := key }

/-- Job j of the queue is granted a unit in the next round of its op. -/
def grants (s : State) (u : Nat) (j : Job) : Bool :=
  s.freeUnit (decide (10 ≤ j.op ∧ j.op ≤ 12)) == some u && s.nextJob (decide (10 ≤ j.op ∧ j.op ≤ 12)) == some (0, j)

/-- Nothing of the state waits for lines of the flash window, nor a hardware master for an entry of the queue, and job j is
granted unit u in the next round of its op. -/
theorem grants_of {s : State} {op u : Nat} {j : Job} (e : j.op = op)
    (h : (grants s u j && s.stageAsk == s && s.cipher.waiting.isEmpty) = true) : s.Grants op 0 u j := by
  subst e
  simp only [grants, Bool.and_eq_true, beq_iff_eq, List.isEmpty_iff] at h
  exact ⟨h.1.2, h.2, h.1.1.1, h.1.1.2, rfl⟩

/-- The input of these jobs is what they brought, at no change of the state. -/
theorem witness_CipherGrants_input (op n : Nat) (inl : List Byte × List Byte × List Byte) (slots : List (Nat ×
    KeySlot)) :
    (queued (job op n inl) slots).jobInput (job op n inl) = (some (inl.1, inl.2.1, inl.2.2, []),
        queued (job op n inl) slots) := rfl

/-- An ECB job of core 0 whose tenant's fence does not cover its input. -/
def shutJob : Job := { job 1 16 ([], [], []) with who := .core 0 0, tenant := some 4, src := 0x02000000 }

theorem witness_CipherGrants :
    let ready (j : Job) : Prop :=
      (queued j [(2, slot key16)]).Grants j.op 0 0 j ∧ (queued j [(2, slot key16)]).keyAllowed j = true ∧ j.byRec = false
        ∧ ((queued j [(2, slot key16)]).keySlot (j.key % 256)).valid = true ∧ j.ctx = 0
    let gcm := job 7 16 (List.replicate 12 0#8, [], text16)
    let none' := { job 1 16 ([], [], text16) with key := 0 }
    let held := { job 1 16 ([], [], text16) with ctx := 1 }
    let shut := with' (queued shutJob [(2, slot key16)]) [(fTENANT_CIPHER_run_max 4, 1)]
    ready (job 1 16 ([], [], text16)) ∧ ready (job 2 16 ([], [], text16))
    ∧ ready (job 3 16 (text16, [], text16)) ∧ ready { job 4 23 (nonceCcm, aadCcm, textCcm) with tlen := 4 }
    ∧ ready { job 5 23 (nonceCcm, aadCcm, outCcm ++ tagCcm) with tlen := 4 }
    ∧ ready { job 6 16 (List.replicate 12 0#8, [], text16) with tlen := 8 } ∧ ready gcm
    ∧ ready (job 8 16 ([], [], text16)) ∧ ready { job 9 24 ([], [], wrapped) with dst := 3 }
    ∧ ((outCcm ++ tagCcm).take 23 = outCcm ∧ (outCcm ++ tagCcm).drop 23 = tagCcm)
    ∧ gcmTag key16 0 0 16 (gcmJ0 (List.replicate 12 0#8)) 16 ≠ [] ∧ kwUnwrap key16 (List.replicate 8 0#8) = none
    ∧ (shut.Grants 1 0 0 shutJob ∧ (shut.jobInput shutJob).1 = none ∧ (shut.jobInput shutJob).2.cipher.waiting = [])
    ∧ ((queued none' [(2, slot key16)]).Grants 1 0 0 none' ∧ (queued none' [(2, slot key16)]).keyAllowed none' = false)
    ∧ ((queued held [(2, slot key16)]).Grants 1 0 0 held ∧ (queued held [(2, slot key16)]).keyAllowed held = true
      ∧ held.ctx ≠ 0 ∧ held.ctxSeal = false ∧ ((queued held [(2, slot key16)]).keySlot 2).clearCtx = false)
    ∧ (let j := job 1 16 ([], [], text16)
      (queued j []).Grants 1 0 0 j ∧ (queued j []).keyAllowed j = true ∧ j.byRec = false
        ∧ ((queued j []).keySlot (j.key % 256)).valid = false ∧ (queued j []).stageAsk.nextJob false = some (0, j) ∧ j.op ≠ 2) :=
  have r (j : Job) (h : (grants (queued j [(2, slot key16)]) 0 j && (queued j [(2, slot key16)]).stageAsk
      == queued j [(2, slot key16)] && (queued j [(2, slot key16)]).cipher.waiting.isEmpty) = true)
      (h2 : ((queued j [(2, slot key16)]).keyAllowed j = true ∧ j.byRec = false
        ∧ ((queued j [(2, slot key16)]).keySlot (j.key % 256)).valid = true ∧ j.ctx = 0)) := And.intro (grants_of rfl h) h2
  ⟨r _ (by decide +kernel) (by decide +kernel), r _ (by decide +kernel) (by decide +kernel),
    r _ (by decide +kernel) (by decide +kernel), r _ (by decide +kernel) (by decide +kernel),
    r _ (by decide +kernel) (by decide +kernel), r _ (by decide +kernel) (by decide +kernel),
    r _ (by decide +kernel) (by decide +kernel), r _ (by decide +kernel) (by decide +kernel),
    r _ (by decide +kernel) (by decide +kernel), by decide +kernel, by decide +kernel, by decide +kernel,
    ⟨grants_of rfl (by decide +kernel), by decide +kernel⟩, ⟨grants_of rfl (by decide +kernel), by decide +kernel⟩,
    ⟨grants_of rfl (by decide +kernel), by decide +kernel⟩, grants_of rfl (by decide +kernel), by decide +kernel⟩

/-- A tag that is right: what stands behind the data of a message is its tag. -/
theorem witness_CipherGrants_tag (y al n m : Nat) (j0 : List Byte) :
    (text16 ++ gcmTag key16 y al n j0 m).drop 16 = gcmTag key16 y al n j0 m := rfl

theorem witness_CipherRecords :
    let ecc (v f : Bool) (j : Job) : State :=
      let s := with' (queued j []) [(fECC_KEY_CTRL_valid 2, b2n v), (fECC_KEY_CTRL_owner 2, 3)]
      { s with cipher := { s.cipher with failed := f } }
    let open' (s : State) (j : Job) : Bool := s.stageAsk == s && s.cipher.waiting.isEmpty && j.ctx == 0
    let sign := job 12 32 ([], [], takePad 32 [])
    let signs (v f : Bool) : Bool := grants (ecc v f sign) 4 sign && (ecc v f sign).fon (fECC_KEY_CTRL_valid 2) == v
      && (ecc v f sign).cipher.failed == f && open' (ecc v f sign) sign
    let other := with' (queued { sign with tenant := some 4 } []) [(fTENANT_CIPHER_run_max 4, 1)]
    let node (op len : Nat) (slots : List (Nat × KeySlot)) (d : List Byte) : Bool :=
      let j := { job op len ([], [], d) with key := 15 }
      let s := queued j slots
      grants s 0 j && s.keyAllowed j && s.recTenant 15 16 == some 0 && open' s j
    let kek := [(16, slot key16), (32, slot key16)]
    let hash := job 10 3 ([], [], [1#8, 2#8, 3#8])
    let verify := { job 11 32 (takePad 64 [], [], takePad 32 []) with dst := 0x04600200 }
    let far := { job 13 24 ([], [], wrapped) with key := 15, tenant := some 4 }
    let away := with' (queued far kek) [(fTENANT_CIPHER_run_max 4, 1)]
    (grants (queued hash []) 4 hash = true ∧ open' (queued hash []) hash = true)
    ∧ (grants (queued verify []) 4 verify = true ∧ open' (queued verify []) verify = true
      ∧ (queued verify []).dmaRead none verify.core verify.dst 64 = (some (List.replicate 64 0#8), queued verify []))
    ∧ (signs true false = true ∧ signs false false = true ∧ signs true true = true)
    ∧ (grants other 4 { sign with tenant := some 4 } = true ∧ other.fget (fECC_KEY_CTRL_owner 2) ≠ 4)
    ∧ (node 13 24 kek wrapped = true ∧ (queued hash kek).nodeKek 15 = some key16 ∧ wrapped.length = 24
      ∧ (kwUnwrap key16 wrapped).isSome = true ∧ kwUnwrap key16 (List.replicate 24 0#8) = none)
    ∧ (node 13 24 [] wrapped = true ∧ (queued hash []).nodeKek 15 = none)
    ∧ (node 14 16 kek text16 = true ∧ ((queued hash kek).keySlot (32 + 0)).valid = true
      ∧ ((queued hash []).keySlot (32 + 0)).valid = false)
    ∧ (node 14 16 [] text16 = true ∧ ((queued hash []).recTenant 15 16).isSome = true)
    ∧ node 15 0 [] [] = true
    ∧ (grants (with' (queued { shutJob with op := 10 } []) [(fTENANT_CIPHER_run_max 4, 1)]) 4 { shutJob with op := 10 } = true
      ∧ ((queued { shutJob with op := 10 } []).jobInput { shutJob with op := 10 }).1 = none)
    ∧ (grants away 0 far = true ∧ away.keyAllowed far = false ∧ open' away far = true)
    ∧ (∀ a b, State.reset.stageAsk.nextJob true = some (a, b) → b.op ≠ 10) :=
  ⟨by decide +kernel, by decide +kernel, by decide +kernel, by decide +kernel, by decide +kernel, by decide +kernel,
    by decide +kernel, by decide +kernel, by decide +kernel, by decide +kernel, by decide +kernel,
    fun _ _ h => by cases h⟩

/-- 4096 raw bits that alternate. -/
def rawGood : List Bool := (List.range 4096).map (fun i => i % 2 == 0)

/-- 4096 raw bits that do not change. -/
def rawStuck : List Bool := (List.range 4096).map (fun _ => true)

theorem witness_CipherKeys :
    let j := { job 10 0 ([], [], []) with who := .core 128 0 }
    let r : Running :=
      { unit := 4, job := j, slots := [], status := 0, writes := [(0x04600200, [1#8, 2#8])], result := [] }
    let run (x : Running) : State := { State.reset with cipher := { State.reset.cipher with running := [x] } }
    let runs (x : Running) : Bool :=
      (run x).cipher.running.find? (fun y => y.unit == (4#3 : BitVec 3).toNat && decide (y.job.op < 16)) == some x
        && (run x).cipher.queue.isEmpty
    let clear : State := { run r with upkeep := { (run r).upkeep with clearing := some (0x04600000, 0x04610000) } }
    let flash : Nat := 0x08000000
    let op (n : Nat) : Running := { r with job := { j with op := n, dst := 5 }, writes := [], key := List.replicate 24 0#8 }
    let relay : Running := { op 5 with job := { j with op := 5, who := .relay } }
    let bc : TxCmd := { cmd with who := .beacon }
    let sealed (st : Nat) : Running := { op 4 with status := st, job := { j with op := 4, who := .unit (.seal 0 [] bc) } }
    let busy (o : EccOp) : State := { with' State.reset [(fECC_KEY_CTRL_busy 3, 1), (fECC_KEY_CTRL_valid 3, 1)] with
      cipher := { State.reset.cipher with eccOps := [(3, o)] } }
    let gen : State := { busy (.keygen 5) with cipher := { (busy (.keygen 5)).cipher with
      running := [{ r with job := { j with op := 16, key := 3, who := .unit .keygen } }] } }
    let fifo : State := { with' State.reset [(fTRNG_STATUS_ok, 1)] with
      cipher := { State.reset.cipher with fifo := [5#32] } }
    let failed : State :=
      { State.reset with cipher := { State.reset.cipher with failed := true, retestAt := 7 }, mono := 7 }
    let fails (b : List Bool) : Bool := (({} : RawTests).bits b).2.1 || (({} : RawTests).bits b).2.2
    State.reset.cipher.running.find? (fun y => y.unit == 4 && decide (y.job.op < 16)) = none
    ∧ (runs { r with erased := true } = true ∧ runs { r with status := 6 } = true ∧ runs { r with writes := [] } = true
      ∧ r.job.who = .core 128 0)
    ∧ (runs r = true ∧ (run r).dmaWaits 128 (0x04600200, 2) = false ∧ (run r).dieOff 0x04600200 = false
      ∧ (run r).dmaOk none 128 0x04600200 2 true = true ∧ (run r).dmaKey 128 0x04600200 = some 0x04600200
      ∧ (run r).noStore 0x04600200 2 = false)
    ∧ ((run r).dmaOk none 128 flash 2 true = false ∧ (run r).dmaWaits 128 (flash, 2) = false ∧ r.job.tenant = none)
    ∧ clear.dmaWaits 128 (0x04600200, 2) = true
    ∧ (runs (op 9) = true ∧ 1 ≤ (op 9).job.dst % 256 ∧ (op 9).writes = [])
    ∧ (runs (op 13) = true ∧ runs (op 14) = true ∧ runs (op 15) = true ∧ (op 13).key.length = 24)
    ∧ (runs relay = true ∧ relay.job.who = .relay)
    ∧ (runs (sealed 1) = true ∧ runs (sealed 0) = true ∧ bc.who = .beacon ∧ (run (sealed 0)).hasChain 0 = true
      ∧ ((run (sealed 0)).chain 0).queue.length < 64)
    ∧ ((run { r with erased := true }).cipher.running.find? (fun y => y.unit == 4 && y.erased) = some { r with erased
      := true } ∧ (run r).cipher.running.find? (fun y => y.unit == 4 && y.erased) = none)
    ∧ ((63#28 : BitVec 28).toNat % 256 < 64 ∧ 64 ≤ (64#28 : BitVec 28).toNat % 256 ∧ (0x100#28 : BitVec 28).toNat % 256 = 0)
    ∧ (State.reset.fon (fECC_KEY_CTRL_busy 3) = false ∧ (busy .save).fon (fECC_KEY_CTRL_busy 3) = true)
    ∧ State.reset.cipher.eccOps.find? (fun x => x.1 == 3) = none
    ∧ ((busy (.keygen 5)).cipher.eccOps.find? (fun x => x.1 == 3) = some (3, .keygen 5)
      ∧ (busy (.keygen 5)).eccWaits 3 (.keygen 5) = true)
    ∧ (gen.eccWaits 3 (.keygen 5) = false ∧ gen.cipher.failed = false ∧ (busy .zeroize).eccWaits 3 .zeroize = false)
    ∧ ((busy .save).cipher.eccOps.find? (fun x => x.1 == 3) = some (3, .save)
      ∧ (busy .save).fon (fECC_KEY_CTRL_valid 3) = true)
    ∧ (State.reset.fon fTRNG_STATUS_startup_done = false ∧ State.reset.cipher.failed = false
      ∧ rawGood.length = 4096 ∧ fails rawGood = false ∧ rawStuck.length = 4096 ∧ fails rawStuck = true)
    ∧ (fifo.fon fTRNG_STATUS_ok = true ∧ fifo.cipher.fifo.length ≤ 62 ∧ (rawGood.take 256).length = 256
      ∧ fails (rawGood.take 256) = false ∧ fails (rawStuck.take 256) = true ∧ fifo.cipher.raw = {})
    ∧ State.reset.fon fTRNG_STATUS_ok = false ∧ fifo.cipher.fifo = 5#32 :: [] ∧ State.reset.cipher.fifo = []
    ∧ (failed.cipher.failed = true ∧ failed.cipher.retestAt ≤ failed.mono) :=
  ⟨by decide +kernel, by decide +kernel, by decide +kernel, by decide +kernel, by decide +kernel, by decide +kernel,
    by decide +kernel, by decide +kernel, by decide +kernel, by decide +kernel, by decide +kernel, by decide +kernel,
    by decide +kernel, by decide +kernel, by decide +kernel, by decide +kernel, by decide +kernel, by decide +kernel,
    by decide +kernel, by decide +kernel, by decide +kernel, by decide +kernel⟩

/-! ## Witnesses: Girth and power -/

/-- A package that runs, with fields of its registers set. -/
def pk (fs : List (Fld × Nat)) (p : PkgSt → PkgSt) : State :=
  let s := with' State.reset fs
  { s with pkg := p { s.pkg with stage := .run, resetLow := false, supplies := true } }

theorem witness_GirthMeter :
    let s := pk [(fGIRTH_PACK_CFG_shunt_uohm, 500)] id
    let latched : State := { s with girth := { s.girth with
      latch := tabSet none [] (latchKey (.core .sup) 31) (some 7), estLo := some 0xFFFFFFFF } }
    let dbg := with' (pk [(fSYS_DBG_attached, 1), (fSYS_DBG_scope, 2)] id) []
    State.reset.meterOn = false ∧ (s.meterOn = true ∧ 1 ≤ (5#3 : BitVec 3).toNat ∧ (5#3 : BitVec 3).toNat ≤ 5)
    ∧ (0 < signedN 32 (1#32 : Word).toNat ∧ signedN 32 (0xFFFFFFFF#32 : Word).toNat < 0)
    ∧ (s.pkg.mains ≠ true ∧ s.pkg.mains = false)
    ∧ (State.reset.regReach (.core .sup) (counterAddr (.core .sup) 10) = false
      ∧ State.reset.regReach (.core .sup) (counterAddr (.core .sup) 10 + 4) = false
      ∧ State.reset.regReach (.core .sup) aGIRTH_NACC_w0 = false)
    ∧ (counterIs 10 = true ∧ s.regOpen (.core .sup) (counterAddr (.core .sup) 10 + 0) false = true ∧ counterIs 31 = true
      ∧ s.regOpen (.core .sup) (counterAddr (.core .sup) 31 + 4) false = true
      ∧ tabGet none s.girth.latch (latchKey (.core .sup) 31) = none
      ∧ tabGet none latched.girth.latch (latchKey (.core .sup) 31) = some 7)
    ∧ (s.regOpen (.core .sup) (aGIRTH_LEDGER 8 1) true = true ∧ latched.girth.estLo = some 0xFFFFFFFF)
    ∧ (s.regOpen (.core .sup) aGIRTH_CTRL true = true
      ∧ (0x04000000#32 : Word).toNat / 2 ^ 24 % 4 < (0x04000000#32 : Word).toNat / 2 ^ 26 % 4
      ∧ (0x05000000#32 : Word).toNat / 2 ^ 26 % 4 ≤ (0x05000000#32 : Word).toNat / 2 ^ 24 % 4)
    ∧ s.regReach (.core (.eng 0)) aGIRTH_CTRL = true := by decide +kernel

theorem witness_NodeAccounts :
    let s := pk [(fTABLE_TQUOTA_rec_count 15, 1), (fTABLE_TQUOTA_rec_base 15, 2 ^ 17 - 1), (fGIRTH_NACC_arg, 5)] id
    let n := 2 ^ 17 - 1
    let put (a : Account) : State := s.setBytes (acctAddr n) (acctBytes a)
    let enforced := put { acctOf [] with enforce := true, allowance := 4 }
    let full := put { acctOf [] with spent := 0xFFFFFFFF }
    let here (s : State) : Bool := s.regOpen (.core .sup) aGIRTH_NACC_w0 true && (s.recTenant n 16).isSome
    let a (s : State) : Account := acctOf (s.bytes (acctAddr n) 16)
    here s = true ∧ ((s.recTenant 0 16).isNone = true ∧ s.regOpen (.core .sup) aGIRTH_NACC_w0 true = true)
    ∧ (here enforced = true ∧ (a enforced).day = enforced.nodeDay % 65536 ∧ (a enforced).enforce = true
      ∧ (a enforced).allowance < (a enforced).spent + enforced.fget fGIRTH_NACC_arg)
    ∧ ((a s).enforce = false ∧ (a s).spent + s.fget fGIRTH_NACC_arg < 2 ^ 32)
    ∧ (here full = true ∧ (a full).day = full.nodeDay % 65536 ∧ (a full).enforce = false
      ∧ 2 ^ 32 ≤ (a full).spent + full.fget fGIRTH_NACC_arg)
    ∧ State.reset.regReach (.core .sup) aGIRTH_NACC_w0 = false := by decide +kernel

theorem witness_NodeAccounts_clean : State.reset.Clean (acctAddr (2 ^ 17 - 1)) 16 := clean_of _ _ rfl

theorem uncut_of {s : State} (h : (!s.flashWrites && s.cipher.running.isEmpty && s.cipher.eccOps.isEmpty
    && s.pkg.stage != .settings) = true) : s.Uncut := by
  simp only [Bool.and_eq_true, Bool.not_eq_true', List.isEmpty_iff, bne_iff_ne, ne_eq] at h
  exact ⟨h.1.1.1, fun r hr => by simp [h.1.1.2] at hr, fun x hx => by simp [h.1.2] at hx, h.2⟩

theorem witness_PowerEntries :
    let quiet (s : State) : Bool := s.airSilent && !s.flashWrites
    let run := pk [] id
    let onAir := run.modChain 0 (fun h => { h with air := [{ cmd := cmd }] })
    let busy := (pk [(fGIRTH_STATUS_changing, 1)] id).modPath 1 (fun x => { x with cycling := some 1 })
    let into (p : PowerSt) : State := pk [] (fun x => { x with power := p })
    let woken := pk [] (fun x => { x with power := .toSleep, fired := 2 })
    State.reset.regReach (.core .sup) aPWR_CTRL = false ∧ (run.pkg.power ≠ .toSleep ∧ run.pkg.power ≠ .toDeep
      ∧ run.pkg.power ≠ .armed)
    ∧ (woken.pkg.power = .toSleep ∧ quiet woken = true ∧ woken.pkg.fired ≠ 0)
    ∧ (run.regOpen (.core .sup) aPWR_CTRL true = true ∧ run.pkg.power = .run ∧ run.pkg.stage = .run
      ∧ run.fon fGIRTH_STATUS_changing = false ∧ quiet run = true)
    ∧ (onAir.airSilent = false ∧ (onAir.chain 0).air ≠ [] ∧ onAir.fon fGIRTH_STATUS_changing = false)
    ∧ (busy.pkg.power = .run ∧ busy.fon fGIRTH_STATUS_changing = true ∧ busy.changeOver = false
      ∧ busy.regOpen (.core .sup) aPWR_CTRL true = true)
    ∧ ((into .toSleep).pkg.power = .toSleep ∧ quiet (into .toSleep) = true ∧ (into .toSleep).pkg.fired = 0
      ∧ (into .toSleep).flash.act = none ∧ (into .toSleep).flash.susp = none ∧ ((into .toSleep).chain 0).start = none)
    ∧ ((into .toDeep).pkg.power = .toDeep ∧ quiet (into .toDeep) = true ∧ (into .toDeep).pkg.fired = 0
      ∧ (into .toDeep).flash.act = none ∧ (into .toDeep).flash.susp = none)
    ∧ ((into .armed).pkg.power = .armed ∧ (into .armed).flash.act = none) :=
  ⟨by decide +kernel, by decide +kernel, by decide +kernel, by decide +kernel, by decide +kernel, by decide +kernel,
    by decide +kernel, by decide +kernel, by decide +kernel⟩

theorem witness_PowerEntries_uncut : (pk [] (fun x => { x with power := .toDeep })).Uncut
    ∧ (pk [] (fun x => { x with power := .armed })).Uncut := ⟨uncut_of (by decide +kernel), uncut_of (by decide +kernel)⟩

theorem witness_PowerWakes :
    let deep (f : PkgSt → PkgSt) : State := pk [(fSTIRRUP_CFG_en, 1), (fPWR_WAKE_AT_alarm_s, 9)]
      (fun x => f { x with power := .deepSleep, stage := .hold, wakeEn := 0xFF, slept := 3, causes := 0 })
    let is (s : State) : Bool := [1, 2, 3, 4].all (fun k => s.wakeEnabled k) && s.pkg.fired == 0 && s.pkg.stage == .hold
      && s.pkg.supplies && !s.pkg.resetLow && !s.pkg.hot && s.pkg.causes == 0 && s.pkg.power == .deepSleep
    let alarm (s : State) : State := { s with rtc := { s.rtc with sec := 9, byTick := true } }
    let rings (s : State) : Bool := (alarm s).rtc.byTick && (alarm s).rtcLow == (alarm s).fget fPWR_WAKE_AT_alarm_s
    let call (c : Nat) : List Byte := leBytes 2 0xC355 ++ leBytes 3 0xFE0001 ++ leBytes 1 c
    let id := (leBytes 3 0xFE0001 : List Byte)
    let all := (leBytes 3 0xFFFFFF : List Byte)
    let bounce (s : State) : State := { s with girth := { s.girth with debounce := true } }
    let run := pk [(fGIRTH_STATUS_mains_ok, 1)] (fun x => { x with window := true, power := .run })
    let low := pk [] (fun x => { x with window := true })
    let better := pk [] (fun x => { x with window := true, winCloses := 1, winBetter := true })
    let sleep := pk [(fPWR_CTRL_wake_en, 2)] (fun x => { x with power := .sleep })
    let wait (p : PowerSt) : State := pk [(fPWR_WAKE_AT_alarm_s, 9), (fPWR_CTRL_wake_en, 3)] (fun x => { x with power := p, wakeEn := 3 })
    let down := pk [] (fun x => { x with die1 := .down })
    let heard := deep (fun x => { x with callId := 0xFE0001 })
    let every := with' heard [(fSTIRRUP_CFG_all_en, 1)]
    (State.reset.rtc.byTick = false ∧ State.reset.wakeCounts 2 = false ∧ State.reset.girth.debounce = false
      ∧ State.reset.stirrupOn = false ∧ State.reset.pkg.window = false
      ∧ State.reset.regReach (.core .sup) aGIRTH_STATUS = false)
    ∧ (is (deep (fun x => x)) = true ∧ rings (deep (fun x => x)) = true)
    ∧ (is (bounce (deep (fun x => { x with mains := true }))) = true ∧ (deep (fun x => x)).pkg.mainsDeb = false)
    ∧ (is heard = true ∧ heard.stirrupOn = true ∧ (call 0).length = 6 ∧ leNat ((call 0).take 2) = 0xC355
      ∧ leNat ((call (id.foldl crc8Byte 0)).drop 5) = id.foldl crc8Byte 0
      ∧ leNat ((call (id.foldl crc8Byte 0 + 1)).drop 5) ≠ id.foldl crc8Byte 0
      ∧ leNat id = heard.pkg.callId)
    ∧ (is every = true ∧ leNat all = 0xFFFFFF ∧ every.fon fSTIRRUP_CFG_all_en = true
      ∧ leNat ((leBytes 2 0xC355 ++ all ++ leBytes 1 (all.foldl crc8Byte 0)).drop 5) = all.foldl crc8Byte 0)
    ∧ (leNat id ≠ (deep (fun x => { x with callId := 0xFE0002 })).stirrupId ∧ leNat id ≠ 0xFFFFFF)
    ∧ (sleep.pkg.power = .sleep ∧ sleep.wakeEnabled 2 = true ∧ sleep.pkg.fired = 0 ∧ sleep.pkg.reqWait = 0)
    ∧ (∀ p ∈ [PowerSt.toSleep, .toDeep, .toOff, .armed, .off], (wait p).wakeCounts 2 = true ∧ (wait p).wakeCounts 1 = true
      ∧ rings (wait p) = true)
    ∧ ((wait .off).pkg.power = .off ∧ (wait .off).wakeEnabled 1 = true)
    ∧ ((bounce run).pkg.power = .run ∧ (bounce run).girth.debounce = true)
    ∧ (run.pkg.window = true ∧ run.fon fGIRTH_STATUS_mains_ok = true)
    ∧ (better.pkg.window = true ∧ 0 < better.pkg.winCloses ∧ better.pkg.winBetter = true)
    ∧ (low.pkg.window = true ∧ low.fon fGIRTH_STATUS_mains_ok = false ∧ low.pkg.winCloses = 0 ∧ low.pkg.power = .run
      ∧ low.pkg.stage = .run ∧ low.fon fGIRTH_STATUS_changing = false)
    ∧ (run.regOpen (.core .sup) aGIRTH_STATUS true = true ∧ run.die1Up = true ∧ run.pkg.reqWait = 0 ∧ run.pkg.power = .run)
    ∧ (down.regOpen (.core .sup) aGIRTH_STATUS true = true ∧ down.die1Up = false) :=
  ⟨by decide +kernel, by decide +kernel, by decide +kernel, by decide +kernel, by decide +kernel, by decide +kernel,
    by decide +kernel, by decide +kernel, by decide +kernel, by decide +kernel, by decide +kernel, by decide +kernel,
    by decide +kernel, by decide +kernel, by decide +kernel⟩

/-! ## Witnesses: upkeep, Latigo, flash, clocks -/

theorem witness_UpkeepAndLatigo :
    let up' (f : UpkeepSt → UpkeepSt) : State := { State.reset with upkeep := f State.reset.upkeep }
    let x : LogItem :=
      { code := 0x8000, tenant := 0, engine := 0, seq := 0, frame := 0, rtc := 0, d0 := 0, d1 := 0, d2 := 0, d3 := 0 }
    let log (l : List LogItem) : State := { State.reset with log := { State.reset.log with buf := l } }
    let fenced := with' State.reset [(fTENANT_RFENCE_valid 0 0, 1), (fTENANT_RFENCE_first 0 0, 1),
        (fTENANT_RFENCE_last 0 0, 2)]
    let cleared := with' State.reset [(fMEM_CLEAR_busy, 1)]
    let burn (g : Nat) (fl : List (Nat × BitVec 72)) : State := { with' (pk [] (fun q => { q with die1 := .down })) [(fMEM_BURN_CFG_en, 1)] with
      upkeep := { State.reset.upkeep with burnGroup := g, flips := fl } }
    let place (g : Nat) : Nat × Nat := burnPlace 0 9 g
    let burns (s : State) : Bool := s.fon fMEM_BURN_CFG_en && !s.pkg.power.asleep && s.burnFree
    let reach (s : State) : Bool := burns s && s.burnReach (place s.upkeep.burnGroup).1 (place s.upkeep.burnGroup).2
    let most (s : State) (n : Nat) : Bool := (List.range 64).all (fun w => decide
      (popc (s.flipAt (burnKey (place s.upkeep.burnGroup).1 (place s.upkeep.burnGroup).2 + 8 * w)) ≤ n))
    let link (st : Nat) : State :=
      let s := with' State.reset [(fLATIGO_STATUS_state 4, st)]
      { s with pkg := { s.pkg with links := [(4, [(7, true), (8, false)])] } }
    ((up' (fun q => { q with wback := [8, 0] })).upkeep.wback = 8 :: [0] ∧ State.reset.upkeep.wback = [])
    ∧ (bitN (0#32 : Word).toNat 31 = false ∧ cleared.fon fMEM_CLEAR_busy = true) ∧ State.reset.upkeep.clearing = none
    ∧ (bitN (0x80000000#32 : Word).toNat 31 = true ∧ State.reset.fon fMEM_CLEAR_busy = false
      ∧ bitN (0x80000000#32 : Word).toNat 28 = false
      ∧ (0x80000000#32 : Word).toNat / 2 ^ 12 % 2 ^ 7 = (0x80000000#32 : Word).toNat % 2 ^ 7
      ∧ State.reset.windowMeets false 0 0 0 = false)
    ∧ (fenced.windowMeets false 0 2 2 = true ∧ bitN (0x9005F05F#32 : Word).toNat 28 = true
      ∧ (0x9005F05F#32 : Word).toNat % 2 ^ 7 < 96 ∧ (0x80000001#32 : Word).toNat / 2 ^ 12 % 2 ^ 7 < 1)
    ∧ (up' (fun q => { q with clearing := some (0x02000000, 0x02010000) })).upkeep.clearing = some (0x02000000,
      0x02010000)
    ∧ ((with' State.reset [(fMEM_BURN_CFG_en, 0)]).fon fMEM_BURN_CFG_en = false
      ∧ (pk [] (fun q => { q with power := .sleep })).pkg.power.asleep = true)
    ∧ (burns (burn 8192 []) = true ∧ reach (burn 8192 []) = false)
    ∧ (reach (burn 131583 [(0x05FFFFF8, 1#72)]) = true ∧ most (burn 131583 [(0x05FFFFF8, 1#72)]) 1 = true
      ∧ popc ((burn 131583 [(0x05FFFFF8, 1#72)]).flipAt 0x05FFFFF8) = 1)
    ∧ (reach (burn 131583 [(0x05FFFFF8, 3#72)]) = true ∧ most (burn 131583 [(0x05FFFFF8, 3#72)]) 2 = true
      ∧ popc ((burn 131583 [(0x05FFFFF8, 3#72)]).flipAt 0x05FFFFF8) = 2)
    ∧ ((log []).log.buf.length < 16 ∧ 16 ≤ (log (List.replicate 16 x)).log.buf.length ∧ (log []).log.buf = []
      ∧ 0x8000 ≤ (0x80000000#32 : Word).toNat / 2 ^ 16 ∧ (0x7FFFFFFF#32 : Word).toNat / 2 ^ 16 < 0x8000)
    ∧ ((log [x]).log.buf = x :: [] ∧ x.step = 0 ∧ ({ x with step := 1 } : LogItem).step = 1
      ∧ 2 ≤ ({ x with step := 2 } : LogItem).step)
    ∧ (((link 2).linkTxns 4)[(1#7 : BitVec 7).toNat]? = some (8, false) ∧ ((link 2).linkTxns 4)[(2#7 : BitVec 7).toNat]? = none
      ∧ (link 2).hasLink 4 = true ∧ (link 2).linkState 4 = 2 ∧ (link 2).hasLink 7 = false
      ∧ (6#3 : BitVec 3) ≠ 7#3 ∧ (link 3).linkState 4 = 3) := by decide +kernel

/-- A flash controller in a state; the supervisor runs in SERVICE. -/
def flash (fs : List (Fld × Nat)) (f : FlashSt → FlashSt) : State :=
  let s := linked (pk ([(fXSPI_CTRL_mode, 2), (fXSPI_STATUS_dev_ok, 1), (fXSPI_DEV0_size_log2, 25)] ++ fs) id)
  { s with flash := f s.flash }

theorem witness_FlashStarts :
    let c (op : Nat) (s : State) : FlashCmd := { op := op, tag := 5, addr := s.fget fXSPI_CMD_addr
                                                 buf := s.fget fXSPI_CMD_buf, len := s.fget fXSPI_CMD_length,
                                                     start := s.mono }
    let prog := flash [(fXSPI_CMD_addr, 0x01FFFF80), (fXSPI_CMD_buf, 0x04600000), (fXSPI_CMD_length, 128)] id
    let none' := flash [] id
    let erase := flash [(fXSPI_CMD_addr, 0x01FF0000)] id
    let opened (s : State) : Bool := s.regOpen (.core .sup) aXSPI_CMD_w0 true
    let run (op : Nat) : State := flash [] (fun f => { f with cmd := some (c op none') })
    let nest := flash [(fXSPI_CTRL_mode, 0)] (fun f => { f with cmd := some (c 3 none'), susp := some 0 })
    State.reset.regReach (.core .sup) aXSPI_CMD_w0 = false ∧ none'.regReach (.core (.eng 0)) aXSPI_CMD_w0 = true
    ∧ (opened prog = true ∧ prog.flash.cmd = none)
    ∧ (opened none' = true ∧ none'.flash.cmd = none ∧ none'.flashRefusal (c 6 none') = none
      ∧ (prog.flashRefusal (c 6 prog)).isSome = true)
    ∧ (opened nest = true ∧ nest.fget fXSPI_CTRL_mode ≠ 2 ∧ nest.flash.cmd = some (c 3 none') ∧ (c 3 none').op = 3
      ∧ nest.flash.outer = none ∧ nest.flash.known = none ∧ nest.flash.susp.isSome = true)
    ∧ (opened none' = true ∧ (none'.flashRefusal (c 2 none')).isSome = true ∧ (prog.flashRefusal (c 3 prog)).isSome = true)
    ∧ prog.flashRefusal (c 2 prog) = none
    ∧ (opened erase = true ∧ erase.flashRefusal (c 3 erase) = none ∧ (c 3 erase).addr < 2 ^ 28)
    ∧ (opened (run 3) = true ∧ (run 3).flash.cmd = some (c 3 none') ∧ (run 3).fget fXSPI_CTRL_mode = 2) := by decide +kernel

theorem witness_FlashStarts_clean (k : Nat) : (flash [(fXSPI_CMD_addr, 0x01FF0000)] id).Clean k 4 := clean_of _ _ rfl

/-- A flash command. -/
def fcmd (op addr len : Nat) : FlashCmd := { op := op, addr := addr, buf := 0x04600000, len := len, tag := 0 }

/-- The flash runs a command of that kind and does `act` at the moment. -/
def fRun (c : FlashCmd) (act : Option FlashAct) : State := flash [] (fun f => { f with cmd := some c, act := act })

/-- The flash reads for its command. -/
def reading (s : State) (op : Nat) : Bool := s.flash.cmd.any (fun c => c.op == op) && s.flash.known.isNone
  && s.flash.act.isNone && s.flash.susp.isNone

/-- The state with a change of its flash. -/
def flashWith (s : State) (f : FlashSt → FlashSt) : State := { s with flash := f s.flash }

theorem witness_FlashEnds :
    let known := flash [] (fun f => { f with cmd := some (fcmd 1 0 0), known := some (5, 0, 0) })
    let r1 := fRun (fcmd 1 0 16) none
    let wiping : State := { r1 with upkeep := { r1.upkeep with clearing := some (0x04600000, 0x04610000) } }
    let head := fRun (fcmd 5 0 0) none
    let headWaits : State := { head with upkeep := { head.upkeep with clearing := some (0x04600000, 0x04610000) } }
    let blank := fRun (fcmd 4 0 2) none
    let dirty := blank.setByte (flashKey 1) 0#8
    let prog := fRun (fcmd 2 0 2) none
    let progDirty := prog.setByte (flashKey 1) 0#8
    let all (s : State) : Bool := (List.range 2).all (fun i => s.byte (flashKey i) == 0xFF#8) && s.flash.badLines == []
    (known.flash.cmd = some (fcmd 1 0 0) ∧ known.flash.known = some (5, 0, 0) ∧ State.reset.flash.cmd = none)
    ∧ (reading r1 1 = true ∧ r1.dieOff 0x04600000 = false ∧ r1.dmaKey 128 0x04600000 = some 0x04600000
      ∧ r1.clearMeets 0x04600000 16 = false ∧ r1.noStore 0x04600000 16 = false)
    ∧ (reading wiping 1 = true ∧ wiping.clearMeets 0x04600000 16 = true)
    ∧ ((fRun (fcmd 2 0 2) (some (.program 0))).flash.act.isSome = true)
    ∧ (reading headWaits 5 = true ∧ headWaits.dmaKey 128 0x04600000 = some 0x04600000
      ∧ headWaits.clearMeets 0x04600000 256 = true)
    ∧ (reading blank 4 = true ∧ all blank = true)
    ∧ (reading dirty 4 = true ∧ dirty.byte (flashKey 1) ≠ 0xFF#8 ∧ dirty.byte (flashKey 0) = 0xFF#8)
    ∧ (reading (flashWith prog (fun f => { f with checked := true })) 2 = true)
    ∧ (reading progDirty 2 = true ∧ progDirty.flash.checked = false ∧ progDirty.byte (flashKey 1) ≠ 0xFF#8
      ∧ progDirty.byte (flashKey 0) = 0xFF#8)
    ∧ (reading prog 2 = true ∧ all prog = true ∧ prog.flash.checked = false ∧ prog.flash.stop = false
      ∧ prog.flash.miss = [] ∧ prog.flash.page < 2 ^ 32)
    ∧ (let w := flashWith prog (fun f => { f with miss := [1] })
      reading w 2 = true ∧ all w = true ∧ w.flash.checked = false ∧ w.flash.stop = false ∧ w.flash.miss ≠ [])
    ∧ (let w := flashWith prog (fun f => { f with stop := true })
      reading w 2 = true ∧ all w = true ∧ w.flash.checked = false ∧ w.flash.stop = true ∧ (fcmd 2 0 2).addr < 2 ^ 32)
    ∧ (reading head 5 = true ∧ head.clearMeets 0x04600000 256 = false ∧ head.dmaKey 128 0x04600000 = some 0x04600000)
    ∧ (reading (fRun (fcmd 6 0 0) none) 6 = true ∧ (fRun (fcmd 6 0 0) none).imageGranted = false)
    ∧ (let j : Job := { who := .unit .image, tenant := none, op := 17, prio := 7 }
      let s := fRun (fcmd 6 0 0) none
      let asked : State := { s with cipher := { s.cipher with running :=
        [{ unit := 4, job := j, slots := [], status := 0, writes := [], result := [] }] } }
      reading asked 6 = true ∧ asked.imageGranted = true ∧ asked.cipher.queue = []) := by decide +kernel

theorem witness_FlashEnds_erase :
    let c := fcmd 3 0x0FFF0000 0
    let s := fRun c (some (.erase 0x0FFF0000))
    let once := with' s [(fXSPI_CTRL_erase_retry, 1)]
    let gone := with' s [(fXSPI_CTRL_erase_retry, 0)]
    (s.flash.cmd = some c ∧ c.op = 3 ∧ s.flash.known = none ∧ s.flash.act = some (.erase 0x0FFF0000)
      ∧ (0x0FFF0000 : Nat) < 2 ^ 28)
    ∧ (once.flash.cmd = some c ∧ once.flash.act = some (.erase 0x0FFF0000)
      ∧ once.flash.tries < once.fget fXSPI_CTRL_erase_retry
      ∧ once.retryFits c (once.fget fXSPI_DEV1_terase_ms * 1000) = true)
    ∧ (gone.flash.cmd = some c ∧ gone.flash.act = some (.erase 0x0FFF0000)
      ∧ gone.fget fXSPI_CTRL_erase_retry ≤ gone.flash.tries)
    ∧ ((fRun c none).flash.cmd = some c ∧ (fRun c none).flash.act = none) := by decide +kernel

theorem witness_FlashEnds_program :
    let c := fcmd 2 0x80 128
    let long := fcmd 2 0x80 129
    let programs (s : State) : Bool := s.flash.cmd.isSome && s.flash.act == some (.program 0x80) && s.pkg.power == .run
      && s.pkg.reqWait == 0
    let page := fRun c (some (.program 0x80))
    let more := fRun long (some (.program 0x80))
    let once := with' page [(fXSPI_CTRL_prog_retry, 1)]
    let gone := with' page [(fXSPI_CTRL_prog_retry, 0)]
    let f (s : State) (g : FlashSt → FlashSt) : State := flashWith s g
    let starts := f (fRun c none) (fun x => { x with miss := [3], checked := true })
    (State.reset.flash.act = none ∧ pageEnd 0x80 (0x80 + 128) = 0x80 + 128 ∧ pageEnd 0x80 (0x80 + 129) = 0x100
      ∧ (pk [] id).fon fGIRTH_STATUS_changing = false ∧ (pk [] id).pkg.power = .run)
    ∧ (programs once = true ∧ once.flash.tries < once.fget fXSPI_CTRL_prog_retry
      ∧ once.retryFits c (once.fget fXSPI_DEV1_tpp_us) = true)
    ∧ (programs gone = true ∧ gone.fget fXSPI_CTRL_prog_retry ≤ gone.flash.tries)
    ∧ (programs page = true ∧ page.dmaKey 128 (0x04600000 + (0x80 - 0x80)) = some 0x04600000
      ∧ page.clearMeets 0x04600000 128 = false)
    ∧ (programs (f more (fun x => { x with stop := true })) = true ∧ (0x100 : Nat) ≠ 0x80 + 129)
    ∧ ((f more (fun x => { x with miss := [1] })).flash.miss ≠ [] ∧ more.flash.checked = false ∧ more.flash.stop = false)
    ∧ (let w := f more (fun x => { x with checked := true })
      programs w = true ∧ w.flash.checked = true ∧ w.flash.miss = [] ∧ w.flash.stop = false)
    ∧ (starts.flash.miss = 3 :: [] ∧ starts.flash.act = none ∧ starts.flash.checked = true ∧ starts.flash.stop = false
      ∧ ([] : List Nat).filter (fun x => x != 3) = [] ∧ starts.flash.page < 2 ^ 32) := by decide +kernel

theorem witness_FlashEnds_lines :
    let miss (l : List Nat) : State := flash [] (fun f => { f with miss := l })
    let erase := flash [] (fun f => { f with act := some (.erase 0x10000), miss := [5] })
    let calm := flash [] (fun f => { f with act := some (.erase 0x10000) })
    let idle := flash [] (fun f => { f with susp := some 0x10000 })
    let held := flash [] (fun f => { f with susp := some 0x10000, miss := [0x10000 / lineBytes] })
    let again (n : Nat) : State := flash [] (fun f => { f with cmd := some (fcmd 4 0 2), dqsLine := 0, dqs := n })
    let lost := flash [] (fun f => { f with miss := [0], dqs := 3, dqsLine := 0 })
    (State.reset.flash.miss = [] ∧ (miss [3, 3]).flash.miss = 3 :: [3] ∧ (miss [3, 3]).flash.act = none
      ∧ (miss [3, 3]).flash.cmd = none ∧ (miss [3, 3]).flashHeld (3 * lineBytes) = false)
    ∧ (held.flash.miss = 0x10000 / lineBytes :: [] ∧ held.flash.act = none ∧ held.flash.cmd = none
      ∧ held.flashHeld (0x10000 / lineBytes * lineBytes) = true)
    ∧ (calm.flash.act = some (.erase 0x10000) ∧ calm.flashWanted = false ∧ State.reset.flash.act = none
      ∧ State.reset.flash.susp = none)
    ∧ (erase.flash.act = some (.erase 0x10000) ∧ erase.flashWanted = true)
    ∧ (idle.flash.act = none ∧ idle.flash.susp = some 0x10000 ∧ idle.flashWanted = false)
    ∧ (State.reset.flash.miss.head? ≠ some 0 ∧ State.reset.lineInCmd 0 = false)
    ∧ (lost.flash.act = none ∧ lost.flash.miss.head? = some 0 ∧ lost.flash.dqsLine = 0 ∧ 3 ≤ lost.flash.dqs
      ∧ lost.flash.cmd = none)
    ∧ ((again 2).flash.act = none ∧ (again 2).lineInCmd 0 = true ∧ (again 2).flash.dqs < 3)
    ∧ ((again 3).flash.act = none ∧ (again 3).lineInCmd 0 = true ∧ 3 ≤ (again 3).flash.dqs
      ∧ (again 3).flash.miss.head? ≠ some 0) := by decide +kernel

theorem witness_FlashEnds_clean (k n : Nat) : (fRun (fcmd 1 0 16) none).Clean k n
    ∧ (fRun (fcmd 5 0 0) none).Clean k n ∧ (fRun (fcmd 2 0x80 128) (some (.program 0x80))).Clean k n
    ∧ (fRun (fcmd 2 0x80 129) (some (.program 0x80))).Clean k n :=
  ⟨clean_of _ _ rfl, clean_of _ _ rfl, clean_of _ _ rfl, clean_of _ _ rfl⟩

theorem witness_RealTimeClock :
    let rtc (fs : List (Fld × Nat)) (p : PowerSt) (f : RtcSt → RtcSt) : State :=
      let s := pk fs (fun q => { q with power := p })
      { s with rtc := f s.rtc }
    let last (x : RtcSt) : RtcSt := { x with frac := 32767 }
    let second (s : State) : Bool := decide (s.rtc.frac < 32768) && !s.rtc.loading && s.rtc.adjLeft == 0
      && (s.rtc.ticks + 1) % 2 ^ 20 != 0 && decide (32768 ≤ s.rtc.frac + 1) && s.pkg.stage == .run
    let sees (a : Nat) (w : Bool) : Bool := (pk [] id).regOpen (.core .sup) a w
    (second (rtc [] .run last) = true ∧ (rtc [] .run last).pkg.power = .run)
    ∧ (second (rtc [] .sleep last) = true ∧ (rtc [] .sleep last).pkg.power = .sleep)
    ∧ ((rtc [] .run id).rtc.frac < 32768 ∧ (rtc [] .run id).rtc.loading = false ∧ (rtc [] .run id).rtc.frac + 2 < 32768)
    ∧ (State.reset.regReach (.core .sup) aRTC_CTRL = false ∧ State.reset.regReach (.core .sup) aRTC_FRAC = false
      ∧ State.reset.regReach (.core .sup) aRTC_SEC_HI = false)
    ∧ (with' State.reset [(fRTC_STATUS_on_vbat, 1)]).fon fRTC_STATUS_on_vbat = true
    ∧ (State.reset.fon fRTC_STATUS_xtal_fail = false ∧ State.reset.log.buf.length < 16
      ∧ (with' State.reset [(fRTC_STATUS_xtal_fail, 1)]).fon fRTC_STATUS_xtal_fail = true)
    ∧ (rtc [] .run (fun x => { x with loading := true })).rtc.loading = true
    ∧ (sees aRTC_CTRL true = true ∧ sees aRTC_FRAC false = true ∧ sees aRTC_SEC_HI false = true)
    ∧ State.reset.fon fRTC_STATUS_on_vbat = false := by decide +kernel

theorem witness_RealTimeClock_full :
    let x : LogItem :=
      { code := 0x8000, tenant := 0, engine := 0, seq := 0, frame := 0, rtc := 0, d0 := 0, d1 := 0, d2 := 0, d3 := 0 }
    16 ≤ ({ State.reset with log := { State.reset.log with buf := List.replicate 16 x } } : State).log.buf.length := by
  decide +kernel

theorem witness_TimersRun :
    let t (fs : List (Fld × Nat)) (p : PkgSt → PkgSt) (x : Timer) : State :=
      let s := pk ([(⟨aTMR_CFG 15, 31, 1⟩, 1)] ++ fs) p
      { s with timers := { s.timers with tab := [(15, x)] } }
    let x : Timer := { count := 5, cmp := 9 }
    let down (n c : Nat) : Timer := { x with down := true, count := n, cmp := c }
    let is (y : Timer) : Bool := (t [] id y).timerOn 15 && !(t [] id y).fon (fTMR_CFG_sup 15) && (t [] id y).timer 15 == y
    let open' (a : Nat) : Bool := (pk [] id).regOpen (.core .sup) a true
    let wakes := t [(fTMR_CFG_sup 15, 1), (fPWR_CTRL_wake_en, 63)] (fun q => { q with power := .sleep }) { x with reload := 6 }
    State.reset.timerOn 0 = false
    ∧ ([aTMR_START, aTMR_STOP, aTMR_CFG 0, aTMR_RELOAD_HI 0, aTMR_CMP_HI 0].all
        (fun a => !State.reset.regReach (.core .sup) a)) = true
    ∧ (is x = true ∧ x.down = false ∧ x.count + 1 < 2 ^ 48 ∧ x.count + 1 ≠ x.reload ∧ x.count + 1 ≠ x.cmp)
    ∧ (is (down 2 0) = true ∧ 1 < (down 2 0).count ∧ (down 2 0).count - 1 ≠ 0)
    ∧ (is { x with reload := 6 } = true ∧ x.count + 1 = 6 ∧ 6 ≠ x.cmp)
    ∧ (is (down 1 9) = true ∧ (down 1 9).count = 1 ∧ (down 1 9).cmp ≠ 0)
    ∧ (is { x with cmp := 6, matched := true } = true ∧ x.count + 1 = 6 ∧ 6 ≠ x.reload)
    ∧ (is (down 2 1) = true ∧ (down 2 1).count - 1 = (down 2 1).cmp)
    ∧ (wakes.timerOn 15 = true ∧ wakes.timer 15 = { x with reload := 6 } ∧ wakes.fon (fTMR_CFG_sup 15) = true
      ∧ wakes.wakeEnabled 5 = true ∧ wakes.pkg.power = .sleep ∧ wakes.pkg.fired = 0 ∧ wakes.pkg.reqWait = 0)
    ∧ (open' aTMR_START = true ∧ open' aTMR_STOP = true ∧ open' (aTMR_CFG 15) = true ∧ open' (aTMR_RELOAD_HI 15) = true
      ∧ open' (aTMR_CMP_HI 15) = true)
    ∧ (bitN (0x80000001#32 : Word).toNat 31 = true ∧ bitN (1#32 : Word).toNat 31 = false)
    ∧ ((t [(fTMR_CFG_cmp_sync 15, 1)] id x).timerOn 15 = true ∧ (t [(fTMR_CFG_cmp_sync 15, 1)] id x).fon (fTMR_CFG_cmp_sync 15) = true
      ∧ (t [] id x).timerOn 15 = true ∧ (t [] id x).fon (fTMR_CFG_cmp_sync 15) = false) := by decide +kernel

/-! ## Witnesses: wired interfaces -/

/-- Port B is up in mode 2 with rings of 1 KiB at 0x0460_0000 and 0x0461_0000; the package runs. -/
def eth (fs : List (Fld × Nat)) (q : EthPort) : State :=
  let s := pk ([(fETH_STATUS_link 1, 1), (fETH_CFG_mode 1, 2), (fETH_MAC0_mac_lo 1, 5),
    (fETH_TYPE_ix_type 1, 0x88B5), (fETH_TYPE_mg_type 1, 0x88B6)] ++ fs) id
  let s := (s.setReg (aETH_RING_w0 1) 0x04600000#32).setReg (aETH_RING_w4 1) 0x04610000#32
  { s with wired := { s.wired with ports := [(1, q)] } }

/-- A frame of 60 bytes to an address with an EtherType. -/
def ethFrame (dst type : Nat) : List Byte := takePad 60 (beBytes 6 dst ++ beBytes 6 9 ++ beBytes 2 type)

theorem witness_EthernetPorts_link :
    let s := eth [] {}
    let down := eth [(fETH_STATUS_link 1, 0)] {}
    let open' (a : Nat) : Bool := s.regOpen (.core .sup) a true
    ([aETH_CFG 1, aETH_MDIO, aETH_PTP_w4 1, aETH_PTP_w0 1, aETH_TXTS_w2 1].all
      (fun a => !State.reset.regReach (.core .sup) a)) = true
    ∧ (s.fon (fETH_STATUS_link 1) = true ∧ State.reset.fget (fETH_CFG_mode 1) = 0
      ∧ ((eth [(fETH_STATUS_link 1, 0)] { held := true }).port 1).held = true ∧ s.fget (fETH_CFG_mode 1) = 2)
    ∧ State.reset.fon (fETH_STATUS_link 1) = false ∧ State.reset.fon fETH_MDIO_go = false
    ∧ (open' (aETH_CFG 1) = true ∧ (0x80000000#32 : Word).toNat / 2 ^ 30 ≠ 3 ∧ (0xC0000000#32 : Word).toNat / 2 ^ 30 = 3)
    ∧ (down.fon (fETH_STATUS_link 1) = false ∧ down.fget (fETH_CFG_mode 1) ≠ 0 ∧ (down.port 1).held = false
      ∧ (2#2 : BitVec 2) ≠ 3#2)
    ∧ (open' aETH_MDIO = true ∧ s.fon fETH_MDIO_go = false ∧ (eth [(fETH_MDIO_go, 1)] {}).fon fETH_MDIO_go = true
      ∧ (eth [(fETH_MDIO_go, 1)] {}).regOpen (.core .sup) aETH_MDIO true = true)
    ∧ (open' (aETH_PTP_w4 1) = true ∧ s.regOpen (.core .sup) (aETH_PTP_w0 1) false = true
      ∧ s.regOpen (.core .sup) (aETH_TXTS_w2 1) false = true) := by decide +kernel

theorem witness_EthernetPorts_receive :
    let s := eth [] {}
    let free (s : State) : Bool := s.fon (fETH_STATUS_link 1) && s.ethFree
    let sized (b : List Byte) : Bool := decide (60 ≤ b.length) && decide (b.length ≤ 1518)
    let mine (s : State) (b : List Byte) : Bool := ((ethIn b).dst == s.ethMac 1 || (ethIn b).dst == 0xFFFFFFFFFFFF)
      && !(ethIn b).tagged && !s.fon (fETH_CFG_vlan_en 1)
    let plain (b : List Byte) : Bool := let t := (ethIn b).type
      t != 0x8808 && t != s.fget (fETH_TYPE_ix_type 1) && t != s.fget (fETH_TYPE_mg_type 1) && t != 0x88F7
    let other := eth [(fETH_CFG_accept_other 1, 1)] {}
    let wiped : State := { s with upkeep := { s.upkeep with clearing := some (0x04600000, 0x04610000) } }
    let isMg (s : State) (b : List Byte) : Bool := free s && sized b && mine s b
      && (ethIn b).type == s.fget (fETH_TYPE_mg_type 1) && (ethIn b).type != s.fget (fETH_TYPE_ix_type 1)
    let mg := ethFrame 5 0x88B6
    let bad := takePad 60 (mg.take 18 ++ [0x80#8])
    let on := eth [(fETH_MGMT_CFG_en, 1), (fETH_MGMT_CFG_ports, 2)] {}
    let serves (s : State) : Bool := s.fon fETH_MGMT_CFG_en && bitN (s.fget fETH_MGMT_CFG_ports) 1
    let pl (b : List Byte) : List Byte := (ethIn b).payload
    let ok (b : List Byte) : Bool := decide (36 + leNat (((pl b).drop 6).take 2) ≤ (pl b).length)
      && decide (leNat (((pl b).drop 6).take 2) ≤ 512) && !bitN (leNat (((pl b).drop 4).take 1)) 7
      && !(decide (0xFFFE0000 ≤ leNat (((pl b).drop 8).take 4)) && decide (leNat (((pl b).drop 8).take 4) ≤ 0xFFFE0FFF))
    let full : State := { on with cipher := { on.cipher with queue := List.replicate 32 (job 1 16 ([], [], [])) } }
    wiped.ethFree = false
    ∧ (isMg s mg = true ∧ s.fon fETH_MGMT_CFG_en = false)
    ∧ (isMg on bad = true ∧ serves on = true ∧ ok bad = false)
    ∧ (isMg full mg = true ∧ serves full = true ∧ ok mg = true ∧ full.queueAdmits none = false)
    ∧ (isMg on mg = true ∧ serves on = true ∧ on.queueAdmits none = true)
    ∧ (free s = true ∧ ((ethFrame 6 0).take 59).length < 60)
    ∧ (sized (ethFrame 6 0) = true ∧ mine s (ethFrame 6 0) = false ∧ (ethIn (ethFrame 6 0)).type ≠ 0x88F7)
    ∧ (sized (ethFrame 5 0x8808) = true ∧ mine s (ethFrame 5 0x8808) = true ∧ (ethIn (ethFrame 5 0x8808)).type = 0x8808)
    ∧ (sized (ethFrame 5 0x0800) = true ∧ mine s (ethFrame 5 0x0800) = true ∧ plain (ethFrame 5 0x0800) = true
      ∧ s.fon (fETH_CFG_accept_other 1) = false)
    ∧ (free other = true ∧ mine other (ethFrame 5 0x0800) = true ∧ other.fon (fETH_CFG_accept_other 1) = true
      ∧ other.rxRing 1 = some (0x04600000, 1024) ∧ nodeOwned 0x04600000 80 = false
      ∧ countDiff (other.fget (fETH_RING_w2_wr 1)) (other.fget (fETH_RING_w3_rd 1)) = 0
      ∧ other.fget (fETH_RING_w2_wr 1) % 1024 + 80 ≤ 1024) := by decide +kernel

theorem witness_EthernetPorts_send :
    let s := eth [] {}
    let x : EthOut := { dst := 5, type := 0x88B6, prio := 0, payload := [1#8] }
    let stamp : TxStamp := { tag := 0, sec := 0, ns := 0 }
    let tx := (eth [(fETH_RING_w6_wr 1, 88)] { stamps := List.replicate 16 stamp }).setBytes 0x04610000
      (leBytes 4 (60 + 2 ^ 11 + 2 ^ 12))
    (s.fon (fETH_STATUS_link 1) = true ∧ s.ethFree = true)
    ∧ (tx.fon (fETH_STATUS_link 1) = true ∧ tx.ethFree = true
      ∧ tx.fget (fETH_RING_w6_wr 1) ≠ tx.fget (fETH_RING_w7_rd 1) ∧ tx.txRing 1 = some (0x04610000, 1024)
      ∧ leNat (tx.bytes 0x04610000 4) % 2 ^ 11 = 60 ∧ tx.fget (fETH_RING_w7_rd 1) = 0
      ∧ bitN (leNat (tx.bytes 0x04610000 4)) 11 = true ∧ bitN (leNat (tx.bytes 0x04610000 4)) 12 = true
      ∧ 16 ≤ (tx.port 1).stamps.length)
    ∧ ((s.port 1).mgmt = [] ∧ (s.port 1).fwd = [])
    ∧ (((eth [] { mgmt := [x] }).port 1).mgmt = x :: [] ∧ (eth [] { mgmt := [x] }).ethFree = true)
    ∧ (((eth [] { fwd := [x] }).port 1).mgmt = [] ∧ ((eth [] { fwd := [x] }).port 1).fwd = x :: []
      ∧ s.fget (fETH_RING_w6_wr 1) = s.fget (fETH_RING_w7_rd 1)) := by decide +kernel

theorem witness_EthernetPorts_clean (k n : Nat) : (eth [(fETH_CFG_accept_other 1, 1)] {}).Clean k n
    ∧ ((eth [(fETH_RING_w6_wr 1, 88)] {}).setBytes 0x04610000 (leBytes 4 60)).Clean k n :=
  ⟨clean_of _ _ rfl, clean_of _ _ rfl⟩

/-- The package runs, with a state of the wired units. -/
def wired (fs : List (Fld × Nat)) (f : WiredSt → WiredSt) : State :=
  let s := pk fs id
  { s with wired := f s.wired }

/-- A request in slot 127. -/
def mgmtId : MgmtId := { req := 1, st := .pending, since := 0, slot := 127, port := 1, mac := 5 }

theorem witness_WiredUnits :
    let uart (rx : Nat) : State := wired [(fUART_CFG_en 1, 1), (fPINMUX_SEL_func 5, 1)]
      (fun w => { w with uarts := [(1, { rx := List.replicate rx (5#8, false) })] })
    let s := wired [] id
    let awake := wired [(fRADIO_PATH_STATUS_state 1, 1)] id
    let open' (a : Nat) (wr : Bool) : Bool := s.regOpen (.core .sup) a wr
    let v : Word := 0x0080007F#32
    let asked := wired [] (fun w => { w with ids := [mgmtId] })
    let done := wired [] (fun w => { w with ids := [{ mgmtId with st := .done }] })
    let answering : State := { asked with cipher := { asked.cipher with
      queue := [{ job 6 16 ([], [], []) with who := .unit (.answer 127 []) }] } }
    let idle (s : State) : Bool := s.cipher.queue == [] && s.cipher.waiting == [] && s.cipher.running == []
    let wiped : State := { asked with upkeep := { asked.upkeep with clearing := some (0, 0x1000000) } }
    ([aETH_MGMT_PEND, aETH_MGMT_DONE, aPINMUX_SEL 31, aUART_DATA 1, aSPI_DATA, aI2C_CMD].all
      (fun a => !State.reset.regReach (.core .sup) a)) = true
    ∧ State.reset.fon (fUART_CFG_en 1) = false
    ∧ (open' aSPI_DATA true = true ∧ s.fon fSPI_CFG_en = false
      ∧ (wired [(fSPI_DATA_busy, 1)] id).fon fSPI_DATA_busy = true ∧ s.fon fSPI_DATA_busy = false) ∧ s.wired.i2c = none
    ∧ (open' aETH_MGMT_PEND false = true ∧ s.wired.queue = []
      ∧ (wired [] (fun w => { w with queue := [127] })).wired.queue = 127 :: [])
    ∧ (open' aETH_MGMT_DONE true = true ∧ asked.ethFree = true ∧ asked.mgmtInSlot 127 = some mgmtId
      ∧ mgmtId.st = .pending ∧ idle asked = true
      ∧ v.toNat % 2 ^ 7 = 127 ∧ v.toNat / 2 ^ 14 % 2 ^ 10 = 512 ∧ v.toNat / 2 ^ 24 < 0x80)
    ∧ (wiped.ethFree = false ∧ s.mgmtInSlot 127 = none
      ∧ done.mgmtInSlot 127 = some { mgmtId with st := .done } ∧ idle answering = false
      ∧ 0x80 ≤ (0x8080007F#32 : Word).toNat / 2 ^ 24)
    ∧ (open' (aPINMUX_SEL 31) true = true ∧ s.pinRefusal 31 0 7 = some 2 ∧ s.pinRefusal 31 0 0 = none ∧ s.pinClash 31 0 = false
      ∧ awake.pinRefusal 31 6 0 = some 1 ∧ s.pinRefusal 31 0 5 = some 3)
    ∧ (open' (aUART_DATA 1) true = true ∧ open' (aUART_DATA 1) false = true
      ∧ ((uart 1).uart 1).rx = (5#8, false) :: [] ∧ (s.uart 1).rx = [])
    ∧ ((uart 63).fon (fUART_CFG_en 1) = true ∧ ((uart 63).inputBall 2).isSome = true ∧ ((uart 63).uart 1).rx.length < 64
      ∧ (uart 64).fon (fUART_CFG_en 1) = true ∧ ((uart 64).inputBall 2).isSome = true
      ∧ 64 ≤ ((uart 64).uart 1).rx.length)
    ∧ ((wired [(fSPI_CFG_en, 1)] id).fon fSPI_CFG_en = true ∧ (wired [(fSPI_CFG_en, 1)] id).fon fSPI_DATA_busy = false)
    ∧ (open' aI2C_CMD true = true ∧ s.fon fI2C_CMD_busy = false
      ∧ (wired [(fI2C_CMD_busy, 1)] id).fon fI2C_CMD_busy = true) := by decide +kernel

theorem witness_WiredUnits_i2c (op : Nat) :
    (wired [] (fun w => { w with i2c := some (op, 5, true) })).wired.i2c = some (op, 5, true) := rfl

theorem witness_WiredUnits_jobs :
    let asked := wired [] (fun w => { w with ids := [mgmtId] })
    let done (s : State) (u : UnitJob) (op st : Nat) : State := { s with cipher := { s.cipher with running :=
      [{ unit := 3, job := { job op 16 ([], [], []) with who := .unit u }, slots := [], status := st, writes := []
         result := [1#8] }] } }
    let ends (s : State) : Bool := (s.cipher.running.find? (fun x => x.unit == 3 && decide (x.job.op < 16))).isSome
      && s.cipher.queue == [] && s.ethFree && s.cipher.running.all (fun r => r.writes == [] && !r.erased)
    let answered (st : Nat) : State := done asked (.answer 127 (leBytes 8 0)) 6 st
    let opened (st : Nat) : State := done (wired [] id) (.request 1 9 (leBytes 20 7)) 7 st
    (ends (answered 0) = true ∧ (answered 0).mgmtInSlot 127 = some mgmtId
      ∧ nodeOwned ((answered 0).mgmtSlot 127) (leBytes 8 0 ++ [1#8]).length = false)
    ∧ ends (answered 1) = true ∧ ends (opened 1) = true
    ∧ (ends (opened 0) = true ∧ (opened 0).wired.ids = [] ∧ (opened 0).mgmtInFlight ≠ 16
      ∧ (opened 0).wired.ids.length < 4096 ∧ (opened 0).mgmtFreeSlot = some 0 ∧ (opened 0).mgmtInSlot 0 = none
      ∧ nodeOwned ((opened 0).mgmtSlot 0) ((leBytes 20 7).take 20 ++ [1#8] : List Byte).length = false) := by
  decide +kernel

theorem witness_WiredUnits_clean (k n : Nat) : (wired [] (fun w => { w with ids := [mgmtId] })).Clean k n
    ∧ (wired [] id).Clean k n := ⟨clean_of _ _ rfl, clean_of _ _ rfl⟩

/-! ## Witnesses: resets, start-up, recovery, debug -/

theorem witness_PackageResets :
    let p (f : PkgSt → PkgSt) : State := { State.reset with pkg := f State.reset.pkg }
    let off (f : PkgSt → PkgSt) : State := p (fun x =>
      f { x with supplies := false, resetLow := false, hot := false, stage := .hold })
    let on (fs : List (Fld × Nat)) (f : PkgSt → PkgSt) : State := pk fs (fun x => f { x with causes := 0 })
    let isUp (s : State) : Bool := s.pkg.supplies && !s.pkg.resetLow && !s.pkg.hot && s.pkg.causes == 0
    let ready (s : State) : Bool := !s.pkg.resetLow && !s.pkg.hot && s.pkg.stage == .hold
    let run := on [(fSYS_DBG_scope, 2)] (fun x => x)
    let halt := run.modClu 16 (fun c => { c with halterOn := true })
    let low := p (fun x => { x with supplies := true, resetLow := true, stage := .hold, causes := 8 })
    let hot := p (fun x => { x with supplies := true, resetLow := false, stage := .hold, hot := true, causes := 4 })
    let first (c : Nat) := off (fun x => { x with causes := 2 ^ c })
    let wake := off (fun x => { x with causes := 0, power := .off })
    let is (x : Byte) (c : Int) : Bool := decide (signedN 8 x.toNat = c)
    (run.pkg.supplies = true ∧ State.reset.pkg.supplies = false ∧ (on [] (fun x => { x with power := .armed })).pkg.power = .armed)
    ∧ (State.reset.pkg.resetLow = true ∧ run.pkg.resetLow = false)
    ∧ (State.reset.outOfReset = false ∧ State.reset.pkg.hot = false
      ∧ State.reset.regReach (.core .sup) aSYS_RESET_CTRL = false ∧ (State.reset.clu 16).halterOn = false)
    ∧ (∀ c ∈ [0, 7], (first c).pkg.supplies = false ∧ (first c).pkg.power ≠ .off ∧ ready (first c) = true
      ∧ (first c).pkg.causes = 2 ^ c)
    ∧ (wake.pkg.supplies = false ∧ wake.pkg.power = .off ∧ ready wake = true ∧ wake.pkg.causes = 0 ∧ wake.pkg.fired = 0)
    ∧ (State.reset.pkg.power ≠ .off ∧ State.reset.pkg.supplies = false
      ∧ (p (fun x => { x with power := .off })).pkg.power = .off ∧ (p (fun x => { x with power := .off })).pkg.resetLow = true
      ∧ (p (fun x => { x with power := .off })).pkg.supplies = false)
    ∧ (run.pkg.power ≠ .armed ∧ (p (fun x => { x with resetLow := true, hot := true })).pkg.hot = true)
    ∧ ((off id).pkg.supplies = false ∧ (off id).pkg.resetLow = false)
    ∧ (low.pkg.resetLow = true ∧ low.pkg.supplies = true ∧ low.pkg.hot = false ∧ low.pkg.stage = .hold
      ∧ low.pkg.power = .run ∧ low.pkg.causes = 2 ^ 3)
    ∧ (isUp run = true ∧ run.outOfReset = true ∧ run.dbgFull = true ∧ State.reset.dbgFull = false)
    ∧ (run.regOpen (.core .sup) aSYS_RESET_CTRL true = true ∧ (0x0A5C0001#32 : Word).toNat / 2 ^ 16 = 0x0A5C
      ∧ bitN (0x0A5C0001#32 : Word).toNat 0 = true ∧ bitN (0x0A5C0000#32 : Word).toNat 0 = false)
    ∧ (isUp halt = true ∧ (halt.clu 16).halterOn = true ∧ halt.haltLeft 16 = 0
      ∧ (halt.modClu 16 (fun c => { c with halter := 1 })).haltLeft 16 ≠ 0)
    ∧ (run.pkg.hot = false ∧ run.die1Up = true ∧ is 120#8 120 = true ∧ is 119#8 119 = true ∧ is 105#8 105 = true
      ∧ is 106#8 106 = true ∧ is 0x80#8 (-128) = true
      ∧ (run.fget fSYS_THERMAL_CFG_warn_c : Int) ≤ 119)
    ∧ (hot.pkg.hot = true ∧ hot.pkg.supplies = true ∧ hot.pkg.resetLow = false ∧ hot.pkg.stage = .hold
      ∧ hot.pkg.power = .run ∧ hot.pkg.causes = 2 ^ 2 ∧ (p (fun x => { x with hot := true })).pkg.hot = true
      ∧ (p (fun x => { x with hot := true })).pkg.resetLow = true) := by decide +kernel

theorem witness_PackageResets_uncut : (pk [(fSYS_DBG_scope, 2)] (fun x => { x with causes := 0 })).Uncut
    ∧ ({ State.reset with pkg := { State.reset.pkg with resetLow := false } } : State).Uncut :=
  ⟨uncut_of (by decide +kernel), uncut_of (by decide +kernel)⟩

/-- The public key to the private key 3. -/
def imageKey : List Byte := beBytes 32 0x5ECBE4D1A6330A44C8F7EF951D4BF165E6C6B721EFADA985FB41661BC6E7FD6C
  ++ beBytes 32 0x8734640C4998FF7E374B06CE1A64A2ECD82AB036384FB83D9A79B127A27D5032

/-- SHA-256 of that key. -/
def imageKeyHash : Nat := 0x4977227B955A0C90988FDC01B5623170AB8E313FE064162240D6CF4BDAC7E65E

/-- The header of the image for every variant, with a public key. -/
def imageHead (key : List Byte) : List Byte :=
  let h := leBytes 4 0x5441434B ++ [3#8, 0xFF#8] ++ leBytes 2 0 ++ leBytes 4 7 ++ leBytes 2 1 ++ leBytes 2 4
    ++ [0#8, 0xFF#8] ++ leBytes 2 0 ++ leBytes 4 0x160 ++ leBytes 4 0x100 ++ leBytes 2 4 ++ leBytes 2 7
    ++ leBytes 4 0x140 ++ leBytes 4 0x220 ++ [1#8] ++ takePad 23 [] ++ key ++ takePad 124 []
  h ++ leBytes 4 (crc32 h)

/-- Its manifest: supervisor, sequencer, tenant 0 with a table. -/
def imageManifest : List Byte :=
  let man (type tenant api sec compat : Nat) : List Byte := leBytes 1 type ++ leBytes 1 tenant ++ leBytes 2 0
    ++ leBytes 4 0x10000 ++ leBytes 2 api ++ leBytes 2 sec ++ leBytes 4 compat
  man 1 0xFF 0x100 0 0x10001 ++ man 2 0xFF 0 1 0 ++ man 4 0 0x100 3 0 ++ man 3 0 0 2 0

/-- Its section table: a section of 16 bytes of each type that is loaded. -/
def sections : List SecEntry :=
  let sec (type i target : Nat) : SecEntry :=
    { type := type, tenant := 0, reserved := 0, off := 0x1B0 + 16 * i, len := 16, target := target }
  [sec 1 0 0, sec 2 1 0, sec 3 2 0x80010000, sec 4 3 0x10100, sec 5 4 0x80010000, sec 7 5 0, sec 8 6 0]

/-- An image of 608 bytes signed with the private key 3. -/
def image : List Byte :=
  imageHead imageKey ++ imageManifest
    ++ sections.flatMap (fun e => leBytes 1 e.type ++ leBytes 3 0 ++ leBytes 4 e.off ++ leBytes 4 e.len ++ leBytes 4 e.target)
    ++ takePad 0x70 [] ++ beBytes 32 0x51590B7A515140D2D784C85608668FDFEF8C82FD1F5BE52421554A0DC3D033ED
    ++ beBytes 32 0x6688F94C44B959FDC496AEBB54031B221C6A89CCD8FC534977E62F15E5303FCA

/-- A public key and its signature of `signedDigest`. -/
def signer : List Byte := beBytes 32 0xB0D2B8CC772849D159B9055E5F6883DEBC4EBEE68F3E013D8257619E002691EA
  ++ beBytes 32 0xD97A3E3D4E279D397223A00EC02275C2E73E42FC7C35078A18EE194A84B50685
/-- See `signer`. -/
def signature : List Byte := beBytes 32 0xCCD0F55BF0C57AEED91F83171D3F1C40112E290ADDC467672054B23A1ABE524A
  ++ beBytes 32 0x66687AADF862BD776C8FC18B8E9F8E20089714856EE233B3902A591D0D5F2925
/-- See `signer`. -/
def signedDigest : List Byte := beBytes 32 0x66687AADF862BD776C8FC18B8E9F8E20089714856EE233B3902A591D0D5F2925

/-- The image stands in bank A and its key is the fused one; start-up is in a stage, with the header read. -/
def boot (x : Stage) : State :=
  { State.reset with mem := image.zipIdx.map (fun e => (flashKey e.2, e.1))
                     fuses := { State.reset.fuses with keyHash := imageKeyHash, profile := 1 }
                     pkg := { State.reset.pkg with stage := x, img := { header := imageHead imageKey } } }

/-- Signature check of an image whose manifest is `imageManifest`, with a signature. -/
def signs (sig : List Byte) (man : List Byte) : State :=
  { State.reset with pkg := { State.reset.pkg with
      stage := .sign, img := { header := imageHead signer, man := man, digest := signedDigest, sig := sig } } }

/-- The bank tried failed first, is on trial, or was the last. -/
def failing (s : State) (trial other : Bool) : State :=
  let t := with' s [(fXSPI_STATUS_dev_ok, 1), (fSYS_BOOT_CTRL_trial, b2n trial)]
  { t with pkg := { t.pkg with other := other } }

/-- The other bank may be tried still. -/
def mayTry (s : State) : Bool := decide (s.pkg.bank < 2) && !s.pkg.other && !s.bankRefused (1 - s.pkg.bank)

theorem witness_StartUp_header : (boot .header).headerCheck ((boot .header).header (bankKey 0)) = 1 := by decide +kernel

theorem witness_StartUp_image :
    let s := boot .load
    s.pkg.stage = .load ∧ s.manifestCheck s.pkg.img.header (bankKey s.pkg.bank) = true
    ∧ s.sections s.pkg.img.header (bankKey s.pkg.bank) = sections
    ∧ (∀ i, i < 7 → ∀ x ∈ sections.drop (i + 1), some x.type ≠ (sections[i]?).map SecEntry.type)
    ∧ State.reset.manifestCheck (imageHead imageKey) (bankKey 0) = false := by decide +kernel

theorem witness_StartUp_signature :
    let s := signs signature imageManifest
    signatureOk s.pkg.img.header s.pkg.img.digest s.pkg.img.sig = true
    ∧ versionsOk (manOfBytes s.pkg.img.header s.pkg.img.man) = true
    ∧ versionsOk (manOfBytes (signs signature []).pkg.img.header []) = false
    ∧ signatureOk (imageHead signer) signedDigest (takePad 64 []) = false := by decide +kernel

theorem witness_StartUp :
    let on (fs : List (Fld × Nat)) (f : PkgSt → PkgSt) : State :=
      let s := with' State.reset fs
      { s with pkg := f s.pkg }
    let links (n : Nat) : List (Fld × Nat) := (List.range 5).map (fun l => (fLATIGO_STATUS_state l, n))
    let isUp (s : State) : Bool := s.linksOf.all (fun j => s.linkState j == 2)
    let filling (s : State) : Bool := s.pkg.stage == .fill && !s.pkg.filled
    let fill := on (links 1) (fun x => { x with stage := .fill })
    let wiped (a : Stage) := (on [] (fun x => { x with stage := .fill, afterFill := a })).modClu 16
      (fun c => { c with released := true })
    let trained (a : Stage) (op : Nat) := (on (links 2) (fun x => { x with stage := .fill, afterFill := a })).setNum
      opRecord 8 (op * 2 ^ 60)
    let rom (s : State) : Bool := filling s && !(s.clu 16).released && isUp s
    let disc (fs : List (Fld × Nat)) := on fs (fun x => { x with stage := .flash })
    let fits (d : Word) : Bool := decide (24 ≤ d.toNat / 2 ^ 27) && decide (d.toNat / 2 ^ 27 ≤ 28)
      && decide (d.toNat / 2 ^ 8 % 2 ^ 8 ≤ 100)
    let lostOp := on [] (fun x => { x with stage := .flash, opBank := 1 })
    (([Stage.reference, .flash, .header, .load, .sign, .settings, .hand].all (fun x => State.reset.pkg.stage != x)) = true
      ∧ State.reset.hasLink 5 = false ∧ State.reset.linkState 4 ≠ 1 ∧ filling State.reset = false
      ∧ State.reset.pkg.die1 ≠ .rising false)
    ∧ (on [] (fun x => { x with stage := .reference })).pkg.stage = .reference
    ∧ (fill.hasLink 4 = true ∧ fill.linkState 4 = 1 ∧ filling fill = true ∧ fill.pkg.die1 = .up
      ∧ isUp fill = false ∧ (fill.clu 16).released = false)
    ∧ (filling (wiped .header) = true ∧ ((wiped .header).clu 16).released = true ∧ (wiped .header).pkg.afterFill = .header)
    ∧ (filling (wiped .recovery) = true ∧ (wiped .recovery).pkg.afterFill = .recovery)
    ∧ (rom (trained .recovery 0) = true ∧ (trained .recovery 0).num opRecord 8 = 0)
    ∧ (rom (trained .flash 3) = true ∧ (trained .flash 3).num opRecord 8 / 2 ^ 60 = 3)
    ∧ (rom (trained .flash 2) = true ∧ (trained .flash 2).num opRecord 8 / 2 ^ 60 = 2)
    ∧ (rom (trained .flash 0) = true ∧ (trained .flash 0).num opRecord 8 = 0)
    ∧ ((disc []).pkg.stage = .flash ∧ fits 0xC0000000#32 = true ∧ fits 0xE0006400#32 = true ∧ fits 0xC0006500#32 = false
      ∧ fits 0xB8000000#32 = false ∧ (disc []).pkg.opBank = 0 ∧ (disc []).fon fSYS_BOOT_CTRL_trial = false)
    ∧ ((disc [(fSYS_BOOT_CTRL_trial, 1), (fSYS_BOOT_CTRL_trials_left, 3)]).fget fSYS_BOOT_CTRL_trials_left ≠ 0
      ∧ (disc [(fSYS_BOOT_CTRL_trial, 1)]).fon fSYS_BOOT_CTRL_trial = true
      ∧ (disc [(fSYS_BOOT_CTRL_trial, 1)]).fget fSYS_BOOT_CTRL_trials_left = 0)
    ∧ (lostOp.pkg.stage = .flash ∧ bitN lostOp.pkg.opBank 0 = true ∧ bitN lostOp.pkg.opBank 1 = false
      ∧ lostOp.fget fSYS_BOOT_CTRL_pref_bank = 0 ∧ lostOp.fon fSYS_BOOT_CTRL_trial = false) := by
  decide +kernel

theorem witness_StartUp_clean : State.reset.Clean bootRecord 8
    ∧ (State.reset.setNum opRecord 8 (3 * 2 ^ 60)).Clean bootRecord 8 := ⟨clean_of _ _ rfl, clean_of _ _ rfl⟩

theorem witness_StartUp_fails :
    let bad (x : Stage) : State := { State.reset with pkg := { State.reset.pkg with stage := x } }
    let one (s : State) : Bool := mayTry (failing s false false) && mayTry (failing s true false)
      && (failing s true false).fon fSYS_BOOT_CTRL_trial && !(failing s false false).fon fSYS_BOOT_CTRL_trial
      && (failing s false true).pkg.other
    (one (bad .header) = true ∧ (bad .header).pkg.stage = .header
      ∧ (bad .header).headerCheck ((bad .header).header (bankKey 0)) ≠ 1)
    ∧ (one (bad .load) = true ∧ (bad .load).pkg.stage = .load ∧ (bad .load).manifestCheck [] (bankKey 0) = false)
    ∧ one (boot .load) = true
    ∧ (one (signs signature []) = true ∧ (signs signature []).pkg.stage = .sign)
    ∧ (one (signs [] []) = true ∧ (signs [] []).pkg.stage = .sign) := by decide +kernel

theorem witness_StartUp_fails_keeps (s : State) (a b : Bool) : (failing s a b).mem = s.mem
    ∧ (failing s a b).fuses = s.fuses ∧ (failing s a b).variant = s.variant ∧ (failing s a b).pkg.stage = s.pkg.stage
    ∧ (failing s a b).pkg.img = s.pkg.img := ⟨rfl, rfl, rfl, rfl, rfl⟩

theorem witness_StartUp_settings :
    let on (f : PkgSt → PkgSt) : State := { State.reset with pkg := f State.reset.pkg }
    let set (n : Nat) := (on (fun x => { x with stage := .settings, img := { x.img with format := n } })).setBytes
      settingsKey (settingsBlock 4 [])
    let hand (fs : List (Fld × Nat)) := with' (on (fun x => { x with stage := .hand })) fs
    ((set 4).pkg.stage = .settings ∧ (set 4).settingsGood (set 4).settingsRead.1 = true)
    ∧ ((set 5).pkg.stage = .settings ∧ (set 5).settingsGood (set 5).settingsRead.1 = false)
    ∧ ((hand []).pkg.stage = .hand ∧ (hand []).fget fXSPI_CTRL_mode ≠ 1 ∧ (hand []).pkg.power = .run
      ∧ (hand []).pkg.reqWait = 0 ∧ (hand []).pkg.bank < 2)
    ∧ ((hand [(fXSPI_CTRL_mode, 1)]).pkg.stage = .hand ∧ (hand [(fXSPI_CTRL_mode, 1)]).fget fXSPI_CTRL_mode = 1) := by
  decide +kernel

theorem witness_StartUp_settings_clean (k n : Nat) : (({ State.reset with
    pkg := { State.reset.pkg with stage := .settings } } : State).setBytes settingsKey (settingsBlock 4 [])).Clean k n :=
  clean_of _ _ rfl

theorem witness_BootRecordRecovery :
    let rec' (f : RecSt → RecSt) : State :=
      { State.reset with pkg := { State.reset.pkg with stage := .recovery, recover := f State.reset.pkg.recover } }
    let cmd' (k : Nat) (d : List Byte) : State := rec' (fun r => { r with cmd := some (k, d) })
    let waits (k : Nat) (d : List Byte) : Bool := (cmd' k d).pkg.stage == .recovery
      && (cmd' k d).pkg.recover.cmd == some (k, d)
    let run := pk [] id
    let load := leBytes 4 (0x800000 - 1) ++ [5#8]
    (State.reset.regReach (.core .sup) aSYS_BOOT_CTRL = false ∧ State.reset.pkg.stage ≠ .recovery
      ∧ (rec' id).pkg.stage = .recovery ∧ (rec' id).pkg.recover.cmd = none ∧ State.reset.pkg.recover.next = none)
    ∧ (recParse (recFrame 0 []) = some (0, []) ∧ recParse (recFrame 5 [1#8]) = some (5, [1#8]))
    ∧ (waits 2 (leBytes 4 115199) = true ∧ leNat (leBytes 4 115199) < 115200 ∧ waits 2 [1#8] = true
      ∧ 3000000 < leNat (leBytes 4 3000001))
    ∧ (waits 3 (leBytes 4 0) = true ∧ (leBytes 4 0).length < 5 ∧ waits 4 [] = true ∧ ([] : List Byte).length ≠ 4)
    ∧ (run.regOpen (.core .sup) aSYS_BOOT_CTRL true = true ∧ run.fon fSYS_BOOT_STATUS_trial = false
      ∧ (pk [(fSYS_BOOT_STATUS_trial, 1)] id).fon fSYS_BOOT_STATUS_trial = true)
    ∧ ((rec' id).pkg.recover.heard = false ∧ (rec' (fun r => { r with heard := true })).pkg.recover.heard = true)
    ∧ (recParse [0xA5#8, 0x5A#8] = none ∧ recParse (recFrame 1 []) = some (1, [])
      ∧ recParse (recFrame 4 [1#8]) = some (4, [1#8]))
    ∧ waits 1 [] = true
    ∧ (waits 2 (leBytes 4 115200) = true ∧ waits 2 (leBytes 4 3000000) = true ∧ (leBytes 4 3000000).length = 4
      ∧ leNat (leBytes 4 3000000) = 3000000 ∧ leNat (leBytes 4 115200) = 115200)
    ∧ (rec' (fun r => { r with next := some 9600 })).pkg.recover.next = some 9600
    ∧ (waits 3 load = true ∧ 5 ≤ load.length ∧ leNat (load.take 4) + (load.drop 4).length ≤ 0x800000
      ∧ waits 3 (load ++ [6#8]) = true ∧ 0x800000 < leNat (load.take 4) + ((load ++ [6#8]).drop 4).length)
    ∧ (waits 4 (leBytes 4 0) = true ∧ (leBytes 4 0).length = 4 ∧ (cmd' 4 (leBytes 4 0)).fullCheck 0x04000000 ≠ 1) := by
  decide +kernel

theorem witness_BootRecordRecovery_clean (k n : Nat) : ({ State.reset with
    pkg := { State.reset.pkg with stage := .recovery, recover := { cmd := some (3, []) } } } : State).Clean k n :=
  clean_of _ _ rfl

/-- A key whose signature of 32 zero bytes and scope 2 is known. -/
def debugKey : List Byte := beBytes 32 0x5F4B0F009E7B44C82A6A9279FC6B4D147CD0E3EBA95FD43B74BA806E8DE0CDB1
  ++ beBytes 32 0xB2BD0FC1EC0C7E71C00C49AB4DC6924B60DC5E22A2C882EAA55AAEA12305B4FF

theorem witness_JtagDebug_unlock :
    ecdsaVerify debugKey (sha256 (takePad 32 [] ++ [2#8]))
      (beBytes 32 0x6330BD144E89E1991D1C07EEB55CF6A6F78CFB7641AD76C77E4EF1BF99CC9533
        ++ beBytes 32 0x58CC2F44D3A27866874701FBAD573DA9AD1CFD88FA3145531C822F20A58BEEA1) = true
    ∧ debugKey.length = 64
    ∧ beNat (sha256 debugKey) = ({ State.reset with fuses := { State.reset.fuses with
        debugKey := beNat (sha256 debugKey) } } : State).fuses.debugKey := by decide +kernel

theorem witness_JtagDebug :
    let scope (n : Nat) : State := with' s0 [(fSYS_DBG_scope, n)]
    let asked : State := { State.reset with pkg := { State.reset.pkg with nonce := some (takePad 32 []) } }
    let failed : State := { State.reset with cipher := { State.reset.cipher with failed := true } }
    let x : LogItem :=
      { code := 0x8000, tenant := 0, engine := 0, seq := 0, frame := 0, rtc := 0, d0 := 0, d1 := 0, d2 := 0, d3 := 0 }
    let full : State := { State.reset with log := { State.reset.log with buf := List.replicate 16 x } }
    let held := (scope 2).setEng 0 { core with dbgStop := true }
    let idle := (scope 2).setEng 0 { core with run := .idle }
    ((scope 0).chain 0).jtagHold = false ∧ ((scope 0).chain 1).jtagHold = false
    ∧ ((scope 1).bscan = true ∧ (scope 0).bscan = false ∧ (scope 1).airSilent = true
        ∧ ((scope 1).chain 0).jtagHold = false)
    ∧ ((scope 0).dbgLocked = false ∧ (scope 0).cipher.failed = false
      ∧ (with' s0 [(fSYS_DBG_fails, 3)]).dbgLocked = true)
    ∧ (failed.dbgLocked = false ∧ failed.cipher.failed = true ∧ failed.log.buf.length < 16)
    ∧ (State.reset.dbgLocked = false ∧ State.reset.cipher.failed = false ∧ State.reset.pkg.nonce = none
      ∧ State.reset.log.buf.length < 16)
    ∧ (full.dbgLocked = false ∧ 16 ≤ full.log.buf.length)
    ∧ (asked.dbgLocked = false ∧ asked.cipher.failed = false ∧ asked.pkg.nonce = some (takePad 32 [])
      ∧ asked.log.buf.length < 16)
    ∧ ((scope 2).dbgFull = true ∧ ((scope 2).eng 0).dbgStop = false)
    ∧ (held.dbgFull = true ∧ (held.eng 0).dbgStop = true ∧ (held.eng 0).run ≠ .idle)
    ∧ (idle.dbgFull = true ∧ (idle.eng 0).run = .idle ∧ (idle.eng 0).hold = false) ∧ (scope 1).dbgFull = false := by
  decide +kernel

theorem witness_RegisterWrites :
    let s := linked (pk [(fSYS_DBG_scope, 2)] id)
    let small : State := { s with variant := .sln4128 }
    let engs := linked (pk [] id)
    let named : List Nat := [aSYS_RESET_CTRL, aSYS_LOG_ADD_w0, aGIRTH_CTRL, aGIRTH_LEDGER 8 1, aCINCH_RATE, aCINCH_AIR_OBS_w4,
      aTMR_START, aTMR_STOP, aTMR_RELOAD_HI 15, aTMR_CMP_HI 15, aMEM_FLIP_w2, aMEM_CLEAR, aETH_CFG 1, aETH_PTP_w4 1,
      aETH_MGMT_DONE, aPINMUX_SEL 31, aUART_DATA 1, aSPI_DATA, aDECODER_RESERVE, aENGCTL_TPRIO 15]
    let inside (a : Nat) : Bool := decide (0x10000000 ≤ a) && decide (a < 0x20000000) && a % 4 == 0
    let plain (a : Nat) : Bool := s.regOpen (.core .sup) a true && !s.regAbsent a && (regDesc a).any (fun d => !d.fields.isEmpty)
      && s.regWrite (.core .sup) a 0x12345678#32 0#32 == s.plainWrite a 0x12345678#32 0#32
    (inside aGIRTH_RESERVE = true ∧ plain aGIRTH_RESERVE = true ∧ plain aXSPI_WEAR = true)
    ∧ named.all (fun a => inside a && s.regOpen (.core .sup) a true) = true
    ∧ State.reset.regReach (.core .sup) aGIRTH_RESERVE = false
    ∧ (inside (aLATIGO_STATUS 4) = true ∧ small.regOpen (.core .sup) (aLATIGO_STATUS 4) true = true
      ∧ small.regAbsent (aLATIGO_STATUS 4) = true)
    ∧ (inside aGIRTH_CTRL = true ∧ engs.regReach (.core (.eng 0#7)) aGIRTH_CTRL = true
      ∧ engs.regOpen (.core (.eng 0#7)) aGIRTH_CTRL true = false)
    ∧ (inside 0x0FFFFFFC = false ∧ inside 0x20000000 = false ∧ inside 0x10000002 = false)
    ∧ (s.regOpen .dbg aGIRTH_RESERVE true = true ∧ s.regOpen .dbg aXSPI_WEAR true = true
      ∧ s.regOpen .dbg aXSPI_DEV0 true = true
      ∧ s.regOpen (.core .sup) 0x10010028 true = true) := by decide +kernel

/-! ## Witnesses: the whole block -/

/-- A state that waits for a command and is in canonical form. -/
theorem witness_StepKeepsCanon : ({ State.reset with pending := [Instr.sramFillDone] } : State).Canon
    ∧ ∃ t, step { State.reset with pending := [Instr.sramFillDone] } = .next t :=
  ⟨⟨rfl, rfl, rfl⟩, _, rfl⟩

theorem witness_PartAndQueueKept : ∃ t, exec .sramFillDone State.reset = .next t := ⟨_, rfl⟩

theorem witness_DeviceIdFixed : ∃ t, exec (.softReset .dbg 0x0A5C0001#32) State.reset = .next t := ⟨_, rfl⟩


/-! ## Ill-formed commands are refused -/

theorem test_wf_registers : (Instr.registerWrite .dbg 0x0FFFFFFC#32 0#32 0#32).wf = false
    ∧ (Instr.registerWrite .dbg 0x20000000#32 0#32 0#32).wf = false
      ∧ (Instr.registerWrite .dbg 0x10000002#32 0#32 0#32).wf = false
    ∧ (Instr.registerWrite .dbg 0x1FFFFFFC#32 0#32 0#32).wf = true := by decide

theorem test_wf_handover (cfg : ConfigSec) : (Instr.handover { cfg with writes := [(0x10000000#32, 0#32), (4#32,
    0#32)] } 0#64 0#32).wf
    = false := by
  show (regAddrOk 0x10000000#32 && (regAddrOk 4#32 && true)) = false
  decide

theorem test_wf_links : (Instr.latigoTrainDone 5#3).wf = false ∧ (Instr.latigoCrcError 5#3 0#3).wf = false
    ∧ (Instr.latigoRetrainEnd 5#3).wf = false ∧ (Instr.latigoTimeoutExpiry 5#3 0#7).wf = false
    ∧ (Instr.latigoTransactionDone 7#3 0#7).wf = false ∧ (Instr.latigoTrainDone 4#3).wf = true := by decide

theorem test_wf_slots : (Instr.slotStart 4000#12).wf = false ∧ (Instr.planWrite .dbg false 4000#12 0#32).wf = false
    ∧ (Instr.beaconBuild 4095#12).wf = false ∧ (Instr.slotStart 3999#12).wf = true := by decide

theorem test_wf_fences : (Instr.fenceWrite true 0#2 32#6 0#32).wf = false
    ∧ (Instr.fenceWrite true 1#2 0#6 0#32).wf = false
    ∧ (Instr.fenceWrite false 3#2 63#6 0#32).wf = true := by decide

theorem test_wf_radio : (Instr.frontEndStep false 0#4).wf = false ∧ (Instr.frontEndStep false 10#4).wf = false
    ∧ (Instr.specDone []).wf = false ∧ (Instr.ingressLastSoftBit 0#9 (List.replicate 4089 0#4)).wf = false
    ∧ (Instr.ingressLastSoftBit 0#9 (List.replicate 4088 0#4)).wf = true
    ∧ (Instr.contextLoadDone 96#7).wf = false ∧ (Instr.contextStoreDone 96#7).wf = false := by decide +kernel

theorem test_wf_units : (Instr.cipherJobComplete 5#3).wf = false ∧ (Instr.jobAbort 5#3).wf = false
    ∧ (Instr.meterSample 0#3 0#32 0#32).wf = false ∧ (Instr.meterSample 6#3 0#32 0#32).wf = false
    ∧ (Instr.ledgerLowRead .dbg 11#5).wf = false ∧ (Instr.ledgerHighRead .dbg 15#5).wf = false
    ∧ (Instr.stirrupMatch [] 0#6).wf = false ∧ (Instr.recoveryFrame [0x5A#8, 0xA5#8]).wf = false
    ∧ (Instr.debugUnlock 0#8 (List.replicate 64 0#8) []).wf = false
      ∧ (Instr.debugUnlock 0#8 [] (List.replicate 64 0#8)).wf = false := by
  decide

/-! ## Worked examples of the spec -/

/-- The answer register of the coprocessor instructions on core 0: step through them and read xrd. -/
def after (cs : List Instr) (s : State) : State :=
  cs.foldl (fun t c => match exec c t with
    | .next u => u
    | _ => t) s

/-- R246's example: CRC_INIT, two CRC32_W and a CRC32_B answer the check value of R135. -/
theorem test_crc32_example : ((after [.crcInit (.eng 0) p0 0#5 1#5 0#5, .crc32W (.eng 0) p0 0#5 2#5 0#5,
    .crc32W (.eng 0) p0 0#5 3#5 0#5, .crc32B (.eng 0) p0 5#5 4#5 0#5, .copAnswer (.eng 0)] (withCore 0 { core with
      xs := [(1, 0xFFFFFFFF#32), (2, 0x34333231#32), (3, 0x38373635#32), (4,
          0x39#32)] })).eng 0).x 5 = 0xCBF43926#32 := by
  decide +kernel

/-- R246's example: GOLAY_ENC of 0x234, the header of the PHY chapter's example. -/
theorem test_golay_example : ((after [.golayEnc (.eng 0) p0 5#5 1#5 0#5,
    .copAnswer (.eng 0)] (sAt 0x234#32)).eng 0).x 5 = 0x00234055#32 := by
  decide +kernel

/-- The PHY chapter's N3 example: whitening, codewords, parity; and the airtimes of the examples of chapters 5, 6, 8,
18. -/
theorem test_phy_examples : pn9Whiten 0x1FF [0x01#8, 0x2C#8, 0x00#8] = [0xFE#8, 0xCD#8, 0x1D#8] ∧ codewords 1 52 = 2
    ∧ cwBytes 52 2 0 = 26 ∧ cwBytes 52 2 1 = 26 ∧ airThirds 2 1 52 = 3 * 9520000 ∧ airThirds 1 0 32 = 3 * 13760000
    ∧ airThirds 2 1 32 = 3 * 6320000 ∧ airThirds 1 6 24 = 3 * 18880000 ∧ airThirds 1 7 32 = 3 * 18880000
    ∧ airThirds 2 1 84 = 3 * 14640000 ∧ codewords 1 84 = 3 ∧ dutyUnits 2 1 84 8 = 1466 ∧ dutyUnits 6 0 17 8 = 8338 := by
  decide +kernel

/-- The nonce example of chapter 6. -/
theorem test_nonce_example :
    ({ fc := 0x1090, seq := 0, src := 0x00123456, dst := 0xFFFE0011, ctr := 500, len := 32 } : Frame).nonce
    = [0x00#8, 0x12#8, 0x34#8, 0x56#8, 0x00#8, 0x00#8, 0x01#8, 0xF4#8, 0xFF#8, 0xFE#8, 0x00#8, 0x11#8,
        0x01#8] := by decide +kernel

/-- The set of the meter in chapter 8's example, and the address of its way 5. -/
theorem test_nodeSet_example : (with' State.reset [(fTABLE_CFG_hash_salt, 0x1A2B)]).nodeSet 0x00123456 = 0x2E35
    ∧ nodeAddr 0x2E35 5 = 0x042E35A0 := by decide +kernel

/-- MARGIN, the DTAB routine of chapter 9's example: clamp((rs1 − rs2) >> 2, 0, 255). -/
theorem test_margin_example :
    let word (t : State) (i v : Nat) : State := t.setNum (dtabKey 0 (4 * i)) 4 v
    let tab := word (word (word (word (word s0 2 0x80000610) 16 0x044A0000) 17 0x200E0002) 18 0x2C0E0000) 19 0x2A0E00FF
    let run (a b : Word) : Word := ((after [.dtab (.eng 0) p0 5#5 1#5 2#5 2#4 0#3] (tab.setEng 0 { core with
      xs := [(1, a), (2, b)] })).eng 0).x 5
    run 420#32 20#32 = 100#32 ∧ run 20#32 420#32 = 0#32 ∧ run 0x4000#32 0#32 = 255#32 := by decide +kernel

/-- The double-bit error of chapter 14's example: the load gets 0 and the store is dropped; both are reported. -/
theorem test_double_bit_example :
    let e : Engine := { core with xs := [(4, 0x02301200#32), (5, 7#32)] }
    let s := with' (withCore 20 e) [(fENGCTL_CL_owned 2, 1), (fENGCTL_CL_tenant 2, 2), (fTENANT_RFENCE_valid 0 2, 1),
      (fTENANT_RFENCE_write 0 2, 1), (fTENANT_RFENCE_tenant 0 2, 2), (fTENANT_RFENCE_first 0 2, 40),
          (fTENANT_RFENCE_last 0 2, 71),
      (fTENANT_CFG_declared 2, 1), (fSYS_TENANT_RUN_started, 4)]
    let s := s.setFlip 0x02301238 3#72
    let load := after [.lw (.eng 20) p0 5#5 4#5 0x3C#12] s
    let store := after [.sw (.eng 20) p0 5#5 4#5 0x3C#12] s
    load.fget (fMEM_CNT_uncorrectable 2) = 1 ∧ (load.eng 20).outs.map OutAcc.kind = [.load 0 5 0#32]
    ∧ store.reg aMEM_ECC_LAST_w1 = 0x29400000#32 ∧ store.bytes 0x0230123C 4 = s.bytes 0x0230123C 4 := by decide +kernel

/-- The decision of pole 18 in chapter 7's example: a step of −3.2 ms in HOLDOVER. -/
theorem test_cinch_example :
    let s := with' (cin (400000000 * tuNs) (fun c => { c with sources :=
        [(1, { last := -3200000, offs := [-3200000], qualified := true, fresh := true, stratum := 1 }), (2, { fresh := true }), (3,
            { fresh := true }),
         (4, { fresh := true })] })) [(fCINCH_STATUS_state, 3), (fCINCH_CTRL_src_en, 15)]
    let t := after [.cinchDecision] s
    t.cinch.adj = -3200000 ∧ t.frameLen = 996800000 ∧ t.cinchState = 1
        ∧ t.fget fCINCH_COUNT_steps = 1 := by decide +kernel

/-- Timer 6 of chapter 16's example at 59,999 on the way up: the second match of the half sets double. -/
theorem test_timer_example :
    let s := pk [(⟨aTMR_CFG 6, 31, 1⟩, 1), (fTMR_CFG_notify 6, 3)] (fun q => q)
    let s : State := { s with timers := { s.timers with tab :=
      [(6, { count := 59999, reload := 100000, cmp := 60000, matched := true })] } }
    let t := after [.timerStep 6#4 0#6] s
    (t.timer 6).count = 60000 ∧ t.fon (fTMR_STATUS_double 6) = true ∧ t.flight.length = 1 := by decide +kernel

end Sys2Proof.Machine.Tests
end

section
/-!
PROOFS. What every command keeps: the queue, the variant, the fuses and the canonical form. One lemma for each
function of the model that answers a state says that it keeps what the state it is given has kept (`State.Kept`); the
lemmas stand in the order of the model's files and each cites those of the functions it calls. Memory and register
table change in `setReg`, `setByte`, `fill`, `copyRange` and `powerCut` alone, so these five carry the content.
-/

-- The lemmas are many and short; elaborated one after another they do not take a thread each.
set_option Elab.async false

namespace Sys2Proof.Machine

/-- What every command keeps of the state u that it began with: the queue, the variant and the fuses are those of u, and
the canonical form holds if it held in u. -/
structure State.Kept (u s : State) : Prop where
  pending : s.pending = u.pending
  variant : s.variant = u.variant
  fuses : s.fuses = u.fuses
  canon : u.Canon → s.Canon

/-- The state that an outcome answers, if it answers one, keeps what u had. -/
def State.KeptIn (u : State) : Host.Outcome State Fault Refusal → Prop
  | .next t => u.Kept t
  | _ => True

/-- The state that an instruction leaves, where it need not wait, keeps what u had. -/
def State.KeptOpt (u : State) : Option State → Prop
  | some t => u.Kept t
  | none => True

namespace State

variable {u s : State}

/-! ## Shapes of the model's definitions -/

theorem Kept.refl (s : State) : s.Kept s := ⟨rfl, rfl, rfl, id⟩

/-- A record update that names neither memory nor registers, queue, variant or fuses. -/
theorem Kept.same {t : State} (hs : u.Kept s) (hm : t.mem = s.mem := by rfl) (hr : t.regs = s.regs := by rfl)
    (hp : t.pending = s.pending := by rfl) (hv : t.variant = s.variant := by rfl) (hf : t.fuses = s.fuses := by rfl) :
    u.Kept t :=
  ⟨hp.trans hs.pending, hv.trans hs.variant, hf.trans hs.fuses, fun h => canon_of_same hm hr (hs.canon h)⟩

/-- A choice; g is where its answer holds the state. -/
theorem Kept.iteAt {β : Type} (g : β → State) {c : Prop} [Decidable c] {a b : β} (ha : u.Kept (g a))
    (hb : u.Kept (g b)) : u.Kept (g (if c then a else b)) := by
  split
  · exact ha
  · exact hb

theorem Kept.ite {c : Prop} [Decidable c] {a b : State} (ha : u.Kept a) (hb : u.Kept b) :
    u.Kept (if c then a else b) := .iteAt id ha hb

theorem Kept.iteFst {α : Type} {c : Prop} [Decidable c] {a b : State × α} (ha : u.Kept a.1) (hb : u.Kept b.1) :
    u.Kept (if c then a else b).1 := .iteAt Prod.fst ha hb

theorem Kept.iteSnd {α : Type} {c : Prop} [Decidable c] {a b : α × State} (ha : u.Kept a.2) (hb : u.Kept b.2) :
    u.Kept (if c then a else b).2 := .iteAt Prod.snd ha hb

theorem Kept.iteThird {α β : Type} {c : Prop} [Decidable c] {a b : α × β × State} (ha : u.Kept a.2.2)
    (hb : u.Kept b.2.2) : u.Kept (if c then a else b).2.2 := .iteAt (fun p : α × β × State => p.2.2) ha hb

theorem Kept.iff {b : Bool} {f : State → State} (hs : u.Kept s) (hf : ∀ t, u.Kept t → u.Kept (f t)) :
    u.Kept (s.iff b f) := .ite (hf s hs) hs

/-- A fold whose every step keeps it; g is where the accumulator holds the state. -/
theorem Kept.foldlAt {α β : Type} (g : β → State) {f : β → α → β} {l : List α} {b : β} (hb : u.Kept (g b))
    (hf : ∀ b a, u.Kept (g b) → u.Kept (g (f b a))) : u.Kept (g (l.foldl f b)) :=
  List.foldlRecOn (motive := fun b => u.Kept (g b)) l f hb fun b hb a _ => hf b a hb

theorem Kept.foldl {α : Type} {l : List α} {f : State → α → State} (hs : u.Kept s)
    (hf : ∀ t x, u.Kept t → u.Kept (f t x)) : u.Kept (l.foldl f s) := .foldlAt id hs hf

/-! A state built into a pair, and one that a match takes out of a pair. -/

theorem Kept.fst {α : Type} {x : α} (hs : u.Kept s) : u.Kept (s, x).1 := hs

theorem Kept.snd {α : Type} {x : α} (hs : u.Kept s) : u.Kept (x, s).2 := hs

theorem Kept.third {α β : Type} {x : α} {y : β} (hs : u.Kept s) : u.Kept (x, y, s).2.2 := hs

theorem Kept.ofSnd {α : Type} {p : α × State} {a : α} (e : p = (a, s)) (h : u.Kept p.2) : u.Kept s := by
  subst e; exact h

theorem Kept.ofFst {α : Type} {p : State × α} {a : α} (e : p = (s, a)) (h : u.Kept p.1) : u.Kept s := by
  subst e; exact h

theorem Kept.ofThird {α β : Type} {p : α × β × State} {a : α} {b : β} (e : p = (a, b, s)) (h : u.Kept p.2.2) :
    u.Kept s := by
  subst e; exact h

/-! An instruction that may have to wait, and a read that may have no special answer. -/

theorem Kept.opt (hs : u.Kept s) : u.KeptOpt (some s) := hs

theorem KeptOpt.none : u.KeptOpt none := trivial

theorem KeptOpt.ite {c : Prop} [Decidable c] {a b : Option State} (ha : u.KeptOpt a) (hb : u.KeptOpt b) :
    u.KeptOpt (if c then a else b) := by
  split
  · exact ha
  · exact hb

theorem Kept.ofSome {o : Option State} (e : o = some s) (h : u.KeptOpt o) : u.Kept s := by
  subst e; exact h

theorem KeptOpt.map {α : Type} {o : Option α} {g f : α → State} (h : u.KeptOpt (o.map g))
    (hf : ∀ a, u.Kept (g a) → u.Kept (f a)) : u.KeptOpt (o.map f) := by
  cases o with
  | none => exact .none
  | some a => exact hf a h

theorem KeptOpt.iteMap {α : Type} {c : Prop} [Decidable c] {a b : Option α} {g : α → State}
    (ha : u.KeptOpt (a.map g)) (hb : u.KeptOpt (b.map g)) : u.KeptOpt ((if c then a else b).map g) := by
  split
  · exact ha
  · exact hb

theorem Kept.ofMap {α : Type} {o : Option α} {g : α → State} {a : α} (e : o = some a) (h : u.KeptOpt (o.map g)) :
    u.Kept (g a) := by
  subst e; exact h

/-! ## The writes of memory and registers -/

theorem Kept.setReg {a w} (hs : u.Kept s) : u.Kept (s.setReg a w) :=
  ⟨hs.pending, hs.variant, hs.fuses, fun h => canon_setReg a w (hs.canon h)⟩

theorem Kept.setByte {k b} (hs : u.Kept s) : u.Kept (s.setByte k b) :=
  ⟨hs.pending, hs.variant, hs.fuses, fun h => canon_setByte k b (hs.canon h)⟩

theorem Kept.setBytes {k bs} (hs : u.Kept s) : u.Kept (s.setBytes k bs) := by
  induction bs generalizing s k with
  | nil => exact hs
  | cons b bs ih => exact ih hs.setByte

theorem Kept.fill {lo hi} (hs : u.Kept s) : u.Kept (s.fill lo hi) :=
  ⟨hs.pending, hs.variant, hs.fuses, fun h => canon_fill lo hi (hs.canon h)⟩

theorem Kept.copyRange {dst src n} (hs : u.Kept s) : u.Kept (s.copyRange dst src n) :=
  ⟨hs.pending, hs.variant, hs.fuses, fun h => canon_copyRange dst src n (hs.canon h)⟩

/-- A filter of memory and registers, with the rest of what is kept. -/
theorem Kept.filter {t : State} (hs : u.Kept s) (p : Host.Cell → Bool) (q : Nat × Word → Bool)
    (hm : t.mem = s.mem.filter p) (hr : t.regs = s.regs.filter q) (hp : t.pending = s.pending := by rfl)
    (hv : t.variant = s.variant := by rfl) (hf : t.fuses = s.fuses := by rfl) : u.Kept t :=
  ⟨hp.trans hs.pending, hv.trans hs.variant, hf.trans hs.fuses, fun h => canon_filter p q hm hr (hs.canon h)⟩

/-! ## Shared operations (Machine/Ops) -/

theorem Kept.fset {f v} (hs : u.Kept s) : u.Kept (s.fset f v) := hs.setReg

theorem Kept.fadd {f n} (hs : u.Kept s) : u.Kept (s.fadd f n) := hs.fset

theorem Kept.finc {f} (hs : u.Kept s) : u.Kept (s.finc f) := hs.fadd

theorem Kept.fsat {f} (hs : u.Kept s) : u.Kept (s.fsat f) := hs.fset

theorem Kept.free {w} (hs : u.Kept s) : u.Kept (s.free w).2 := hs.same.snd

theorem Kept.setEng {n e} (hs : u.Kept s) : u.Kept (s.setEng n e) := hs.same

theorem Kept.modEng {n f} (hs : u.Kept s) : u.Kept (s.modEng n f) := hs.setEng

theorem Kept.modClu {c f} (hs : u.Kept s) : u.Kept (s.modClu c f) := hs.same

theorem Kept.setNum {k n v} (hs : u.Kept s) : u.Kept (s.setNum k n v) := hs.setBytes

theorem Kept.setFlip {k f} (hs : u.Kept s) : u.Kept (s.setFlip k f) := hs.same

theorem Kept.setWord64 {k v mask} (hs : u.Kept s) : u.Kept (s.setWord64 k v mask) := hs.setNum.setFlip

theorem Kept.logAdd {code tenant engine d0 d1 d2 d3} (hs : u.Kept s) :
    u.Kept (s.logAdd code tenant engine d0 d1 d2 d3) :=
  .ite hs.same.finc hs.fsat

theorem Kept.logHw {code d0 d1 d2} (hs : u.Kept s) : u.Kept (s.logHw code d0 d1 d2) := hs.logAdd

theorem Kept.post {target kind low w1 w2 w3} (hs : u.Kept s) : u.Kept (s.post target kind low w1 w2 w3) := hs.same

theorem Kept.postTenant {t kind low w1 w2 w3} (hs : u.Kept s) : u.Kept (s.postTenant t kind low w1 w2 w3) :=
  .ite hs.post hs

theorem Kept.postRefused {t cause write engine addr} (hs : u.Kept s) :
    u.Kept (s.postRefused t cause write engine addr) :=
  hs.postTenant

theorem Kept.alarm {source detail w1} (hs : u.Kept s) : u.Kept (s.alarm source detail w1) := hs.post

theorem Kept.refuseFence {t engine addr write target} (hs : u.Kept s) :
    u.Kept (s.refuseFence t engine addr write target) := by
  unfold State.refuseFence
  extract_lets s1 _ s2
  have hs1 : u.Kept s1 := hs.postRefused
  have hs2 : u.Kept s2 := .ite hs1.same.logAdd hs1
  exact hs2.finc

theorem Kept.noteCorrected {k} (hs : u.Kept s) : u.Kept (s.noteCorrected k) := by
  unfold State.noteCorrected
  extract_lets s1
  have hs1 : u.Kept s1 := hs.finc
  exact .ite hs1 hs1.same

theorem Kept.noteBad {k addr reader write} (hs : u.Kept s) : u.Kept (s.noteBad k addr reader write) := by
  unfold State.noteBad
  extract_lets m owner s1 _ s2
  have hs1 : u.Kept s1 := hs.finc.fset.fset.fset.fset.fset
  clear_value s1 owner
  have hs2 : u.Kept s2 := .ite (Kept.logAdd hs1.same) hs1
  split
  · exact .ite hs2.postRefused hs2
  · exact hs2

theorem Kept.readWord {k addr reader} (hs : u.Kept s) : u.Kept (s.readWord k addr reader).2.2 := by
  unfold State.readWord
  split
  · exact hs
  · exact hs.noteCorrected.third
  · exact hs.noteBad.third

theorem Kept.readWords {k n reader} (hs : u.Kept s) : u.Kept (s.readWords k n reader).2.2 := by
  induction n generalizing s k with
  | zero => exact hs
  | succ n ih => exact ih hs.readWord

theorem Kept.readBytes {k n reader} (hs : u.Kept s) : u.Kept (s.readBytes k n reader).2.2 := by
  unfold State.readBytes
  extract_lets k0 r
  have hr : u.Kept r.2.2 := hs.readWords
  exact hr.third

theorem Kept.writePart {k n v addr reader mask} (hs : u.Kept s) : u.Kept (s.writePart k n v addr reader mask).1 := by
  unfold State.writePart
  extract_lets
  split
  · exact hs.noteBad.fst
  · extract_lets s1
    have hs1 : u.Kept s1 := .ite hs.noteCorrected hs
    exact hs1.setNum.setNum.setFlip.fst

theorem Kept.writeWordsB {k bs fuel} (hs : u.Kept s) : u.Kept (s.writeWordsB k bs fuel) := by
  induction fuel generalizing s k bs with
  | zero => exact hs
  | succ fuel ih => exact .ite hs (ih (.ite hs.setWord64 hs.writePart))

theorem Kept.writeBytes {k bs} (hs : u.Kept s) : u.Kept (s.writeBytes k bs) := hs.writeWordsB

/-! ## Latigo links and transactions (Machine/Links) -/

theorem Kept.setTxns {n xs} (hs : u.Kept s) : u.Kept (s.setTxns n xs) := hs.same.fset.fset

theorem Kept.txnStart {n toward} (hs : u.Kept s) : u.Kept (s.txnStart n toward).2 := by
  unfold State.txnStart
  extract_lets k _ s1
  have hs1 : u.Kept s1 := hs.same
  exact hs1.setTxns.snd

theorem Kept.linkLeave {n} (hs : u.Kept s) : u.Kept (s.linkLeave n) := hs.same

theorem Kept.linkHold {n l} (hs : u.Kept s) : u.Kept (s.linkHold n l) := by
  unfold State.linkHold
  split
  · exact hs
  · refine .ite hs ?_
    extract_lets s1
    have hs1 : u.Kept s1 := hs.linkLeave
    exact hs1.same

theorem Kept.linkTake {l} (hs : u.Kept s) : u.Kept (s.linkTake l).2 := by
  unfold State.linkTake
  split
  · exact hs.txnStart.snd
  · exact hs

theorem Kept.linkEnter {n l} (hs : u.Kept s) : u.Kept (s.linkEnter n l).2 := by
  unfold State.linkEnter
  split
  · exact hs.linkLeave.linkTake
  · exact hs

theorem Kept.linkDone {t} (hs : u.Kept s) : u.Kept (s.linkDone t) := by
  unfold State.linkDone
  split
  · exact hs.setTxns
  · exact hs

/-! ## Accesses of masters (Machine/Access) -/

theorem Kept.regGate {m a k} (hs : u.Kept s) (hk : ∀ t, u.Kept t → u.Kept (k t)) : u.Kept (s.regGate m a k) :=
  .ite (hk _ hs) (.ite hs.refuseFence hs)

theorem Kept.regGateRead {m a k} (hs : u.Kept s) (hk : ∀ t, u.Kept t → u.Kept (k t)) :
    u.Kept (s.regGateRead m a k) :=
  .ite (hk _ hs) (.ite hs.refuseFence hs)

/-! ## Node table and node accounts (Machine/NodeTab) -/

theorem Kept.nodeRead {a} (hs : u.Kept s) : u.Kept (s.nodeRead a).2 := by
  unfold State.nodeRead
  extract_lets r
  have hr : u.Kept r.2.2 := hs.readWords
  exact hr.snd

theorem Kept.nodeWrite {a n} (hs : u.Kept s) : u.Kept (s.nodeWrite a n) := hs.writeBytes

theorem Kept.nodeWays {set w k} (hs : u.Kept s) : u.Kept (s.nodeWays set w k).2 := by
  induction k generalizing s w with
  | zero => exact hs
  | succ k ih => exact ih hs.nodeRead

theorem Kept.nodeLookup {id} (hs : u.Kept s) : u.Kept (s.nodeLookup id).2 := by
  unfold State.nodeLookup
  extract_lets set r
  have hr : u.Kept r.2 := hs.nodeWays
  exact hr.snd

theorem Kept.sweepWay {a} (hs : u.Kept s) : u.Kept (s.sweepWay a) := by
  unfold State.sweepWay
  extract_lets r m s1
  have hr : u.Kept r.2 := hs.nodeRead
  have hs1 : u.Kept s1 := hr.nodeWrite
  exact .ite (.ite hs1 hs1.finc) hr

theorem Kept.execSweepStep (hs : u.Kept s) : u.KeptIn (execSweepStep s) := by
  unfold Machine.execSweepStep
  refine hs.iff fun t h => ?_
  extract_lets set t1
  have ht1 : u.Kept t1 := h.foldl fun _ _ h1 => h1.sweepWay
  exact ht1.same

theorem Kept.acctTouch {n} (hs : u.Kept s) : u.Kept (s.acctTouch n).2 := by
  unfold State.acctTouch
  extract_lets r s1
  have hr : u.Kept r.2.2 := hs.readWords
  have hs1 : u.Kept s1 := .ite hr hr.logHw
  exact hs1.snd

theorem Kept.acctPut {n a} (hs : u.Kept s) : u.Kept (s.acctPut n a) := hs.writeBytes

theorem Kept.acctCharge {n a uj} (hs : u.Kept s) : u.Kept (s.acctCharge n a uj).2 := by
  unfold State.acctCharge
  extract_lets f r
  have hf : u.Kept f.2 := hs.free
  have hr : u.Kept r.2 := hf.free
  exact hr.acctPut.snd

theorem Kept.acctCredit {n uj day mj} (hs : u.Kept s) : u.Kept (s.acctCredit n uj day mj) := by
  unfold State.acctCredit
  extract_lets r
  have hr : u.Kept r.2 := hs.acctTouch
  exact hr.acctPut

/-! ## Duty accounts, admission agent and ledgers (Machine/Agent) -/

theorem Kept.dutyAdd {n b t x urgent} (hs : u.Kept s) : u.Kept (s.dutyAdd n b t x urgent) := hs.same

theorem Kept.dutyCredit {n b t x urgent} (hs : u.Kept s) : u.Kept (s.dutyCredit n b t x urgent) := hs.same

theorem Kept.dutyAdmit {n t x urgent} (hs : u.Kept s) : u.Kept (s.dutyAdmit n t x urgent).2 :=
  .iteSnd hs.dutyAdd.snd (.iteSnd hs.fsat.snd hs.fsat.snd)

theorem Kept.modAgent {f} (hs : u.Kept s) : u.Kept (s.modAgent f) := hs.same

theorem Kept.agentAdd {t e} (hs : u.Kept s) : u.Kept (s.agentAdd t e) := hs.modAgent

theorem Kept.girthAdmit {t e urgent exempt} (hs : u.Kept s) : u.Kept (s.girthAdmit t e urgent exempt).2 := by
  unfold State.girthAdmit
  extract_lets a g c tp
  have htp : u.Kept tp := hs.finc
  exact .iteSnd hs.agentAdd.snd (.iteSnd hs.finc.snd htp.same.snd)

theorem Kept.set64 {lo hi v} (hs : u.Kept s) : u.Kept (s.set64 lo hi v) := hs.fset.fset

theorem Kept.setLedger {k v} (hs : u.Kept s) : u.Kept (s.setLedger k v) := hs.set64

theorem Kept.setTledger {t v} (hs : u.Kept s) : u.Kept (s.setTledger t v) := hs.set64

theorem Kept.girthCredit {t e frame} (hs : u.Kept s) : u.Kept (s.girthCredit t e frame) :=
  .ite hs.modAgent hs.setLedger.setTledger

theorem Kept.execAgentMessage (hs : u.Kept s) : u.KeptIn (execAgentMessage s) := by
  unfold Machine.execAgentMessage
  split
  · exact hs
  · exact hs.modAgent

/-! ## Task slots and faults (Machine/Slots) -/

theorem Kept.ready {n p k cancel} (hs : u.Kept s) : u.Kept (s.ready n p k cancel) := by
  unfold State.ready
  extract_lets sa
  have hsa : u.Kept sa := hs.modEng
  exact hsa.same

theorem Kept.readyAll {n ps k cancel} (hs : u.Kept s) : u.Kept (s.readyAll n ps k cancel) := by
  unfold State.readyAll
  extract_lets sa
  have hsa : u.Kept sa := hs.modEng
  exact hsa.same

theorem Kept.engFault {n cause addr} (hs : u.Kept s) : u.Kept (s.engFault n cause addr) := by
  unfold State.engFault
  extract_lets e old rec' sa s1 low s2
  have hsa : u.Kept sa := hs.setEng
  have hs1 : u.Kept s1 := hsa.same
  have hs2 : u.Kept s2 := .ite hs1 hs1.post
  exact .ite hs1 hs2.post

theorem Kept.restartEng {n} (hs : u.Kept s) : u.Kept (s.restartEng n) := hs.copyRange.modEng

theorem Kept.restartEngs {ns} (hs : u.Kept s) : u.Kept (s.restartEngs ns) := hs.foldl fun _ _ h => h.restartEng

theorem Kept.stopEng {n} (hs : u.Kept s) : u.Kept (s.stopEng n) := hs.modEng

/-! ## Engine runtime (Machine/Runtime) -/

theorem Kept.taskCfgWrite {n p v} (hs : u.Kept s) : u.Kept (s.taskCfgWrite n p v) := by
  unfold State.taskCfgWrite
  extract_lets sa
  have hsa : u.Kept sa := hs.modEng
  exact hsa.same

theorem Kept.taskCtrlWrite {n v} (hs : u.Kept s) : u.Kept (s.taskCtrlWrite n v) := by
  unfold State.taskCtrlWrite
  extract_lets sa
  have hsa : u.Kept sa := hs.modEng
  exact hsa.same

theorem Kept.execTaskCfgWrite {c p v} (hs : u.Kept s) : u.KeptIn (execTaskCfgWrite c p v s) :=
  hs.iff fun _ h => h.taskCfgWrite

theorem Kept.execTaskSignal {c signal cancel} (hs : u.Kept s) : u.KeptIn (execTaskSignal c signal cancel s) :=
  hs.iff fun _ h => h.taskCtrlWrite

theorem Kept.execTaskCancel {c cancel} (hs : u.Kept s) : u.KeptIn (execTaskCancel c cancel s) :=
  hs.iff fun _ h => h.taskCtrlWrite

theorem Kept.msgDone {m} (hs : u.Kept s) : u.Kept (s.msgDone m) := by
  unfold State.msgDone
  split
  · exact hs
  · extract_lets mine s1
    have hs1 : u.Kept s1 := hs.linkDone
    exact hs1.modEng

theorem Kept.noticeIn {n slots src} (hs : u.Kept s) : u.Kept (s.noticeIn n slots src).1 := by
  unfold State.noticeIn
  split
  · exact hs
  · extract_lets s1
    have hs1 : u.Kept s1 := hs.same.msgDone
    exact .iteFst hs1.fst hs1.modEng.fst

theorem Kept.execNoticeArrival {c srcs cancel} (hs : u.Kept s) : u.KeptIn (execNoticeArrival c srcs cancel s) := by
  unfold Machine.execNoticeArrival
  extract_lets n r
  have hr : u.Kept r.1 := .foldlAt Prod.fst hs fun _ _ h => h.noticeIn
  exact Kept.ite hr hr.readyAll

theorem Kept.execNqPop {c} (hs : u.Kept s) : u.KeptIn (execNqPop c s) := hs.iff fun _ h => h.modEng

theorem Kept.msgPost {n v} (hs : u.Kept s) : u.Kept (s.msgPost n v) := by
  unfold State.msgPost
  extract_lets e dst allowed link q x f o sa
  have hq : u.Kept q.2 := hs.linkTake
  have hsa : u.Kept sa := hq.setEng
  exact .ite hs.refuseFence (.ite hs hsa.same)

theorem Kept.execMsgPost {c v} (hs : u.Kept s) : u.KeptIn (execMsgPost c v s) := hs.iff fun _ h => h.msgPost

theorem Kept.haltLoad {c us} (hs : u.Kept s) : u.Kept (s.haltLoad c us) := hs.modClu

theorem Kept.haltRun {c on} (hs : u.Kept s) : u.Kept (s.haltRun c on) := hs.modClu

theorem Kept.haltSync {c} (hs : u.Kept s) : u.Kept (s.haltSync c) := hs.haltRun

theorem Kept.dbgHold {n on} (hs : u.Kept s) : u.Kept (s.dbgHold n on) := by
  unfold State.dbgHold
  extract_lets s1
  have hs1 : u.Kept s1 := hs.modEng
  exact (Kept.ite hs1 hs1.modEng).haltSync

theorem Kept.haltSvc {c v} (hs : u.Kept s) : u.Kept (s.haltSvc c v) := .ite (.ite hs hs.haltLoad) hs.fsat

theorem Kept.execHaltSvc {c v} (hs : u.Kept s) : u.KeptIn (execHaltSvc c v s) := hs.iff fun _ h => h.haltSvc

theorem Kept.execClusterHalterExpiry {cl} (hs : u.Kept s) : u.KeptIn (execClusterHalterExpiry cl s) :=
  hs.iff fun _ h => h.restartEngs.haltLoad.fsat.alarm.logAdd

theorem Kept.supHaltSvc {v} (hs : u.Kept s) : u.Kept (s.supHaltSvc v) := .ite hs.haltLoad hs

theorem Kept.execSupHaltSvc {v} (hs : u.Kept s) : u.KeptIn (execSupHaltSvc v s) := hs.iff fun _ h => h.supHaltSvc

theorem Kept.engRestartWrite {n v} (hs : u.Kept s) : u.Kept (s.engRestartWrite n v) := .ite hs.restartEngs hs

theorem Kept.execEngRestart {c v} (hs : u.Kept s) : u.KeptIn (execEngRestart c v s) :=
  hs.iff fun _ h => h.engRestartWrite

theorem Kept.execEngctlStop {e} (hs : u.Kept s) : u.KeptIn (execEngctlStop e s) := hs.stopEng

theorem Kept.execEngctlRestart {e} (hs : u.Kept s) : u.KeptIn (execEngctlRestart e s) :=
  hs.iff fun _ h => h.restartEng

theorem Kept.modWin {n f} (hs : u.Kept s) : u.Kept (s.modWin n f) := hs.modEng

theorem Kept.idataLoWrite {n v} (hs : u.Kept s) : u.Kept (s.idataLoWrite n v) := .ite hs (.ite hs.modWin hs.modWin)

theorem Kept.idataHiWrite {n v} (hs : u.Kept s) : u.Kept (s.idataHiWrite n v) :=
  .ite hs (.ite hs.setWord64.modWin hs.modWin)

theorem Kept.idataLoRead {n} (hs : u.Kept s) : u.Kept (s.idataLoRead n).2 := by
  unfold State.idataLoRead
  extract_lets k r
  have hr : u.Kept r.2.2 := hs.readWord
  exact .iteSnd hs hr.modWin.snd

theorem Kept.idataHiRead {n} (hs : u.Kept s) : u.Kept (s.idataHiRead n).2 := .iteSnd hs.modWin.snd hs

theorem Kept.execIdataLoWrite {e v} (hs : u.Kept s) : u.KeptIn (execIdataLoWrite e v s) := hs.idataLoWrite

theorem Kept.execIdataHiWrite {e v} (hs : u.Kept s) : u.KeptIn (execIdataHiWrite e v s) := hs.idataHiWrite

theorem Kept.execIdataLoRead {e} (hs : u.Kept s) : u.KeptIn (execIdataLoRead e s) := hs.idataLoRead

theorem Kept.execIdataHiRead {e} (hs : u.Kept s) : u.KeptIn (execIdataHiRead e s) := hs.idataHiRead

theorem Kept.tprioWrite {t v} (hs : u.Kept s) : u.Kept (s.tprioWrite t v) := by
  unfold State.tprioWrite
  refine .ite hs ?_
  extract_lets s1
  have hs1 : u.Kept s1 := hs.fset
  exact hs1.same

theorem Kept.execTprioWrite {t v} (hs : u.Kept s) : u.KeptIn (execTprioWrite t v s) := hs.tprioWrite

theorem Kept.engFlipArm {n v} (hs : u.Kept s) : u.Kept (s.engFlipArm n v) := hs.modEng

theorem Kept.execEngFlipArm {c v} (hs : u.Kept s) : u.KeptIn (execEngFlipArm c v s) :=
  hs.iff fun _ h => h.engFlipArm

theorem Kept.fenceErr (hs : u.Kept s) : u.Kept s.fenceErr := hs.fset

theorem Kept.rfenceWrite {r e v} (hs : u.Kept s) : u.Kept (s.rfenceWrite r e v) := by
  unfold State.rfenceWrite
  extract_lets n t l f s1
  have hs1 : u.Kept s1 := hs.setReg
  exact .ite hs (.ite hs (.ite hs.fenceErr hs1))

theorem Kept.sfenceWrite {e v} (hs : u.Kept s) : u.Kept (s.sfenceWrite e v) := by
  unfold State.sfenceWrite
  extract_lets n t sp l f s1
  have hs1 : u.Kept s1 := hs.setReg
  exact .ite hs (.ite hs.fenceErr hs1)

theorem Kept.execFenceWrite {sys r e v} (hs : u.Kept s) : u.KeptIn (execFenceWrite sys r e v s) :=
  Kept.ite hs.sfenceWrite hs.rfenceWrite

/-! ## Trace (Machine/Trace) -/

theorem Kept.traceBranch {target} (hs : u.Kept s) : u.Kept (s.traceBranch target) := .ite hs.same hs

/-! ## Instructions without memory and ports (Machine/Alu) -/

theorem Kept.issue {c p illegal uses k extra held} (hs : u.Kept s) (hk : ∀ x1 t, u.Kept t → u.KeptOpt (k x1 t))
    (hheld : ∀ t, u.Kept t → u.Kept (held t)) : u.Kept (issue c p illegal uses k s extra held) := by
  unfold Machine.issue
  extract_lets
  refine .ite hs (.ite hs.engFault ?_)
  split
  · exact hs.noteBad.engFault
  · extract_lets s1
    have hs1 : u.Kept s1 := .ite hs.noteCorrected hs
    refine .ite hs1.engFault (.ite hs (.ite ?_ hs1.setEng))
    split
    next t e =>
      have ht : u.Kept t := .ofSome e (hk _ _ hs1.setEng)
      exact .ite ht.modEng ht
    · exact hheld _ hs

theorem Kept.issueE {c p illegal uses k extra} (hs : u.Kept s) : u.Kept (issueE c p illegal uses k s extra) :=
  hs.issue (fun _ _ h => h.setEng.opt) (fun _ h => h)

theorem Kept.aluOne {c p rd rs1 f} (hs : u.Kept s) : u.Kept (aluOne c p rd rs1 f s) := hs.issueE

theorem Kept.aluTwo {c p rd rs1 rs2 f} (hs : u.Kept s) : u.Kept (aluTwo c p rd rs1 rs2 f s) := hs.issueE

theorem Kept.compare {c p pd comb cond uses a b} (hs : u.Kept s) : u.Kept (compare c p pd comb cond uses a b s) :=
  hs.issueE

theorem Kept.mulIssue {c p uses op} (hs : u.Kept s) : u.Kept (mulIssue c p uses op s) := hs.issueE

theorem Kept.execAddi {c p rd rs1 imm} (hs : u.Kept s) : u.KeptIn (execAddi c p rd rs1 imm s) := hs.aluOne

theorem Kept.execAndi {c p rd rs1 imm} (hs : u.Kept s) : u.KeptIn (execAndi c p rd rs1 imm s) := hs.aluOne

theorem Kept.execOri {c p rd rs1 imm} (hs : u.Kept s) : u.KeptIn (execOri c p rd rs1 imm s) := hs.aluOne

theorem Kept.execXori {c p rd rs1 imm} (hs : u.Kept s) : u.KeptIn (execXori c p rd rs1 imm s) := hs.aluOne

theorem Kept.execSlti {c p rd rs1 imm} (hs : u.Kept s) : u.KeptIn (execSlti c p rd rs1 imm s) := hs.aluOne

theorem Kept.execSltiu {c p rd rs1 imm} (hs : u.Kept s) : u.KeptIn (execSltiu c p rd rs1 imm s) := hs.aluOne

theorem Kept.execSlli {c p rd rs1 sh} (hs : u.Kept s) : u.KeptIn (execSlli c p rd rs1 sh s) := hs.aluOne

theorem Kept.execSrli {c p rd rs1 sh} (hs : u.Kept s) : u.KeptIn (execSrli c p rd rs1 sh s) := hs.aluOne

theorem Kept.execSrai {c p rd rs1 sh} (hs : u.Kept s) : u.KeptIn (execSrai c p rd rs1 sh s) := hs.aluOne

theorem Kept.execRori {c p rd rs1 sh} (hs : u.Kept s) : u.KeptIn (execRori c p rd rs1 sh s) := hs.aluOne

theorem Kept.execAdd {c p rd rs1 rs2} (hs : u.Kept s) : u.KeptIn (execAdd c p rd rs1 rs2 s) := hs.aluTwo

theorem Kept.execSub {c p rd rs1 rs2} (hs : u.Kept s) : u.KeptIn (execSub c p rd rs1 rs2 s) := hs.aluTwo

theorem Kept.execAnd {c p rd rs1 rs2} (hs : u.Kept s) : u.KeptIn (execAnd c p rd rs1 rs2 s) := hs.aluTwo

theorem Kept.execOr {c p rd rs1 rs2} (hs : u.Kept s) : u.KeptIn (execOr c p rd rs1 rs2 s) := hs.aluTwo

theorem Kept.execXor {c p rd rs1 rs2} (hs : u.Kept s) : u.KeptIn (execXor c p rd rs1 rs2 s) := hs.aluTwo

theorem Kept.execSll {c p rd rs1 rs2} (hs : u.Kept s) : u.KeptIn (execSll c p rd rs1 rs2 s) := hs.aluTwo

theorem Kept.execSrl {c p rd rs1 rs2} (hs : u.Kept s) : u.KeptIn (execSrl c p rd rs1 rs2 s) := hs.aluTwo

theorem Kept.execSra {c p rd rs1 rs2} (hs : u.Kept s) : u.KeptIn (execSra c p rd rs1 rs2 s) := hs.aluTwo

theorem Kept.execRor {c p rd rs1 rs2} (hs : u.Kept s) : u.KeptIn (execRor c p rd rs1 rs2 s) := hs.aluTwo

theorem Kept.execSlt {c p rd rs1 rs2} (hs : u.Kept s) : u.KeptIn (execSlt c p rd rs1 rs2 s) := hs.aluTwo

theorem Kept.execSltu {c p rd rs1 rs2} (hs : u.Kept s) : u.KeptIn (execSltu c p rd rs1 rs2 s) := hs.aluTwo

theorem Kept.execMin {c p rd rs1 rs2} (hs : u.Kept s) : u.KeptIn (execMin c p rd rs1 rs2 s) := hs.aluTwo

theorem Kept.execMax {c p rd rs1 rs2} (hs : u.Kept s) : u.KeptIn (execMax c p rd rs1 rs2 s) := hs.aluTwo

theorem Kept.execMinu {c p rd rs1 rs2} (hs : u.Kept s) : u.KeptIn (execMinu c p rd rs1 rs2 s) := hs.aluTwo

theorem Kept.execMaxu {c p rd rs1 rs2} (hs : u.Kept s) : u.KeptIn (execMaxu c p rd rs1 rs2 s) := hs.aluTwo

theorem Kept.execAndn {c p rd rs1 rs2} (hs : u.Kept s) : u.KeptIn (execAndn c p rd rs1 rs2 s) := hs.aluTwo

theorem Kept.execClz {c p rd rs1} (hs : u.Kept s) : u.KeptIn (execClz c p rd rs1 s) := hs.aluOne

theorem Kept.execPopc {c p rd rs1} (hs : u.Kept s) : u.KeptIn (execPopc c p rd rs1 s) := hs.aluOne

theorem Kept.execRev8 {c p rd rs1} (hs : u.Kept s) : u.KeptIn (execRev8 c p rd rs1 s) := hs.aluOne

theorem Kept.execSextb {c p rd rs1} (hs : u.Kept s) : u.KeptIn (execSextb c p rd rs1 s) := hs.aluOne

theorem Kept.execSexth {c p rd rs1} (hs : u.Kept s) : u.KeptIn (execSexth c p rd rs1 s) := hs.aluOne

theorem Kept.execZexth {c p rd rs1} (hs : u.Kept s) : u.KeptIn (execZexth c p rd rs1 s) := hs.aluOne

theorem Kept.execMovl {c p rd imm} (hs : u.Kept s) : u.KeptIn (execMovl c p rd imm s) := hs.issueE

theorem Kept.execMovh {c p rd imm} (hs : u.Kept s) : u.KeptIn (execMovh c p rd imm s) := hs.aluOne

theorem Kept.execCmp {c p pd comb rs1 rs2 cond} (hs : u.Kept s) : u.KeptIn (execCmp c p pd comb rs1 rs2 cond s) :=
  hs.compare

theorem Kept.execCmpi {c p pd comb rs1 cond imm} (hs : u.Kept s) : u.KeptIn (execCmpi c p pd comb rs1 cond imm s) :=
  hs.compare

theorem Kept.execPlog {c p pd pa ainv pb binv op} (hs : u.Kept s) : u.KeptIn (execPlog c p pd pa ainv pb binv op s) :=
  hs.issueE

theorem Kept.execMul {c p rs1 rs2} (hs : u.Kept s) : u.KeptIn (execMul c p rs1 rs2 s) := hs.mulIssue

theorem Kept.execMulu {c p rs1 rs2} (hs : u.Kept s) : u.KeptIn (execMulu c p rs1 rs2 s) := hs.mulIssue

theorem Kept.execMac {c p rs1 rs2} (hs : u.Kept s) : u.KeptIn (execMac c p rs1 rs2 s) := hs.mulIssue

theorem Kept.execMultiplierUpdate {c} (hs : u.Kept s) : u.KeptIn (execMultiplierUpdate c s) := hs.modEng

theorem Kept.execMfs {c p rd sr} (hs : u.Kept s) : u.KeptIn (execMfs c p rd sr s) :=
  hs.issue (fun _ _ h => h.setEng.opt) (fun _ h => h)

theorem Kept.execMts {c p sr rs1} (hs : u.Kept s) : u.KeptIn (execMts c p sr rs1 s) := hs.issueE

theorem Kept.branchTo {n target e} (hs : u.Kept s) : u.KeptOpt (branchTo n target e s) :=
  (Kept.ite hs.engFault ((hs.iff (fun _ h => h.traceBranch)).setEng)).opt

theorem Kept.execB {c p off} (hs : u.Kept s) : u.KeptIn (execB c p off s) :=
  hs.issue (fun _ _ h => h.branchTo) (fun _ h => h)

theorem Kept.execCall {c p off} (hs : u.Kept s) : u.KeptIn (execCall c p off s) :=
  hs.issue (fun _ _ h => h.branchTo) (fun _ h => h)

theorem Kept.execJalr {c p rd rs1 imm} (hs : u.Kept s) : u.KeptIn (execJalr c p rd rs1 imm s) :=
  hs.issue (fun _ _ h => h.branchTo) (fun _ h => h)

theorem Kept.execFence {c p} (hs : u.Kept s) : u.KeptIn (execFence c p s) :=
  hs.issue (fun _ _ h => KeptOpt.ite h.setEng.opt .none) (fun _ h => h)

theorem Kept.execYield {c p done} (hs : u.Kept s) : u.KeptIn (execYield c p done s) := by
  unfold Machine.execYield
  refine hs.issue (fun e t h => ?_) (fun _ h => h)
  extract_lets t1
  have ht1 : u.Kept t1 := h.setEng
  exact ht1.same.opt

theorem Kept.execBrk {c p code} (hs : u.Kept s) : u.KeptIn (execBrk c p code s) :=
  hs.issue (fun _ _ h => (Kept.ite h.setEng.dbgHold h.engFault).opt) (fun _ h => h)

theorem Kept.execDtab {c p rd rs1 rs2 idx k} (hs : u.Kept s) : u.KeptIn (execDtab c p rd rs1 rs2 idx k s) := hs.issueE

/-! ## Settings (Machine/Image) -/

theorem Kept.settingsRead (hs : u.Kept s) : u.Kept s.settingsRead.2 := by
  unfold State.settingsRead
  extract_lets h' n b
  have hh' : u.Kept h'.2.2 := hs.readBytes
  have hb : u.Kept b.2.2 := hh'.readBytes
  exact .iteSnd hh'.snd hb.snd

/-! ## Flash window and DMA (Machine/Window) -/

theorem Kept.modFlash {f} (hs : u.Kept s) : u.Kept (s.modFlash f) := hs.same

theorem Kept.windowRead {off n} (hs : u.Kept s) : u.Kept (s.windowRead off n).2 := by
  unfold State.windowRead
  extract_lets
  refine .iteSnd hs.finc.snd (.iteSnd hs.finc.snd ?_)
  split
  · exact hs.modFlash.snd
  · exact hs.modFlash.snd

theorem Kept.windowAsk {off n} (hs : u.Kept s) : u.Kept (s.windowAsk off n) :=
  hs.foldl fun _ _ h => .ite h h.windowRead

theorem Kept.windowBytes {off n} (hs : u.Kept s) : u.Kept (s.windowBytes off n).2 :=
  .foldlAt Prod.snd hs fun _ _ h => h.windowRead

theorem Kept.answerLine {line bs} (hs : u.Kept s) : u.Kept (s.answerLine line bs) := by
  unfold State.answerLine
  extract_lets
  exact hs.same.modFlash

/-! ## Cipher and keys (Machine/Cipher) -/

theorem Kept.dmaOff {t a write} (hs : u.Kept s) : u.Kept (s.dmaOff t a write) := by
  unfold State.dmaOff
  split
  · exact hs.postRefused
  · exact hs

theorem Kept.dmaRefuse {t a write} (hs : u.Kept s) : u.Kept (s.dmaRefuse t a write) := by
  unfold State.dmaRefuse
  split
  · exact hs.refuseFence
  · exact hs

theorem Kept.dmaAsk {x} (hs : u.Kept s) : u.Kept (s.dmaAsk x) := by
  unfold State.dmaAsk
  split
  · exact hs.windowAsk
  · exact hs

theorem Kept.dmaRead {t n a len} (hs : u.Kept s) : u.Kept (s.dmaRead t n a len).2 := by
  unfold State.dmaRead
  refine .iteSnd hs (.iteSnd hs.dmaOff.snd (.iteSnd ?_ hs.dmaRefuse.snd))
  extract_lets k f r
  have hf : u.Kept f.2 := hs.free
  have hr : u.Kept r.2.2 := hs.readBytes
  split
  · extract_lets w
    have hw : u.Kept w.2 := hs.windowBytes
    exact hw.snd
  · exact .iteSnd hf.snd hr.snd

theorem Kept.dmaPut {t n a bs} (hs : u.Kept s) : u.Kept (s.dmaPut t n a bs) := by
  unfold State.dmaPut
  refine .ite hs (.ite hs.dmaOff ?_)
  split
  · exact .ite hs hs.writeBytes
  · exact hs

theorem Kept.dmaWrite {t n a bs} (hs : u.Kept s) : u.Kept (s.dmaWrite t n a bs).1 :=
  .iteFst hs.dmaPut.fst hs.dmaRefuse.fst

theorem Kept.setKeySlot {k x} (hs : u.Kept s) : u.Kept (s.setKeySlot k x) := hs.same

theorem Kept.eraseUsers {k} (hs : u.Kept s) : u.Kept (s.eraseUsers k) := hs.same

theorem Kept.emptySlot {k} (hs : u.Kept s) : u.Kept (s.emptySlot k) := hs.setKeySlot

theorem Kept.recKey {rec} (hs : u.Kept s) : u.Kept (s.recKey rec).2 := by
  unfold State.recKey
  split
  · exact hs.setKeySlot.snd
  · extract_lets t s1 r
    have hs1 : u.Kept s1 := hs.finc
    have hr : u.Kept r.2.2 := hs1.readBytes
    split
    · exact hs
    · refine .iteSnd hr.snd (.iteSnd hr.snd ?_)
      split
      · exact hr.snd
      · exact hr.setKeySlot.snd

theorem Kept.keyCmd {v} (hs : u.Kept s) : u.Kept (s.keyCmd v) := by
  unfold State.keyCmd
  extract_lets k key s1 bad
  have hs1 : u.Kept s1 := hs.foldl fun _ _ h => h.setReg
  have hbad : u.Kept bad := hs1.fset
  split
  · exact .ite hbad hs1.setKeySlot
  · exact .ite hbad hs1.emptySlot.eraseUsers
  · exact hbad

theorem Kept.execLoadKey {v} (hs : u.Kept s) : u.KeptIn (execLoadKey v s) := hs.keyCmd

theorem Kept.execZeroize {v} (hs : u.Kept s) : u.KeptIn (execZeroize v s) := hs.keyCmd

theorem Kept.enqueue {j} (hs : u.Kept s) : u.Kept (s.enqueue j) := hs.same

theorem Kept.enqueueUnit {j} (hs : u.Kept s) : u.Kept (s.enqueueUnit j) := .ite hs.enqueue hs.same

theorem Kept.admitWaiting (hs : u.Kept s) : u.Kept s.admitWaiting := by
  unfold State.admitWaiting
  split
  · exact hs
  · exact .ite hs.same.enqueue hs

theorem Kept.cipherNotice {n status tag desc} (hs : u.Kept s) : u.Kept (s.cipherNotice n status tag desc) := hs.post

theorem Kept.submitJob {n e a} (hs : u.Kept s) : u.Kept (s.submitJob n e a).2 := by
  unfold State.submitJob
  extract_lets
  refine .iteSnd hs ?_
  split
  next s1 e =>
    have hs1 : u.Kept s1 := .ofSnd e hs.dmaRead
    exact hs1.snd
  next s1 e =>
    have hs1 : u.Kept s1 := .ofSnd e hs.dmaRead
    extract_lets
    exact .iteSnd hs1.snd (.iteSnd hs1.snd (.iteSnd hs1.finc.snd hs1.enqueue.snd))

theorem Kept.copFar {c p target illegal rd rs1 rs2 k waits ask} (hs : u.Kept s)
    (hk : ∀ x1 x2 x3 t, u.Kept t → u.Kept (k x1 x2 x3 t).2) (hask : ∀ t, u.Kept t → u.Kept (ask t)) :
    u.Kept (copFar c p target illegal rd rs1 rs2 k s waits ask) := by
  unfold Machine.copFar
  extract_lets
  refine hs.issue (fun e t h => KeptOpt.ite .none ?_) (fun _ h1 => hask _ h1.linkHold)
  extract_lets q r
  have hq : u.Kept q.2 := h.linkEnter
  have hr : u.Kept r.2 := hk _ _ _ _ hq
  exact hr.modEng.opt

theorem Kept.execCopAnswer {c} (hs : u.Kept s) : u.KeptIn (execCopAnswer c s) := hs.modEng

theorem Kept.copSubmit {n posted e a} (hs : u.Kept s) : u.Kept (copSubmit n posted e a s).2 := by
  unfold Machine.copSubmit
  extract_lets r
  have hr : u.Kept r.2 := hs.submitJob
  exact (Kept.ite hr.cipherNotice hr).snd

theorem Kept.execSubmit {c p rd rs1 rs2} (hs : u.Kept s) : u.KeptIn (execSubmit c p rd rs1 rs2 s) :=
  hs.copFar (fun _ _ _ _ h => h.copSubmit) (fun _ h1 => h1.dmaAsk)

theorem Kept.trngTake (hs : u.Kept s) : u.Kept s.trngTake.2 := by
  unfold State.trngTake
  split
  · exact hs
  · exact hs.same.snd

theorem Kept.execRand {c p rd rs1 rs2} (hs : u.Kept s) : u.KeptIn (execRand c p rd rs1 rs2 s) :=
  hs.copFar (fun _ _ _ _ h => h.trngTake) (fun _ h => h)

theorem Kept.execQstat {c p rd rs1 rs2} (hs : u.Kept s) : u.KeptIn (execQstat c p rd rs1 rs2 s) :=
  hs.copFar (fun _ _ _ _ h => h.snd) (fun _ h => h)

theorem Kept.jobInput {j} (hs : u.Kept s) : u.Kept (s.jobInput j).2 := by
  unfold State.jobInput
  split
  · split
    next s1 e =>
      have hs1 : u.Kept s1 := .ofSnd e hs.dmaRead
      exact hs1.snd
    next s1 e =>
      have hs1 : u.Kept s1 := .ofSnd e hs.dmaRead
      split
      next s1 e =>
        have hs1 : u.Kept s1 := .ofSnd e hs1.dmaRead
        exact hs1.snd
      next s1 e =>
        have hs1 : u.Kept s1 := .ofSnd e hs1.dmaRead
        split
        next s1 e =>
          have hs1 : u.Kept s1 := .ofSnd e hs1.dmaRead
          exact hs1.snd
        next s1 e =>
          have hs1 : u.Kept s1 := .ofSnd e hs1.dmaRead
          split
          next s1 e =>
            have hs1 : u.Kept s1 := .ofSnd e hs1.dmaRead
            exact hs1.snd
          next s1 e =>
            have hs1 : u.Kept s1 := .ofSnd e hs1.dmaRead
            exact hs1.snd
  · exact hs

theorem Kept.ctxSave {j b} (hs : u.Kept s) : u.Kept (s.ctxSave j b).2 := .iteSnd hs hs.same.snd

theorem Kept.maskRun {n} (hs : u.Kept s) : u.Kept (s.maskRun n) := by
  unfold State.maskRun
  extract_lets m _ f src3
  have hf : u.Kept f.2 := hs.free
  have hsrc3 : u.Kept src3 := hf
  exact .ite hs.same hsrc3.same

theorem Kept.startJob {i u' j g} (hs : u.Kept s) : u.Kept (s.startJob i u' j g) := by
  unfold State.startJob
  extract_lets run sa
  have hsa : u.Kept sa := .ite hs hs.maskRun
  exact hsa.same.admitWaiting

theorem Kept.dropCached {rec erase} (hs : u.Kept s) : u.Kept (s.dropCached rec erase) := by
  unfold State.dropCached
  split
  · exact hs
  · exact .ite hs.emptySlot.eraseUsers hs.emptySlot

theorem Kept.jobKey {j} (hs : u.Kept s) : u.Kept (s.jobKey j).2 := .iteSnd hs.recKey (.iteSnd hs hs)

theorem Kept.grantAes {i u' j} (hs : u.Kept s) : u.Kept (s.grantAes i u' j) := by
  unfold State.grantAes
  split
  next s1 e =>
    have hs1 : u.Kept s1 := .ofSnd e hs.jobInput
    exact hs1.startJob
  next s1 e =>
    have hs1 : u.Kept s1 := .ofSnd e hs.jobInput
    refine .ite hs1.startJob (.ite hs1.startJob ?_)
    split
    next s2 e =>
      have hs2 : u.Kept s2 := .ofSnd e hs1.jobKey
      exact hs2
    next s2 e =>
      have hs2 : u.Kept s2 := .ofSnd e hs1.jobKey
      exact hs2.startJob
    next s2 e =>
      have hs2 : u.Kept s2 := .ofSnd e hs1.jobKey
      extract_lets key cx w cs
      have hcs : u.Kept cs.2 := .iteSnd hs2.ctxSave hs2.snd
      refine .ite hs2.startJob (.ite hs2.startJob (.ite ?_ hcs.startJob))
      split
      · exact hs2.startJob
      · exact hs2.startJob

theorem Kept.grantSha {i j} (hs : u.Kept s) : u.Kept (s.grantSha i j) := by
  unfold State.grantSha
  split
  next s1 e =>
    have hs1 : u.Kept s1 := .ofSnd e hs.jobInput
    exact hs1.startJob
  next s1 e =>
    have hs1 : u.Kept s1 := .ofSnd e hs.jobInput
    split
    · exact hs1.startJob
    · extract_lets h0 total h' cs
      have hcs : u.Kept cs.2 := .iteSnd hs1.ctxSave hs1.snd
      exact hcs.startJob

theorem Kept.grantVerify {i j} (hs : u.Kept s) : u.Kept (s.grantVerify i j) := by
  unfold State.grantVerify
  split
  next s1 e =>
    have hs1 : u.Kept s1 := .ofSnd e hs.jobInput
    exact hs1.startJob
  next s1 e =>
    have hs1 : u.Kept s1 := .ofSnd e hs.jobInput
    split
    next s1 e =>
      have hs1 : u.Kept s1 := .ofSnd e hs1.dmaRead
      exact hs1.startJob
    next s1 e =>
      have hs1 : u.Kept s1 := .ofSnd e hs1.dmaRead
      exact hs1.startJob

theorem Kept.grantSign {i j draw} (hs : u.Kept s) : u.Kept (s.grantSign i j draw) := by
  unfold State.grantSign
  extract_lets
  split
  next s1 e =>
    have hs1 : u.Kept s1 := .ofSnd e hs.jobInput
    exact hs1.startJob
  next s1 e =>
    have hs1 : u.Kept s1 := .ofSnd e hs.jobInput
    exact .ite hs1.startJob (.ite hs1.startJob (.ite hs1.startJob hs1.startJob))

theorem Kept.stageAsk (hs : u.Kept s) : u.Kept s.stageAsk := hs.foldl fun _ _ h => h.foldl fun _ _ h1 => h1.dmaAsk

theorem Kept.grant {op draw} (hs : u.Kept s) : u.Kept (s.grant op draw) := by
  unfold State.grant
  extract_lets s'
  have hs' : u.Kept s' := hs.stageAsk
  split
  · exact .ite hs' (.ite hs'.grantSha (.ite hs'.grantVerify (.ite hs'.grantSign hs'.grantAes)))
  · exact hs'

theorem Kept.keygenGrant (hs : u.Kept s) : u.Kept s.keygenGrant := by
  unfold State.keygenGrant
  split
  · exact .ite hs.startJob hs
  · exact hs

theorem Kept.execEcbEnc (hs : u.Kept s) : u.KeptIn (execEcbEnc s) := hs.grant

theorem Kept.execEcbDec (hs : u.Kept s) : u.KeptIn (execEcbDec s) := hs.grant

theorem Kept.execCtr (hs : u.Kept s) : u.KeptIn (execCtr s) := hs.grant

theorem Kept.execCcmEnc (hs : u.Kept s) : u.KeptIn (execCcmEnc s) := hs.grant

theorem Kept.execCcmDec (hs : u.Kept s) : u.KeptIn (execCcmDec s) := hs.grant

theorem Kept.execGcmEnc (hs : u.Kept s) : u.KeptIn (execGcmEnc s) := hs.grant

theorem Kept.execGcmDec (hs : u.Kept s) : u.KeptIn (execGcmDec s) := hs.grant

theorem Kept.execKwWrap (hs : u.Kept s) : u.KeptIn (execKwWrap s) := hs.grant

theorem Kept.execKwUnwrap (hs : u.Kept s) : u.KeptIn (execKwUnwrap s) := hs.grant

theorem Kept.execSha256 (hs : u.Kept s) : u.KeptIn (execSha256 s) := hs.grant

theorem Kept.execEcdsaVerify (hs : u.Kept s) : u.KeptIn (execEcdsaVerify s) := hs.grant

theorem Kept.execEcdsaSign {draw} (hs : u.Kept s) : u.KeptIn (execEcdsaSign draw s) := hs.grant

theorem Kept.execNkeySet (hs : u.Kept s) : u.KeptIn (execNkeySet s) := hs.grant

theorem Kept.execNkeyDerive (hs : u.Kept s) : u.KeptIn (execNkeyDerive s) := hs.grant

theorem Kept.execNkeyErase (hs : u.Kept s) : u.KeptIn (execNkeyErase s) := hs.grant

theorem Kept.trngSet {ok} (hs : u.Kept s) : u.Kept (s.trngSet ok) := hs.fset

theorem Kept.trngFail {rct apt startup} (hs : u.Kept s) : u.Kept (s.trngFail rct apt startup) := by
  unfold State.trngFail
  extract_lets sa src1 t1 t2 t3
  have hsa : u.Kept sa := hs.trngSet
  have ht1 : u.Kept t1 := hsa.same
  have ht2 : u.Kept t2 := (ht1.iff (fun _ h => h.fset)).iff (fun _ h1 => h1.fset)
  have ht3 : u.Kept t3 := ht2.fsat
  exact ht3.logHw

theorem Kept.trngRaw {raw startup good} (hs : u.Kept s) (hgood : ∀ t, u.Kept t → u.Kept (good t)) :
    u.Kept (s.trngRaw raw startup good) :=
  .ite hs.trngFail (hgood _ hs.same)

theorem Kept.trngStart (hs : u.Kept s) : u.Kept s.trngStart := by
  unfold State.trngStart
  extract_lets f seed sa
  have hf : u.Kept f.2 := hs.fset.free
  have hsa : u.Kept sa := hf
  exact hsa.same.trngSet

theorem Kept.execTrngStartupDone {raw} (hs : u.Kept s) : u.KeptIn (execTrngStartupDone raw s) :=
  hs.iff fun _ h => h.trngRaw (fun _ h1 => h1.trngStart)

theorem Kept.execTrngTestFail {raw} (hs : u.Kept s) : u.KeptIn (execTrngTestFail raw s) :=
  hs.iff fun _ h => h.trngRaw (fun _ h => h)

theorem Kept.execTrngRetest {raw} (hs : u.Kept s) : u.KeptIn (execTrngRetest raw s) :=
  hs.iff fun _ h => .ite h.same h.same.trngStart

theorem Kept.execTrngConditionerOutput {raw} (hs : u.Kept s) : u.KeptIn (execTrngConditionerOutput raw s) :=
  hs.iff fun _ h => h.trngRaw (fun _ h1 => .ite h1 h1.same)

theorem Kept.execTrngDataRead (hs : u.Kept s) : u.KeptIn (execTrngDataRead s) := hs.trngTake

theorem Kept.setPub {i q} (hs : u.Kept s) : u.Kept (s.setPub i q) := hs.foldl fun _ _ h => h.setReg.setReg

theorem Kept.eccStart {i op} (hs : u.Kept s) : u.Kept (s.eccStart i op) := by
  unfold State.eccStart
  refine .ite hs ?_
  extract_lets s1 _ s2
  have hs1 : u.Kept s1 := hs.fset
  have hs2 : u.Kept s2 := hs1.same
  split
  · exact hs1.same.enqueueUnit.keygenGrant
  · exact hs2

theorem Kept.execKeygen {i draw} (hs : u.Kept s) : u.KeptIn (execKeygen i draw s) := hs.eccStart

theorem Kept.execEccZeroize {i} (hs : u.Kept s) : u.KeptIn (execEccZeroize i s) := hs.eccStart

theorem Kept.execEccSave {i} (hs : u.Kept s) : u.KeptIn (execEccSave i s) := hs.eccStart

theorem Kept.setEccKey {i d} (hs : u.Kept s) : u.Kept (s.setEccKey i d) := hs.same.setPub.fset

theorem Kept.eccApply {i op} (hs : u.Kept s) : u.Kept (s.eccApply i op) := by
  unfold State.eccApply
  split
  · exact .ite hs hs.setEccKey
  · exact hs.same.setPub.fset
  · exact .ite hs.writeBytes hs

theorem Kept.keygenEnd {i op} (hs : u.Kept s) : u.Kept (s.keygenEnd i op) := by
  unfold State.keygenEnd
  split
  · exact hs.same.keygenGrant
  · exact hs

theorem Kept.execEccKeyOpDone {i} (hs : u.Kept s) : u.KeptIn (execEccKeyOpDone i s) := by
  unfold Machine.execEccKeyOpDone
  split
  · exact hs
  · refine .ite hs ?_
    extract_lets s1
    have hs1 : u.Kept s1 := hs.eccApply.fset
    exact hs1.same.keygenEnd

theorem Kept.cutWrite {k bs} (hs : u.Kept s) : u.Kept (s.cutWrite k bs) := by
  unfold State.cutWrite
  extract_lets f
  have hf : u.Kept f.2 := hs.free
  exact hf.writeBytes

theorem Kept.cipherCut (hs : u.Kept s) : u.Kept s.cipherCut :=
  (hs.foldl fun _ _ h => .ite h.cutWrite h).foldl fun _ _ h1 => .ite h1.cutWrite h1

/-! ## Receivers (Machine/Rx) -/

theorem Kept.modRx {n f} (hs : u.Kept s) : u.Kept (s.modRx n f) := hs.same

theorem Kept.modPath {p f} (hs : u.Kept s) : u.Kept (s.modPath p f) := hs.same

theorem Kept.modChain {c f} (hs : u.Kept s) : u.Kept (s.modChain c f) := hs.same

theorem Kept.setRxState {n v} (hs : u.Kept s) : u.Kept (s.setRxState n v) := hs.fset

theorem Kept.bindBranch {n b} (hs : u.Kept s) : u.Kept (s.bindBranch n b) := by
  unfold State.bindBranch
  refine .ite hs ?_
  split
  · exact hs
  · extract_lets s1
    have hs1 : u.Kept s1 := hs.fset.fset
    exact hs1.modRx

theorem Kept.tryBind {n b} (hs : u.Kept s) : u.Kept (s.tryBind n b) := by
  unfold State.tryBind
  extract_lets s1
  have hs1 : u.Kept s1 := hs.bindBranch
  exact .ite hs1.setRxState.fset.modRx hs1

theorem Kept.rebind {n} (hs : u.Kept s) : u.Kept (s.rebind n) := hs.tryBind.tryBind

theorem Kept.rebindAll (hs : u.Kept s) : u.Kept s.rebindAll := hs.foldl fun _ _ h => .ite h h.rebind

theorem Kept.detNone {n b} (hs : u.Kept s) : u.Kept (s.detNone n b) := .ite hs.setReg.fset hs.setReg.fset

theorem Kept.ccaLost {n b} (hs : u.Kept s) : u.Kept (s.ccaLost n b) := by
  unfold State.ccaLost
  extract_lets
  exact hs.modChain.modChain

theorem Kept.rxFall {n} (hs : u.Kept s) : u.Kept (s.rxFall n) := .ite hs.setRxState hs.setRxState.fset

theorem Kept.report {r} (hs : u.Kept s) : u.Kept (s.report r) := hs.same

theorem Kept.branchLost {n b} (hs : u.Kept s) : u.Kept (s.branchLost n b) :=
  .ite (.ite hs.modRx.fsat hs.report.fsat.rxFall) hs

theorem Kept.unbindBranch {n b} (hs : u.Kept s) : u.Kept (s.unbindBranch n b) := by
  unfold State.unbindBranch
  refine .ite hs ?_
  extract_lets s1 s2
  have hs1 : u.Kept s1 := hs.fset.detNone.ccaLost.branchLost
  have hs2 : u.Kept s2 := .ite hs1.rxFall hs1
  exact hs2.tryBind

theorem Kept.unbindTuner {t} (hs : u.Kept s) : u.Kept (s.unbindTuner t) := hs.foldl fun _ _ h => .ite h.unbindBranch h

theorem Kept.unbindPath {p} (hs : u.Kept s) : u.Kept (s.unbindPath p) := hs.foldl fun _ _ h => h.unbindBranch

theorem Kept.setBlank {n b on} (hs : u.Kept s) : u.Kept (s.setBlank n b on) :=
  .ite hs (.ite hs.fset.detNone.ccaLost.branchLost hs.fset.modRx)

theorem Kept.updateBlank (hs : u.Kept s) : u.Kept s.updateBlank := hs.foldl fun _ _ h => h.setBlank

theorem Kept.rxDisable {n} (hs : u.Kept s) : u.Kept (s.rxDisable n) :=
  ((Kept.ite hs.report.fsat hs).foldl fun _ _ h => h.setRxState.fset.fset.detNone.ccaLost).fset

theorem Kept.rxEnable {n} (hs : u.Kept s) : u.Kept (s.rxEnable n) := by
  unfold State.rxEnable
  extract_lets s1 s2
  have hs1 : u.Kept s1 := hs.modRx.setRxState
  have hs2 : u.Kept s2 := hs1.fset.rebind
  exact .ite hs2.fset hs2

theorem Kept.rxErr {n} (hs : u.Kept s) : u.Kept (s.rxErr n) := hs.fset

theorem Kept.rxCfgWrite {m n v} (hs : u.Kept s) : u.Kept (s.rxCfgWrite m n v) :=
  .ite hs (.ite hs.rxErr
      (.ite hs.rxDisable.setReg (.ite hs.setReg (.ite hs.rxErr (.ite hs (.ite hs.setReg hs.setReg.rxEnable))))))

theorem Kept.rxTuneWrite {n a v} (hs : u.Kept s) : u.Kept (s.rxTuneWrite n a v) :=
  .ite hs (.ite (.ite hs hs.rxErr) hs.setReg)

theorem Kept.execRxEnable {m n v} (hs : u.Kept s) : u.KeptIn (execRxEnable m n v s) :=
  hs.regGate fun _ h => h.rxCfgWrite

theorem Kept.execRxDisable {m n v} (hs : u.Kept s) : u.KeptIn (execRxDisable m n v s) :=
  hs.regGate fun _ h => h.rxCfgWrite

theorem Kept.execRxOwnerWrite {n tenant home} (hs : u.Kept s) : u.KeptIn (execRxOwnerWrite n tenant home s) :=
  Kept.ite hs hs.fset.fset

theorem Kept.execFillTimerExpiry {n b} (hs : u.Kept s) : u.KeptIn (execFillTimerExpiry n b s) := by
  unfold Machine.execFillTimerExpiry
  extract_lets
  refine hs.iff fun t h => ?_
  extract_lets t1
  have ht1 : u.Kept t1 := h.modRx
  exact .ite ht1.setRxState ht1

theorem Kept.execBlankRecovery {n b} (hs : u.Kept s) : u.KeptIn (execBlankRecovery n b s) :=
  hs.iff fun _ h => h.modRx

theorem Kept.overload {p us} (hs : u.Kept s) : u.Kept (s.overload p us) := hs.fset

theorem Kept.execDetectorWindowEnd {n b peak rms ovld} (hs : u.Kept s) :
    u.KeptIn (execDetectorWindowEnd n b peak rms ovld s) :=
  hs.iff fun _ h => h.setReg.overload

theorem Kept.execEnvelopeUpdate {n envA envB} (hs : u.Kept s) : u.KeptIn (execEnvelopeUpdate n envA envB s) :=
  hs.iff fun _ h => h.fset.fset

theorem Kept.ccaSync {n} (hs : u.Kept s) : u.Kept (s.ccaSync n) := by
  unfold State.ccaSync
  extract_lets
  exact hs.modChain.modChain

theorem Kept.syncAt {n b out ra rb foff} (hs : u.Kept s) : u.Kept (s.syncAt n b out ra rb foff) :=
  hs.setReg.setReg.setReg.setReg.setReg.modRx.setRxState.fsat.report.ccaSync

theorem Kept.execSyncDetect {n foundA foundB energyA energyB out rssiA rssiB foff} (hs : u.Kept s) :
    u.KeptIn (execSyncDetect n foundA foundB energyA energyB out rssiA rssiB foff s) :=
  hs.iff fun _ h => h.syncAt

theorem Kept.rxEnd {n} (hs : u.Kept s) : u.Kept (s.rxEnd n) := .ite hs.rxFall hs

theorem Kept.specAbort {t} (hs : u.Kept s) : u.Kept (s.specAbort t) := by
  unfold State.specAbort
  refine .ite ?_ hs
  extract_lets s1
  have hs1 : u.Kept s1 := hs.fset.fset.fset
  refine hs1.same.foldl fun u' k h => ?_
  extract_lets f
  have hf : u.Kept f.2 := h.free
  exact hf.setReg

theorem Kept.specRead {a} (hs : u.Kept s) : u.Kept (s.specRead a).2 := .iteSnd hs hs.free

theorem Kept.specWrite {v} (hs : u.Kept s) : u.Kept (s.specWrite v) := by
  unfold State.specWrite
  extract_lets s1 s2
  have hs1 : u.Kept s1 := .ite hs.fset hs
  have hs2 : u.Kept s2 := hs1.fset
  refine hs2.iff fun t h => ?_
  extract_lets sa
  have hsa : u.Kept sa := h.fset
  exact hsa.same

theorem Kept.execSpecGo {avg tuner} (hs : u.Kept s) : u.KeptIn (execSpecGo avg tuner s) := hs.specWrite

theorem Kept.execSpecDone {bins} (hs : u.Kept s) : u.KeptIn (execSpecDone bins s) :=
  hs.iff fun _ h => ((h.same.foldl fun _ _ h1 => h1.setReg).fset).fset

/-! ## Paths and tuners (Machine/Paths) -/

theorem Kept.setPathState {p v} (hs : u.Kept s) : u.Kept (s.setPathState p v) := hs.fset

theorem Kept.leaveReceive {p} (hs : u.Kept s) : u.Kept (s.leaveReceive p) := hs.setPathState.modPath.unbindPath

theorem Kept.pathAct {p want} (hs : u.Kept s) : u.Kept (s.pathAct p want) := by
  unfold State.pathAct
  split
  · exact .ite hs hs.modPath
  · exact .ite hs.modPath.fset (.ite hs.setPathState hs)
  · exact .ite hs (.ite hs.leaveReceive hs.leaveReceive.setPathState)

theorem Kept.pathWant {p want} (hs : u.Kept s) : u.Kept (s.pathWant p want) := by
  unfold State.pathWant
  extract_lets s1
  have hs1 : u.Kept s1 := hs.modPath
  exact .ite hs1.pathAct hs1

theorem Kept.pathStateReq {p v} (hs : u.Kept s) : u.Kept (s.pathStateReq p v) := by
  unfold State.pathStateReq
  refine .ite hs ?_
  extract_lets s1
  have hs1 : u.Kept s1 := hs.fset
  exact .ite hs1 hs1.pathWant

theorem Kept.execPathStateReq {p v} (hs : u.Kept s) : u.KeptIn (execPathStateReq p v s) := hs.pathStateReq

theorem Kept.pathStandby {p} (hs : u.Kept s) : u.Kept (s.pathStandby p) := hs.setPathState.modPath.pathAct

theorem Kept.execPathStandbyReached {p} (hs : u.Kept s) : u.KeptIn (execPathStandbyReached p s) :=
  hs.iff fun _ h => h.pathStandby

theorem Kept.tunerOff {t} (hs : u.Kept s) : u.Kept (s.tunerOff t) := by
  unfold State.tunerOff
  extract_lets s1 _ s2
  have hs1 : u.Kept s1 := hs.fset
  have hs2 : u.Kept s2 := hs1.same
  exact hs2.unbindTuner.specAbort

theorem Kept.dropTuners {p} (hs : u.Kept s) : u.Kept (s.dropTuners p) := hs.foldl fun _ _ h => .ite h.tunerOff.fset h

theorem Kept.setRate {p r} (hs : u.Kept s) : u.Kept (s.setRate p r) := hs.fset.dropTuners

theorem Kept.pathRate {p r} (hs : u.Kept s) : u.Kept (s.pathRate p r) := .ite hs hs.setRate

theorem Kept.execPathRateWrite {p r} (hs : u.Kept s) : u.KeptIn (execPathRateWrite p r s) := hs.pathRate

theorem Kept.tunersBack {p} (hs : u.Kept s) : u.Kept (s.tunersBack p) := hs.foldl fun _ _ h => .ite h.fset h

theorem Kept.planRate {p r} (hs : u.Kept s) : u.Kept (s.planRate p r) :=
  .ite hs.leaveReceive.setRate.tunersBack.modPath.fset hs.setRate.tunersBack

theorem Kept.pathReceive {p} (hs : u.Kept s) : u.Kept (s.pathReceive p) := by
  unfold State.pathReceive
  extract_lets want s1 s2 s3
  have hs1 : u.Kept s1 := hs.setPathState.fset.modPath
  have hs2 : u.Kept s2 := hs1.rebindAll
  have hs3 : u.Kept s3 := by
    unfold s3
    refine .ite ?_ hs2
    split
    · exact hs2.modPath.planRate
    · exact hs2
  exact hs3.pathAct

theorem Kept.pllLoss {p} (hs : u.Kept s) : u.Kept (s.pllLoss p) := .ite hs.leaveReceive.fset.fset.modPath.logHw hs

theorem Kept.execPllLoss (hs : u.Kept s) : u.KeptIn (execPllLoss s) := hs.pllLoss.pllLoss

theorem Kept.lnaBypass {p v} (hs : u.Kept s) : u.Kept (s.lnaBypass p v) := by
  unfold State.lnaBypass
  refine .ite hs (.ite hs ?_)
  extract_lets s1
  have hs1 : u.Kept s1 := hs.fset.modPath
  exact hs1.foldl fun _ _ h => .ite h.modRx h

theorem Kept.execLnaBypassWrite {p v} (hs : u.Kept s) : u.KeptIn (execLnaBypassWrite p v s) := hs.lnaBypass

theorem Kept.pathCtrlWrite {p v} (hs : u.Kept s) : u.Kept (s.pathCtrlWrite p v) :=
  .ite hs hs.fset.lnaBypass.pathRate.pathStateReq

theorem Kept.spanErr {p} (hs : u.Kept s) : u.Kept (s.spanErr p) := hs.fset

theorem Kept.forgetTuner {t} (hs : u.Kept s) : u.Kept (s.forgetTuner t) := hs.same

theorem Kept.tunerWrite {t v} (hs : u.Kept s) : u.Kept (s.tunerWrite t v) := by
  unfold State.tunerWrite
  extract_lets p en span centre put s1
  have hs1 : u.Kept s1 := hs.fset.fset
  exact .ite hs
      (.ite hs.spanErr
          (.ite (.ite (.ite hs hs.spanErr) hs.tunerOff.fset.fset.forgetTuner)
              (.ite hs.fset.fset.forgetTuner (.ite hs1.fset hs.spanErr))))

theorem Kept.execTunerCfgWrite {t v} (hs : u.Kept s) : u.KeptIn (execTunerCfgWrite t v s) := hs.tunerWrite

theorem Kept.execTunerSamplesStart {t} (hs : u.Kept s) : u.KeptIn (execTunerSamplesStart t s) :=
  hs.iff fun _ h => h.same.rebindAll

/-! ## Transmit chains (Machine/Chain) -/

theorem Kept.setChainState {c v} (hs : u.Kept s) : u.Kept (s.setChainState c v) := hs.fset

theorem Kept.txCount {c status} (hs : u.Kept s) : u.Kept (s.txCount c status) := by
  unfold State.txCount
  split
  · exact hs.fsat
  · exact hs.fsat
  · exact hs.fsat
  · exact hs

theorem Kept.txDone {c x status first} (hs : u.Kept s) : u.Kept (s.txDone c x status first) := by
  unfold State.txDone
  extract_lets s1
  have hs1 : u.Kept s1 := hs.txCount
  split
  · exact hs1.post
  · exact hs1.post
  · exact hs1.same
  · exact hs1.same

theorem Kept.txCredit {x} (hs : u.Kept s) : u.Kept (s.txCredit x) := by
  unfold State.txCredit
  extract_lets s1 s2
  have hs1 : u.Kept s1 := by
    unfold s1
    split
    · exact hs.acctCredit
    · exact hs
  have hs2 : u.Kept s2 := .ite hs1 hs1.dutyCredit
  exact .ite hs2 hs2.girthCredit

theorem Kept.txFail {c x status} (hs : u.Kept s) : u.Kept (s.txFail c x status) := hs.txCredit.txDone

theorem Kept.txPsdu {x} (hs : u.Kept s) : u.Kept (s.txPsdu x).2 := .iteSnd (.iteSnd hs.dmaRead hs) hs

theorem Kept.txBufferOk {x} (hs : u.Kept s) : u.Kept (s.txBufferOk x).2 := by
  unfold State.txBufferOk
  refine .iteSnd hs (.iteSnd hs (.iteSnd (.iteSnd ?_ hs) hs.dmaRefuse.snd))
  extract_lets b
  have hb : u.Kept b.2.2 := hs.readBytes
  exact hb.snd

theorem Kept.txCheck {c x} (hs : u.Kept s) : u.Kept (s.txCheck c x).2 := by
  unfold State.txCheck
  refine .iteSnd hs ?_
  extract_lets b
  have hb : u.Kept b.2 := hs.txBufferOk
  exact .iteSnd hb.snd (.iteSnd hb.snd (.iteSnd hb.snd (.iteSnd hb.snd (.iteSnd hb.snd (.iteSnd hb.snd hb.snd)))))

theorem Kept.txEnqueue {c x} (hs : u.Kept s) : u.Kept (s.txEnqueue c x).2 := by
  unfold State.txEnqueue
  extract_lets y s1
  have hs1 : u.Kept s1 := hs.same
  refine .iteSnd hs1.modChain.snd ?_
  split
  · exact hs1.snd
  · exact .iteSnd hs1.txDone.snd hs1.modChain.txFail.snd

theorem Kept.txSubmit {c x} (hs : u.Kept s) : u.Kept (s.txSubmit c x).2 := by
  unfold State.txSubmit
  split
  next s1 e =>
    have hs1 : u.Kept s1 := .ofSnd e hs.txCheck
    exact hs1.txDone.snd
  next s1 e =>
    have hs1 : u.Kept s1 := .ofSnd e hs.txCheck
    extract_lets
    exact hs1.txEnqueue

theorem Kept.txSubmitWords {c x w} (hs : u.Kept s) : u.Kept (s.txSubmitWords c x w).2 :=
  .iteSnd hs.txDone.snd hs.txSubmit

theorem Kept.txPort {n c a} (hs : u.Kept s) : u.Kept (s.txPort n c a) := .ite hs.same.modEng hs

theorem Kept.execTxSubmit {e txh a} (hs : u.Kept s) : u.KeptIn (execTxSubmit e txh a s) :=
  hs.iff fun _ h => h.txPort

theorem Kept.txFetch {n c a0} (hs : u.Kept s) : u.Kept (s.txFetch n c a0) := by
  unfold State.txFetch
  extract_lets
  refine .ite hs.txDone (.ite ?_ hs.refuseFence.txDone)
  split
  next s1 e =>
    have hs1 : u.Kept s1 := .ofSnd e hs.dmaRead
    exact hs1.txSubmitWords
  next s1 e =>
    have hs1 : u.Kept s1 := .ofSnd e hs.dmaRead
    exact hs1.txDone

theorem Kept.execTxSubmitFetchDone {e} (hs : u.Kept s) : u.KeptIn (execTxSubmitFetchDone e s) := by
  unfold Machine.execTxSubmitFetchDone
  split
  · exact hs
  · refine .ite hs ?_
    extract_lets s1
    have hs1 : u.Kept s1 := hs.linkTake
    exact hs1.same.modEng.txFetch

theorem Kept.supTxSubmit {c w7} (hs : u.Kept s) : u.Kept (s.supTxSubmit c w7) := by
  unfold State.supTxSubmit
  refine .ite hs ?_
  extract_lets w x r
  have hr : u.Kept r.2 := hs.txSubmitWords
  exact hr.fset.fset.fset

theorem Kept.execSupTxSubmit {txh w7} (hs : u.Kept s) : u.KeptIn (execSupTxSubmit txh w7 s) :=
  hs.iff fun _ h => h.supTxSubmit

theorem Kept.enterSynth {c} (hs : u.Kept s) : u.Kept (s.enterSynth c) := hs.setChainState.modChain

theorem Kept.hop {c lo} (hs : u.Kept s) : u.Kept (s.hop c lo) := by
  unfold State.hop
  extract_lets valid s1
  have hs1 : u.Kept s1 := (Kept.ite hs hs.enterSynth).fset
  exact hs1.modChain

theorem Kept.unstart {c} (hs : u.Kept s) : u.Kept (s.unstart c) := by
  unfold State.unstart
  split
  · exact hs
  · exact hs.txCredit.modChain

theorem Kept.chainSleep {c} (hs : u.Kept s) : u.Kept (s.chainSleep c) := hs.unstart.setChainState.fset.modChain

theorem Kept.frontOff {c} (hs : u.Kept s) : u.Kept (s.frontOff c) := hs.modChain.updateBlank

theorem Kept.settle {c} (hs : u.Kept s) : u.Kept (s.settle c) := by
  unfold State.settle
  extract_lets h' st s1
  have hs1 : u.Kept s1 := .ite hs.setChainState.fset hs
  exact .ite hs (.ite hs.chainSleep (.ite hs1.chainSleep hs1))

theorem Kept.txStateReq {c v} (hs : u.Kept s) : u.Kept (s.txStateReq c v) := by
  unfold State.txStateReq
  refine .ite hs ?_
  extract_lets s1 h' s2
  have hs1 : u.Kept s1 := hs.fset
  have hs2 : u.Kept s2 := hs1.modChain
  refine .ite hs1 (.ite (.ite hs2.modChain hs2) ?_)
  split
  · exact hs1
  · exact hs1.chainSleep
  · exact .ite hs1.frontOff.chainSleep hs1.unstart.modChain

theorem Kept.execTxStateReq {txh v} (hs : u.Kept s) : u.KeptIn (execTxStateReq txh v s) := hs.txStateReq

theorem Kept.execTxStandbyReached {txh} (hs : u.Kept s) : u.KeptIn (execTxStandbyReached txh s) := by
  unfold Machine.execTxStandbyReached
  extract_lets
  refine hs.iff fun t h => ?_
  extract_lets t1
  have ht1 : u.Kept t1 := h.setChainState.modChain
  exact .ite ht1.chainSleep ht1.settle

theorem Kept.execTxAutoWake {txh} (hs : u.Kept s) : u.KeptIn (execTxAutoWake txh s) := hs.iff fun _ h => h.modChain

theorem Kept.setStart {c x} (hs : u.Kept s) : u.Kept (s.setStart c x) := hs.modChain

theorem Kept.startFail {c x status} (hs : u.Kept s) : u.Kept (s.startFail c x status) :=
  hs.setStart.modChain.txFail.settle

theorem Kept.access {c x} (hs : u.Kept s) : u.Kept (s.access c x) := by
  unfold State.access
  extract_lets
  refine .ite (.ite hs.startFail hs.setStart) (.ite hs.startFail ?_)
  split
  · exact hs.fsat.startFail
  · split
    · exact hs.fsat.startFail
    · exact hs.setStart

theorem Kept.execTxSynthLock {txh} (hs : u.Kept s) : u.KeptIn (execTxSynthLock txh s) := by
  unfold Machine.execTxSynthLock
  extract_lets
  refine hs.iff fun t h => ?_
  extract_lets t1
  have ht1 : u.Kept t1 := h.fset.modChain
  split
  · exact .ite ht1.access ht1
  · exact ht1.settle

theorem Kept.execCcaWindowEnd {txh rms} (hs : u.Kept s) : u.KeptIn (execCcaWindowEnd txh rms s) := by
  unfold Machine.execCcaWindowEnd
  extract_lets c s1
  have hs1 : u.Kept s1 := hs.fsat
  split
  · exact hs
  · exact .ite hs (.ite (.ite hs1.startFail hs1.setStart) (.ite hs.startFail hs.setStart))

theorem Kept.execBackoffExpiry {txh} (hs : u.Kept s) : u.KeptIn (execBackoffExpiry txh s) := by
  unfold Machine.execBackoffExpiry
  extract_lets
  split
  · exact .ite hs.access hs
  · exact hs

theorem Kept.nodeIdOf {x} (hs : u.Kept s) : u.Kept (s.nodeIdOf x).2 := by
  unfold State.nodeIdOf
  split
  · exact hs
  · exact hs
  · refine .iteSnd hs ?_
    extract_lets b
    have hb : u.Kept b.2.2 := hs.readBytes
    exact .iteSnd hb.snd hb.snd

theorem Kept.nodeOfCmd {x} (hs : u.Kept s) : u.Kept (s.nodeOfCmd x).2 := by
  unfold State.nodeOfCmd
  split
  next s1 e =>
    have hs1 : u.Kept s1 := .ofSnd e hs.nodeIdOf
    exact hs1.snd
  next s1 e =>
    have hs1 : u.Kept s1 := .ofSnd e hs.nodeIdOf
    extract_lets l
    have hl : u.Kept l.2 := hs1.nodeLookup
    exact hl.snd

theorem Kept.modCmd {c age f} (hs : u.Kept s) : u.Kept (s.modCmd c age f) := hs.modChain

theorem Kept.dropCmd {c age} (hs : u.Kept s) : u.Kept (s.dropCmd c age) := hs.modChain

theorem Kept.begin {c x} (hs : u.Kept s) : u.Kept (s.begin c x) := by
  unfold State.begin
  extract_lets
  split
  next s2 e =>
    have hs2 : u.Kept s2 := .ofSnd e hs.dropCmd.girthAdmit
    exact hs2.txFail.settle
  next s2 e =>
    have hs2 : u.Kept s2 := .ofSnd e hs.dropCmd.girthAdmit
    extract_lets
    split
    next s2 e =>
      have hs2 : u.Kept s2 := .ofSnd e hs2.dutyAdmit
      exact hs2.txFail.settle
    next s2 e =>
      have hs2 : u.Kept s2 := .ofSnd e hs2.dutyAdmit
      split
      next s1 e =>
        have hs1 : u.Kept s1 := .ofSnd e hs2.txPsdu
        exact hs1.txFail.settle
      next s1 e =>
        have hs1 : u.Kept s1 := .ofSnd e hs2.txPsdu
        extract_lets
        exact .ite hs1.access (.ite hs1.access hs1.hop.setStart)

theorem Kept.execTxStartSequence {txh} (hs : u.Kept s) : u.KeptIn (execTxStartSequence txh s) := by
  unfold Machine.execTxStartSequence
  extract_lets
  refine Kept.ite hs ?_
  split
  · exact hs
  · exact .ite hs.begin hs

theorem Kept.execNodeAccountRequest {txh} (hs : u.Kept s) : u.KeptIn (execNodeAccountRequest txh s) := by
  unfold Machine.execNodeAccountRequest
  extract_lets
  split
  · exact hs
  · exact hs.modCmd

theorem Kept.nodeCheck {c x} (hs : u.Kept s) : u.Kept (s.nodeCheck c x) := by
  unfold State.nodeCheck
  split
  next s1 e =>
    have hs1 : u.Kept s1 := .ofSnd e hs.nodeOfCmd
    exact hs1.modCmd
  next s1 e =>
    have hs1 : u.Kept s1 := .ofSnd e hs.nodeOfCmd
    extract_lets r a rate reply e k
    have hr : u.Kept r.2 := hs1.acctTouch
    have hk : u.Kept k.2 := hr.acctCharge
    exact .ite hr.acctPut.finc.dropCmd.txFail.settle hk.modCmd

theorem Kept.execNodeAccountAnswer {txh} (hs : u.Kept s) : u.KeptIn (execNodeAccountAnswer txh s) := by
  unfold Machine.execNodeAccountAnswer
  extract_lets
  split
  · exact hs
  · exact hs.nodeCheck

theorem Kept.frontEnd {c k} (hs : u.Kept s) : u.Kept (s.frontEnd c k) := by
  unfold State.frontEnd
  extract_lets h' put s1
  have hs1 : u.Kept s1 := hs.modChain.enterSynth.updateBlank
  split
  · exact .ite (.ite hs.startFail hs.modChain.setChainState.updateBlank) hs
  · exact .ite hs.modChain hs
  · exact .ite hs.startFail (.ite hs.modChain.updateBlank hs)
  · split
    · exact hs.modChain
    · exact hs
  · exact .ite hs.modChain hs
  · exact .ite hs.modChain hs
  · exact .ite hs1.settle hs
  · exact hs

theorem Kept.airDrop {c age} (hs : u.Kept s) : u.Kept (s.airDrop c age) := hs.modChain.updateBlank

theorem Kept.carrierEnd {c i} (hs : u.Kept s) : u.Kept (s.carrierEnd c i) := by
  unfold State.carrierEnd
  split
  · exact hs
  · exact .ite hs hs.airDrop.txDone

theorem Kept.failAll {c status xs} (hs : u.Kept s) : u.Kept (s.failAll c status xs) :=
  hs.foldl fun _ _ h => h.dropCmd.txFail

theorem Kept.execTxLatestStartExpiry {txh} (hs : u.Kept s) : u.KeptIn (execTxLatestStartExpiry txh s) := by
  unfold Machine.execTxLatestStartExpiry
  extract_lets c s1
  have hs1 : u.Kept s1 := hs.failAll
  split
  · exact .ite hs1.startFail hs1.settle
  · exact hs1.settle

theorem Kept.cancelAir {c k} (hs : u.Kept s) : u.Kept (s.cancelAir c k) := hs.dutyCredit.girthCredit.airDrop.txDone

theorem Kept.txCancel {c p} (hs : u.Kept s) : u.Kept (s.txCancel c p) := by
  unfold State.txCancel
  extract_lets s1 s2
  have hs1 : u.Kept s1 := hs.failAll
  have hs2 : u.Kept s2 := by
    unfold s2
    split
    · exact .ite hs1.startFail hs1
    · exact hs1
  exact (hs2.foldl fun _ _ h => h.cancelAir).settle

theorem Kept.txCancelPort {n v} (hs : u.Kept s) : u.Kept (s.txCancelPort n v) := hs.txCancel

theorem Kept.execTxCancel {e v} (hs : u.Kept s) : u.KeptIn (execTxCancel e v s) := hs.iff fun _ h => h.txCancelPort

theorem Kept.supTxCancel {c tag} (hs : u.Kept s) : u.Kept (s.supTxCancel c tag) := hs.txCancel

theorem Kept.execSupTxCancel {txh tag} (hs : u.Kept s) : u.KeptIn (execSupTxCancel txh tag s) :=
  hs.iff fun _ h => h.supTxCancel

theorem Kept.txCalWrite {c v} (hs : u.Kept s) : u.Kept (s.txCalWrite c v) := by
  unfold State.txCalWrite
  refine .ite hs ?_
  extract_lets lo s1 s2
  have hs1 : u.Kept s1 := hs.fset
  have hs2 : u.Kept s2 := .ite hs1.modChain hs1
  exact .ite hs2.modChain.fset hs2

theorem Kept.execTxCalGo {txh lo} (hs : u.Kept s) : u.KeptIn (execTxCalGo txh lo s) := hs.txCalWrite

theorem Kept.execTxCalFlush {txh} (hs : u.Kept s) : u.KeptIn (execTxCalFlush txh s) := hs.txCalWrite

theorem Kept.execTxCalDone {txh} (hs : u.Kept s) : u.KeptIn (execTxCalDone txh s) := by
  unfold Machine.execTxCalDone
  extract_lets
  split
  · exact hs
  · exact .ite hs.modChain.fset hs

/-! ## RTC and timers (Machine/Timers) -/

theorem Kept.modRtc {f} (hs : u.Kept s) : u.Kept (s.modRtc f) := hs.same

theorem Kept.residency (hs : u.Kept s) : u.Kept s.residency := .ite hs.fsat hs

theorem Kept.execRtcTick {vbatLow} (hs : u.Kept s) : u.KeptIn (execRtcTick vbatLow s) := by
  unfold Machine.execRtcTick
  extract_lets s0
  have hs0 : u.Kept s0 := hs.fset.fset
  exact Kept.ite hs0.modRtc.fset hs0.modRtc.residency

theorem Kept.rtcCtrlWrite {v} (hs : u.Kept s) : u.Kept (s.rtcCtrlWrite v) := by
  unfold State.rtcCtrlWrite
  extract_lets s1
  have hs1 : u.Kept s1 := .ite hs hs.fset
  exact .ite hs1.modRtc hs1

theorem Kept.execRtcLoad {m v} (hs : u.Kept s) : u.KeptIn (execRtcLoad m v s) :=
  hs.regGate fun _ h => h.rtcCtrlWrite

theorem Kept.execXtalFail (hs : u.Kept s) : u.KeptIn (execXtalFail s) := hs.iff fun _ h => h.fset.logHw

theorem Kept.execVbatSwitchover (hs : u.Kept s) : u.KeptIn (execVbatSwitchover s) := by
  unfold Machine.execVbatSwitchover
  refine hs.iff fun t h => ?_
  extract_lets t1
  have ht1 : u.Kept t1 := h.fset.fsat
  exact .ite ht1 ht1.fset.fset.fset.fset

theorem Kept.execVddaSwitchback (hs : u.Kept s) : u.KeptIn (execVddaSwitchback s) := hs.fset

theorem Kept.setShadow {k v} (hs : u.Kept s) : u.Kept (s.setShadow k v) := hs.modRtc

theorem Kept.rtcFreeze {k} (hs : u.Kept s) : u.Kept (s.rtcFreeze k) := hs.setShadow

theorem Kept.execRtcShadowFreeze {m} (hs : u.Kept s) : u.KeptIn (execRtcShadowFreeze m s) :=
  hs.regGateRead fun _ h => h.rtcFreeze

theorem Kept.execRtcShadowRelease {m} (hs : u.Kept s) : u.KeptIn (execRtcShadowRelease m s) :=
  hs.regGateRead fun _ h => h.setShadow

theorem Kept.execShadowTimeout {m} (hs : u.Kept s) : u.KeptIn (execShadowTimeout m s) := hs.setShadow

theorem Kept.modTimer {n f} (hs : u.Kept s) : u.Kept (s.modTimer n f) := hs.same

theorem Kept.timersStart {ns} (hs : u.Kept s) : u.Kept (s.timersStart ns) :=
  hs.foldl fun _ _ h => .ite h h.fset.modTimer

theorem Kept.tmrStart {v} (hs : u.Kept s) : u.Kept (s.tmrStart v) := .ite hs.same hs.same.timersStart

theorem Kept.timersAtSlot (hs : u.Kept s) : u.Kept s.timersAtSlot := hs.same.timersStart

theorem Kept.tmrStop {v} (hs : u.Kept s) : u.Kept (s.tmrStop v) := hs.foldl fun _ _ h => .ite h.modTimer h

theorem Kept.execTmrStart {m v} (hs : u.Kept s) : u.KeptIn (execTmrStart m v s) := hs.regGate fun _ h => h.tmrStart

theorem Kept.execTmrStop {m v} (hs : u.Kept s) : u.KeptIn (execTmrStop m v s) := hs.regGate fun _ h => h.tmrStop

theorem Kept.tmrCfgWrite {n v} (hs : u.Kept s) : u.Kept (s.tmrCfgWrite n v) := by
  unfold State.tmrCfgWrite
  extract_lets e okT s1 s2
  have hs1 : u.Kept s1 := hs.fset.fset.iff (fun _ h => h.fset)
  have hs2 : u.Kept s2 := .ite hs1 (hs1.fset.iff (fun _ h1 => h1.modTimer))
  exact .ite hs2.timersStart hs2.fset.modTimer

theorem Kept.execTimerClear {m n v} (hs : u.Kept s) : u.KeptIn (execTimerClear m n v s) :=
  hs.regGate fun _ h => h.tmrCfgWrite

theorem Kept.reloadCommit {n v} (hs : u.Kept s) : u.Kept (s.reloadCommit n v) :=
  .ite hs (.ite hs.modTimer hs.modTimer)

theorem Kept.execReloadCommit {m n v} (hs : u.Kept s) : u.KeptIn (execReloadCommit m n v s) :=
  hs.regGate fun _ h => h.reloadCommit

theorem Kept.cmpCommit {n v} (hs : u.Kept s) : u.Kept (s.cmpCommit n v) :=
  .ite hs.modTimer (.ite hs.modTimer (hs.modTimer.iff (fun _ h => h.fset)))

theorem Kept.execCompareCommit {m n v} (hs : u.Kept s) : u.KeptIn (execCompareCommit m n v s) :=
  hs.regGate fun _ h => h.cmpCommit

theorem Kept.timerNotice {n bit} (hs : u.Kept s) : u.Kept (s.timerNotice n bit) := .ite hs.post hs

theorem Kept.timerStep {n} (hs : u.Kept s) : u.Kept (s.timerStep n).1 := by
  unfold State.timerStep
  refine .iteFst hs ?_
  extract_lets r e _ s1 ev s2 s3
  have hs1 : u.Kept s1 := hs.modTimer
  have hev : ∀ t on f bit, u.Kept t → u.Kept (ev t on f bit) := fun _ _ _ _ h => .ite h.fset.timerNotice h
  have hs2 : u.Kept s2 := hev _ _ _ _ (hev _ _ _ _ (hev _ _ _ _ (hev _ _ _ _ hs1)))
  have hs3 : u.Kept s3 := .ite hs2.fset hs2
  exact (Kept.ite hs3.fset hs3).fst

/-! ## Cinch (Machine/Cinch) -/

theorem Kept.modCinch {f} (hs : u.Kept s) : u.Kept (s.modCinch f) := hs.same

theorem Kept.pass {n} (hs : u.Kept s) : u.Kept (s.pass n) := hs.same

theorem Kept.refTick (hs : u.Kept s) : u.Kept s.refTick := hs.modCinch.pass

theorem Kept.cinchTo {x} (hs : u.Kept s) : u.Kept (s.cinchTo x) := .ite hs.modCinch.pass hs

theorem Kept.cinchAlarm {f} (hs : u.Kept s) : u.Kept (s.cinchAlarm f) := by
  unfold State.cinchAlarm
  extract_lets s1
  have hs1 : u.Kept s1 := hs.fset
  exact hs1.alarm

theorem Kept.setCinchState {v} (hs : u.Kept s) : u.Kept (s.setCinchState v) := hs.fset.fset

theorem Kept.modSource {k f} (hs : u.Kept s) : u.Kept (s.modSource k f) := hs.modCinch.fset

theorem Kept.observe {k o stratum} (hs : u.Kept s) : u.Kept (s.observe k o stratum) :=
  .ite hs (.ite hs.modSource.cinchAlarm.logHw hs.modSource)

theorem Kept.ppsTake {x} (hs : u.Kept s) : u.Kept (s.ppsTake x) := hs.modCinch.finc.observe

theorem Kept.execPpsEdge {x} (hs : u.Kept s) : u.KeptIn (execPpsEdge x s) := by
  unfold Machine.execPpsEdge
  refine hs.iff fun t h => ?_
  split
  · exact .ite h.finc h.ppsTake
  · exact h.ppsTake

theorem Kept.ptpObserve {p sec} (hs : u.Kept s) : u.Kept (s.ptpObserve p sec) := .ite hs.observe hs

theorem Kept.airObs {w4} (hs : u.Kept s) : u.Kept (s.airObs w4) := by
  unfold State.airObs
  extract_lets w dev age refuse
  have hrefuse : u.Kept refuse := hs.finc
  split
  · exact hrefuse
  · exact .ite hrefuse hs.observe.modSource

theorem Kept.airObsWrite {v} (hs : u.Kept s) : u.Kept (s.airObsWrite v) := .ite hs.airObs hs

theorem Kept.execAirObsSubmit {m v} (hs : u.Kept s) : u.KeptIn (execAirObsSubmit m v s) :=
  hs.regGate fun _ h => h.airObsWrite

theorem Kept.missed {k} (hs : u.Kept s) : u.Kept (s.missed k) := by
  unfold State.missed
  extract_lets x n s1
  have hs1 : u.Kept s1 := hs.modSource
  exact .ite hs.modSource (.ite hs.modSource (.ite hs1.modSource.finc.cinchAlarm hs1))

theorem Kept.cinchSet {k o} (hs : u.Kept s) : u.Kept (s.cinchSet k o) := by
  unfold State.cinchSet
  extract_lets next a num s1
  have hs1 : u.Kept s1 := hs.modCinch.finc
  exact .ite hs1.fset hs1

theorem Kept.lockUpdate {o step} (hs : u.Kept s) : u.Kept (s.lockUpdate o step) := by
  unfold State.lockUpdate
  extract_lets s1
  have hs1 : u.Kept s1 := hs.modCinch
  split
  · exact .ite hs1.setCinchState hs1
  · exact .ite hs1.setCinchState hs1
  · exact hs1

theorem Kept.slew {o} (hs : u.Kept s) : u.Kept (s.slew o) :=
  .ite (.ite hs.modCinch.finc.lockUpdate hs.modCinch.finc.lockUpdate) hs.modCinch.lockUpdate

theorem Kept.toFree (hs : u.Kept s) : u.Kept s.toFree :=
  (hs.setCinchState.fset.foldl fun _ _ h => h.modSource).modCinch

theorem Kept.servo (hs : u.Kept s) : u.Kept s.servo := by
  unfold State.servo
  extract_lets s1 old s2
  have hs1 : u.Kept s1 := .ite hs.toFree hs
  have hs2 : u.Kept s2 := hs1.modCinch.fset
  split
  · exact .ite hs2.setCinchState.modCinch hs2
  · extract_lets o s2
    have hs2 : u.Kept s2 := hs1.fset.fset.fset
    split
    · exact hs2.cinchSet.setCinchState.modCinch
    · exact hs2.setCinchState.modCinch.slew
    · exact .ite hs2.slew hs2.setCinchState.modCinch.slew
    · exact hs2.slew

theorem Kept.outEarly (hs : u.Kept s) : u.Kept s.outEarly := hs.iff fun _ h => h.modCinch

theorem Kept.execCinchDecision (hs : u.Kept s) : u.KeptIn (execCinchDecision s) :=
  hs.iff fun _ h => (((h.cinchTo.foldl fun _ _ h1 => h1.missed).servo).outEarly).modCinch

theorem Kept.execHoldoverKeepExpiry (hs : u.Kept s) : u.KeptIn (execHoldoverKeepExpiry s) :=
  hs.iff fun _ h => h.modCinch.fset.cinchAlarm.logHw

theorem Kept.rateWrite {v} (hs : u.Kept s) : u.Kept (s.rateWrite v) := .ite hs.modCinch hs

theorem Kept.execRateWrite {m v} (hs : u.Kept s) : u.KeptIn (execRateWrite m v s) :=
  hs.regGate fun _ h => h.rateWrite

theorem Kept.cinchCtrlWrite {v} (hs : u.Kept s) : u.Kept (s.cinchCtrlWrite v) := by
  unfold State.cinchCtrlWrite
  extract_lets s1
  have hs1 : u.Kept s1 := hs.fset.fset.fset
  exact .ite hs1.modCinch hs1

theorem Kept.execReacquire {m v} (hs : u.Kept s) : u.KeptIn (execReacquire m v s) :=
  hs.regGate fun _ h => h.cinchCtrlWrite

theorem Kept.execPlanSwapRequest {m} (hs : u.Kept s) : u.KeptIn (execPlanSwapRequest m s) :=
  hs.regGate fun _ h => h.fset

theorem Kept.planWrite {b slot v} (hs : u.Kept s) : u.Kept (s.planWrite b slot v) := .ite hs hs.setReg

theorem Kept.execPlanWrite {m bank slot v} (hs : u.Kept s) : u.KeptIn (execPlanWrite m bank slot v s) :=
  hs.regGate fun _ h => h.planWrite

theorem Kept.strobe {on} (hs : u.Kept s) : u.Kept (s.strobe on) := hs.same

theorem Kept.runSlot {slot} (hs : u.Kept s) : u.Kept (s.runSlot slot) := by
  unfold State.runSlot
  extract_lets e s1 s2
  have hs1 : u.Kept s1 := hs.foldl fun _ _ h => .ite h.post h
  have hs2 : u.Kept s2 := hs1.modCinch
  exact (Kept.ite hs2.strobe hs2).timersAtSlot

theorem Kept.execSlotStart {slot} (hs : u.Kept s) : u.KeptIn (execSlotStart slot s) :=
  hs.iff fun _ h => h.cinchTo.runSlot

theorem Kept.extStart (hs : u.Kept s) : u.Kept s.extStart := hs.modCinch

theorem Kept.extBoundary {len} (hs : u.Kept s) : u.Kept (s.extBoundary len) := hs.modCinch

theorem Kept.execExtenderUpdate {island drift} (hs : u.Kept s) : u.KeptIn (execExtenderUpdate island drift s) :=
  hs.iff fun _ h => h.modCinch.iff (fun _ h1 => h1.cinchAlarm.logHw)

theorem Kept.execCinchCompareFire {c slots cancel} (hs : u.Kept s) :
    u.KeptIn (execCinchCompareFire c slots cancel s) := by
  unfold Machine.execCinchCompareFire
  extract_lets n named
  clear_value named
  split
  · exact hs
  · extract_lets
    exact .ite hs hs.cinchTo.modEng.readyAll

theorem Kept.outBoundary (hs : u.Kept s) : u.Kept s.outBoundary := by
  unfold State.outBoundary
  extract_lets
  exact hs.iff fun _ h => h.modCinch

theorem Kept.execCinchOutFall (hs : u.Kept s) : u.KeptIn (execCinchOutFall s) := hs.modCinch

theorem Kept.execSlotStrobeEnd (hs : u.Kept s) : u.KeptIn (execSlotStrobeEnd s) := hs.strobe

/-! ## Decoder pool (Machine/Decoder) -/

theorem Kept.modDec {f} (hs : u.Kept s) : u.Kept (s.modDec f) := hs.same

theorem Kept.setIngress {n x} (hs : u.Kept s) : u.Kept (s.setIngress n x) := hs.modDec

theorem Kept.setCtx {x c} (hs : u.Kept s) : u.Kept (s.setCtx x c) := hs.modDec

theorem Kept.modFrame {f g} (hs : u.Kept s) : u.Kept (s.modFrame f g) := hs.modDec

theorem Kept.writeWhole {k bs} (hs : u.Kept s) : u.Kept (s.writeWhole k bs) := .ite hs hs.writeBytes

theorem Kept.ringWrite {r t count bs} (hs : u.Kept s) : u.Kept (s.ringWrite r t count bs) := by
  unfold State.ringWrite
  extract_lets room s1
  have hs1 : u.Kept s1 := hs.writeWhole
  exact .ite hs1 hs1.writeWhole

theorem Kept.ringRdWrite {r t v} (hs : u.Kept s) : u.Kept (s.ringRdWrite r t v).2 :=
  .iteSnd hs.fset.fset.snd hs.fset.snd

theorem Kept.execRingRdWrite {e v} (hs : u.Kept s) : u.KeptIn (execRingRdWrite e v s) :=
  hs.iff fun _ h => h.ringRdWrite

theorem Kept.demote {h} (hs : u.Kept s) : u.Kept (s.demote h).2 := .iteSnd hs.modFrame.finc.snd hs

theorem Kept.grantCtx {core h} (hs : u.Kept s) : u.Kept (s.grantCtx core h) := by
  unfold State.grantCtx
  split
  · exact hs
  · extract_lets sa
    have hsa : u.Kept sa := hs.setCtx
    exact hsa.same

theorem Kept.demoteHeld {r} (hs : u.Kept s) : u.Kept (s.demoteHeld r) := by
  unfold State.demoteHeld
  refine hs.foldl fun t h' h => .ite ?_ h
  extract_lets d
  have hd : u.Kept d.2 := h.demote
  exact hd.modDec

theorem Kept.giveContexts {r fuel} (hs : u.Kept s) : u.Kept (s.giveContexts r fuel) := by
  induction fuel generalizing s with
  | zero => exact hs
  | succ fuel ih =>
    unfold State.giveContexts
    extract_lets s1
    have hs1 : u.Kept s1 := hs.demoteHeld
    split
    · exact hs1
    · split
      · exact hs1
      · exact ih hs1.modDec.grantCtx

theorem Kept.freeCtx {x} (hs : u.Kept s) : u.Kept (s.freeCtx x) := hs.setCtx.giveContexts

theorem Kept.tqWrite {r t v} (hs : u.Kept s) : u.Kept (s.tqWrite r t v) := by
  unfold State.tqWrite
  extract_lets pick s1 sa
  have hs1 : u.Kept s1 := hs.fset.fset.fset.fset
  have hsa : u.Kept sa := hs1.fset
  exact .ite hs (.ite (.ite hs1 hsa.same) hs)

theorem Kept.execDecoderTqWrite {m r t v} (hs : u.Kept s) : u.KeptIn (execDecoderTqWrite m r t v s) :=
  hs.regGate fun _ h => h.tqWrite

theorem Kept.reserveWrite {v} (hs : u.Kept s) : u.Kept (s.reserveWrite v) := .ite hs.fset hs

theorem Kept.execDecoderReserveWrite {m v} (hs : u.Kept s) : u.KeptIn (execDecoderReserveWrite m v s) :=
  hs.regGate fun _ h => h.reserveWrite

theorem Kept.settleEntry {k f status reason} (hs : u.Kept s) : u.Kept (s.settleEntry k f status reason) := by
  unfold State.settleEntry
  extract_lets urgent s1 s2
  have hs1 : u.Kept s1 := hs.ringWrite
  have hs2 : u.Kept s2 := .ite hs1.finc hs1
  exact hs2.modDec

theorem Kept.frameDone {k} (hs : u.Kept s) : u.Kept (s.frameDone k) := by
  unfold State.frameDone
  extract_lets f p s1 e _ s15
  have hs1 : u.Kept s1 := hs.settleEntry.finc
  have hs15 : u.Kept s15 := hs.finc
  exact .ite hs1.same (.ite hs15.settleEntry.post hs15.settleEntry)

theorem Kept.frameCheck {k} (hs : u.Kept s) : u.Kept (s.frameCheck k) := by
  unfold State.frameCheck
  refine .ite hs ?_
  extract_lets
  split
  · exact .ite hs hs.settleEntry
  · exact .ite hs.frameDone hs

theorem Kept.endEarly {k reason} (hs : u.Kept s) : u.Kept (s.endEarly k reason) := by
  unfold State.endEarly
  extract_lets s1
  have hs1 : u.Kept s1 := hs.modFrame.modDec
  exact (hs1.foldl fun _ _ h => h.freeCtx).frameCheck

theorem Kept.dropReports {rest} (hs : u.Kept s) : u.Kept (s.dropReports rest) := hs.same

theorem Kept.execIngressSyncRecord {n} (hs : u.Kept s) : u.KeptIn (execIngressSyncRecord n s) := by
  unfold Machine.execIngressSyncRecord
  split
  · exact .ite hs.dropReports.setIngress hs
  · exact hs

theorem Kept.ingressEnd {n} (hs : u.Kept s) : u.Kept (s.ingressEnd n) := hs.setIngress.rxEnd

theorem Kept.tied {n} (hs : u.Kept s) : u.Kept (s.tied n) := hs.same

theorem Kept.execIngressHeader {n soft} (hs : u.Kept s) : u.KeptIn (execIngressHeader n soft s) := by
  unfold Machine.execIngressHeader
  extract_lets i g s'
  have hs' : u.Kept s' := hs.tied
  refine Kept.ite hs ?_
  split
  · exact hs'.ingressEnd.finc
  · exact .ite hs'.ingressEnd.finc hs'.ringWrite.fset.modDec.setIngress

theorem Kept.execCodewordStart {n} (hs : u.Kept s) : u.KeptIn (execCodewordStart n s) := by
  unfold Machine.execCodewordStart
  extract_lets i g f urgent h0 sa s0 d
  have hsa : u.Kept sa := hs.modFrame
  have hs0 : u.Kept s0 := hsa.same
  have hd : u.Kept d.2 := hs0.demote
  refine Kept.ite hs ?_
  split
  · exact hd.grantCtx
  · exact .ite hd.modDec.finc hd.ingressEnd.finc.finc.modFrame.endEarly

theorem Kept.execCodewordFilled {n soft} (hs : u.Kept s) : u.KeptIn (execCodewordFilled n soft s) := by
  unfold Machine.execCodewordFilled
  refine Kept.ite hs ?_
  split
  · exact hs.setCtx
  · split
    · exact hs
    · exact hs.modDec

theorem Kept.ingressEnded {n reason switched gain rest} (hs : u.Kept s) :
    u.Kept (s.ingressEnded n reason switched gain rest) := by
  unfold State.ingressEnded
  extract_lets g s1
  have hs1 : u.Kept s1 := hs.dropReports
  split
  · exact hs1
  · exact hs1.setIngress
  · exact hs1.setIngress.modFrame.endEarly

theorem Kept.execIngressLastSoftBit {n soft} (hs : u.Kept s) : u.KeptIn (execIngressLastSoftBit n soft s) := by
  unfold Machine.execIngressLastSoftBit
  extract_lets i g f x s1 s2
  have hs1 : u.Kept s1 := hs.ingressEnd.modFrame
  have hs2 : u.Kept s2 := .ite hs1.tied.ringWrite hs1
  refine Kept.ite hs ?_
  split
  · exact hs.ingressEnded
  · exact hs2.frameCheck

theorem Kept.execIngressEndReport {n} (hs : u.Kept s) : u.KeptIn (execIngressEndReport n s) := by
  unfold Machine.execIngressEndReport
  refine hs.iff fun t h => ?_
  split
  · exact h.ingressEnded
  · exact h

theorem Kept.coreNext {core} (hs : u.Kept s) : u.Kept (s.coreNext core) := by
  unfold State.coreNext
  extract_lets
  refine .ite hs ?_
  split
  · exact hs
  · exact hs.setCtx

theorem Kept.execContextLoadDone {x} (hs : u.Kept s) : u.KeptIn (execContextLoadDone x s) :=
  hs.iff fun _ h => h.tied.setCtx.coreNext

theorem Kept.execIterationEnd {core} (hs : u.Kept s) : u.KeptIn (execIterationEnd core s) := by
  unfold Machine.execIterationEnd
  extract_lets
  split
  · exact hs
  · extract_lets n cap s1
    have hs1 : u.Kept s1 := hs.tied.modFrame
    exact .ite hs1.freeCtx.frameCheck.coreNext
        (.ite hs1.setCtx.coreNext (.ite hs1.modFrame.setCtx.coreNext (.ite hs1.setCtx.finc.coreNext hs1.setCtx)))

theorem Kept.execContextStoreDone {x} (hs : u.Kept s) : u.KeptIn (execContextStoreDone x s) :=
  hs.iff fun _ h => h.ringWrite.modFrame.freeCtx.frameCheck

theorem Kept.prioApply {p} (hs : u.Kept s) : u.Kept (s.prioApply p) := by
  unfold State.prioApply
  extract_lets
  split
  · exact hs.same.same
  · exact hs.same.same
  · exact hs.modDec

theorem Kept.execPriorityChangeArrival (hs : u.Kept s) : u.KeptIn (execPriorityChangeArrival s) := by
  unfold Machine.execPriorityChangeArrival
  split
  · exact hs
  · exact hs.same.prioApply

/-! ## Relay unit (Machine/Relay) -/

theorem Kept.sealFrame {byRec key prio f payload c x} (hs : u.Kept s) :
    u.Kept (s.sealFrame byRec key prio f payload c x) :=
  hs.enqueueUnit

theorem Kept.seenCheck {src ctr} (hs : u.Kept s) : u.Kept (s.seenCheck src ctr) := hs.readWords

theorem Kept.modRelay {f} (hs : u.Kept s) : u.Kept (s.modRelay f) := hs.same

theorem Kept.setSeen {k e} (hs : u.Kept s) : u.Kept (s.setSeen k e) := hs.setFlip.setFlip.modRelay

theorem Kept.seenInsert {src ctr tenant verified} (hs : u.Kept s) :
    u.Kept (s.seenInsert src ctr tenant verified).2 := by
  unfold State.seenInsert
  extract_lets ks age free k s1
  have hs1 : u.Kept s1 := .ite hs.finc hs
  exact hs1.setSeen.modRelay.snd

theorem Kept.seenExpire {live} (hs : u.Kept s) : u.Kept (s.seenExpire live) := hs.fadd.modRelay

theorem Kept.countVerdict {t code} (hs : u.Kept s) : u.Kept (s.countVerdict t code) := by
  unfold State.countVerdict
  split
  · exact hs.finc
  · exact hs.finc
  · exact hs.finc
  · exact hs.finc
  · exact hs.finc
  · exact hs.finc
  · exact hs.finc

theorem Kept.zeroFrom {e off} (hs : u.Kept s) : u.Kept (s.zeroFrom e off) := hs.ringWrite

theorem Kept.entryPsdu {e} (hs : u.Kept s) : u.Kept (s.entryPsdu e).2.2 := by
  unfold State.entryPsdu
  extract_lets c room a b
  have ha : u.Kept a.2.2 := hs.readBytes
  have hb : u.Kept b.2.2 := ha.readBytes
  exact .iteThird ha hb.third

theorem Kept.finish {e v plain} (hs : u.Kept s) : u.Kept (s.finish e v plain) := by
  unfold State.finish
  extract_lets w7 s1 w5 s2 s3
  have hs1 : u.Kept s1 := hs.ringWrite
  have hs2 : u.Kept s2 := .ite hs1 hs1.ringWrite
  have hs3 : u.Kept s3 := .ite hs2.zeroFrom hs2
  exact hs3.countVerdict

theorem Kept.frameNotice {e t code} (hs : u.Kept s) : u.Kept (s.frameNotice e t code) := hs.post

theorem Kept.sendAck {e f recd pend margin} (hs : u.Kept s) : u.Kept (s.sendAck e f recd pend margin).2 := by
  unfold State.sendAck
  extract_lets
  split
  · exact .iteSnd hs.finc.snd hs.sealFrame.snd
  · exact hs.finc.snd

theorem Kept.scheduleRelay {e f k buf draw} (hs : u.Kept s) : u.Kept (s.scheduleRelay e f k buf draw).2.2 := by
  unfold State.scheduleRelay
  extract_lets t freq w head s1
  have hs1 : u.Kept s1 := .ite hs.finc hs
  refine .iteThird hs ?_
  split
  · extract_lets a x y s2 q
    have hs2 : u.Kept s2 := hs1.setSeen.writeBytes
    have hq : u.Kept q.2 := hs2.txSubmit
    exact hq.third
  · exact hs1.finc.third

theorem Kept.takeBuf {p} (hs : u.Kept s) : u.Kept (s.takeBuf p).2 := by
  unfold State.takeBuf
  split
  · exact hs
  · exact hs.writeBytes.modRelay.snd

theorem Kept.dropBuf {b} (hs : u.Kept s) : u.Kept (s.dropBuf b) := by
  unfold State.dropBuf
  split
  · exact hs
  · exact hs.modRelay

theorem Kept.reserve {e t} (hs : u.Kept s) : u.Kept (s.reserve e t) := by
  unfold State.reserve
  extract_lets
  split
  · exact hs.finc
  · extract_lets
    exact .ite hs.finc hs.modChain.finc

theorem Kept.execReservationStart {i} (hs : u.Kept s) : u.KeptIn (execReservationStart i s) := hs.modChain

theorem Kept.execReservationEnd {i} (hs : u.Kept s) : u.KeptIn (execReservationEnd i s) := by
  unfold Machine.execReservationEnd
  split
  · exact hs
  · extract_lets s1
    have hs1 : u.Kept s1 := hs.modChain
    exact .ite hs1 hs1.finc

theorem Kept.reservesCancel {old} (hs : u.Kept s) : u.Kept (s.reservesCancel old) := by
  unfold State.reservesCancel
  extract_lets ended gone awaited s1 s2
  have hs1 : u.Kept s1 := hs.modChain.fadd
  have hs2 : u.Kept s2 := hs1.failAll
  split
  · exact .ite hs2.startFail hs2
  · exact hs2

theorem Kept.deliver {e f k v recd pend} (hs : u.Kept s) : u.Kept (s.deliver e f k v recd pend) := by
  unfold State.deliver
  extract_lets t _ s1 acks m src5 s2 r
  have hs1 : u.Kept s1 := hs.setSeen
  have hs2 : u.Kept s2 := hs1.setSeen
  have hr : u.Kept r.2 := .iteSnd hs2.sendAck hs1.snd
  exact .ite hs.finish (.ite hr.finish.frameNotice (.ite hs.finish.frameNotice hs.zeroFrom.finish))

theorem Kept.suppress {k} (hs : u.Kept s) : u.Kept (s.suppress k) := by
  unfold State.suppress
  extract_lets
  split
  · exact hs.setSeen.failAll
  · exact hs.setSeen

theorem Kept.duplicate {e f k v recd pend} (hs : u.Kept s) : u.Kept (s.duplicate e f k v recd pend) := by
  unfold State.duplicate
  extract_lets n _ s1 q s2 r
  have hs1 : u.Kept s1 := hs.setSeen
  have hs2 : u.Kept s2 := .ite hs1.suppress hs1
  have hr : u.Kept r.2 := .iteSnd hs2.sendAck hs2.snd
  exact .ite hs2.deliver hr.finish

theorem Kept.learnCharge {n e} (hs : u.Kept s) : u.Kept (s.learnCharge n e) := by
  unfold State.learnCharge
  refine .ite ?_ hs
  extract_lets r
  have hr : u.Kept r.2 := hs.acctTouch
  exact hr.acctCharge

theorem Kept.nodeLearn {a id ctr e} (hs : u.Kept s) : u.Kept (s.nodeLearn a id ctr e) := by
  unfold State.nodeLearn
  extract_lets r
  have hr : u.Kept r.2 := hs.nodeRead
  exact .ite hr.learnCharge.nodeWrite hr.finc

theorem Kept.afterVerify {j verified p} (hs : u.Kept s) : u.Kept (s.afterVerify j verified p) := by
  unfold State.afterVerify
  extract_lets e f s' v recd old i s1 r s2
  have hs' : u.Kept s' := hs.seenCheck
  have hi : u.Kept i.2 := hs'.seenInsert
  have hs1 : u.Kept s1 := by
    unfold s1
    split
    · exact .ite hi.nodeLearn hi
    · exact hi
  have hr : u.Kept r.2.2 := .iteThird hs1.scheduleRelay hs1.third
  have hs2 : u.Kept s2 := .ite hr hr.dropBuf
  split
  · exact hs'.duplicate.dropBuf
  · exact .ite hs'.finish.dropBuf hs2.deliver

theorem Kept.foreignUnstarted {e f v} (hs : u.Kept s) : u.Kept (s.foreignUnstarted e f v) :=
  .ite (((Kept.ite hs.zeroFrom hs).finish).frameNotice) hs.zeroFrom.finish

theorem Kept.verifyJob {k tlen prio nonce aad data} (hs : u.Kept s) :
    u.Kept (s.verifyJob k tlen prio nonce aad data) :=
  hs.enqueue

theorem Kept.relayHandle {e draw} (hs : u.Kept s) : u.Kept (s.relayHandle e draw) := by
  unfold State.relayHandle
  extract_lets pr s' p f v b l node j s1
  have hpr : u.Kept pr.2.2 := hs.entryPsdu
  have hs' : u.Kept s' := hpr
  have hb : u.Kept b.2 := .iteSnd hs'.takeBuf hs'.snd
  have hl : u.Kept l.2 := hb.nodeLookup
  have hs1 : u.Kept s1 := hl
  refine .ite hs'.finish
      (.ite hs'.finish (.ite hs'.foreignUnstarted (.ite ?_ (.ite hs1.finish.dropBuf hs1.afterVerify))))
  split
  · exact hs1.afterVerify
  · extract_lets
    exact hs1.verifyJob.modRelay

theorem Kept.execRelayHandle {draw} (hs : u.Kept s) : u.KeptIn (execRelayHandle draw s) := by
  unfold Machine.execRelayHandle
  split
  · exact hs
  · exact hs.modRelay.relayHandle

theorem Kept.deliverF1 {e k v auth reply} (hs : u.Kept s) : u.Kept (s.deliverF1 e k v auth reply) := by
  unfold State.deliverF1
  refine .ite hs.finish (.ite ?_ (.ite hs.finish.frameNotice hs.zeroFrom.finish))
  extract_lets _ s1
  have hs1 : u.Kept s1 := hs.setSeen.finish.frameNotice
  exact .ite hs1.reserve hs1

theorem Kept.afterF1 {j verified p} (hs : u.Kept s) : u.Kept (s.afterF1 j verified p) := by
  unfold State.afterF1
  extract_lets e c cnt ctr node s' v auth d i
  have hs' : u.Kept s' := hs.seenCheck
  have hi : u.Kept i.2 := hs'.seenInsert
  split
  · exact hs'.setSeen.finish
  · exact .ite hs'.finish ((Kept.ite hi.nodeLearn hi).deliverF1)

theorem Kept.relayHandleF1 {e} (hs : u.Kept s) : u.Kept (s.relayHandleF1 e) := by
  unfold State.relayHandleF1
  extract_lets pr s'
  have hpr : u.Kept pr.2.2 := hs.entryPsdu
  have hs' : u.Kept s' := hpr
  refine .ite hs'.finish ?_
  split
  · exact hs'.finc.finish
  · extract_lets l
    have hl : u.Kept l.2 := hs'.nodeLookup
    split
    · exact hl.finish
    · exact .ite hl.finish (.ite hl.verifyJob.modRelay (.ite hl.finish hl.afterF1))

theorem Kept.execRelayHandleF1 (hs : u.Kept s) : u.KeptIn (execRelayHandleF1 s) := by
  unfold Machine.execRelayHandleF1
  split
  · exact hs
  · exact hs.modRelay.relayHandleF1

theorem Kept.relaySortBy {e v secured} (hs : u.Kept s) : u.Kept (s.relaySortBy e v secured) :=
  .ite hs.finish.frameNotice (.ite (((Kept.ite hs hs.zeroFrom).finish).frameNotice) hs.zeroFrom.finish)

theorem Kept.execRelaySort (hs : u.Kept s) : u.KeptIn (execRelaySort s) := by
  unfold Machine.execRelaySort
  split
  · exact hs
  · extract_lets pr s1
    have hpr : u.Kept pr.2.2 := hs.modRelay.entryPsdu
    have hs1 : u.Kept s1 := hpr
    refine .ite hs1.finish (.ite ?_ (.ite hs1.finish hs1.relaySortBy))
    split
    · exact hs1.finc.finish
    · exact hs1.relaySortBy

theorem Kept.execRelayVerifyResult (hs : u.Kept s) : u.KeptIn (execRelayVerifyResult s) := by
  unfold Machine.execRelayVerifyResult
  split
  · extract_lets e sa src2 s1 p f1 f v ok s2
    have hsa : u.Kept sa := hs.modRelay
    have hs1 : u.Kept s1 := hsa.same
    have hs2 : u.Kept s2 := .ite hs1.ringWrite hs1
    exact .ite hs1.finish.dropBuf (.ite hs2.afterF1 hs2.afterVerify)
  · exact hs

theorem Kept.urgentLatency {r first} (hs : u.Kept s) : u.Kept (s.urgentLatency r first) := by
  unfold State.urgentLatency
  refine .ite hs ?_
  extract_lets d s1 s2
  have hs1 : u.Kept s1 := hs.finc.fset
  have hs2 : u.Kept s2 := .ite hs1.fset hs1
  exact .ite hs2.finc hs2

theorem Kept.relayDone {x r status first} (hs : u.Kept s) : u.Kept (s.relayDone x r status first) := by
  unfold State.relayDone
  extract_lets s1 e s2 s3
  have hs1 : u.Kept s1 := hs.dropBuf
  have hs2 : u.Kept s2 := by
    unfold s2
    clear_value e
    split
    · exact hs1.setSeen
    · exact hs1
  have hs3 : u.Kept s3 := hs2.finc
  exact .ite (.ite hs3.urgentLatency hs3) (.ite hs1.finc (.ite hs1 hs1.finc))

theorem Kept.execRelayTxCompletion (hs : u.Kept s) : u.KeptIn (execRelayTxCompletion s) := by
  unfold Machine.execRelayTxCompletion
  split
  · exact hs
  · extract_lets s1
    have hs1 : u.Kept s1 := hs.modRelay
    split
    · split
      · exact hs1.relayDone
      · exact .ite hs1.finc hs1.finc
      · exact hs1
    · exact hs1

theorem Kept.ackCancel (hs : u.Kept s) : u.Kept s.ackCancel := hs.foldl fun _ _ h => h.failAll

theorem Kept.setAlias {k e} (hs : u.Kept s) : u.Kept (s.setAlias k e) := hs.modRelay

theorem Kept.aliasStatus {v} (hs : u.Kept s) : u.Kept (s.aliasStatus v) := hs.fset.fset

theorem Kept.aliasPut {a} (hs : u.Kept s) : u.Kept (s.aliasPut a) := by
  unfold State.aliasPut
  extract_lets
  refine .ite hs.aliasStatus ?_
  split
  · exact hs.setAlias.aliasStatus
  · split
    · exact hs.setAlias.aliasStatus
    · exact hs.aliasStatus

theorem Kept.aliasWrite {v} (hs : u.Kept s) : u.Kept (s.aliasWrite v) := by
  unfold State.aliasWrite
  extract_lets a s1
  have hs1 : u.Kept s1 := hs.fset
  split
  · exact hs1.aliasPut
  · exact hs1.setAlias.aliasStatus
  · exact hs1.aliasStatus
  · extract_lets
    exact hs1.aliasStatus.fset.fset.fset
  · exact hs1.aliasStatus
  · exact hs1

theorem Kept.execAliasSet {m a} (hs : u.Kept s) : u.KeptIn (execAliasSet m a s) :=
  hs.regGate fun _ h => h.aliasWrite

theorem Kept.execAliasDelete {m a} (hs : u.Kept s) : u.KeptIn (execAliasDelete m a s) :=
  hs.regGate fun _ h => h.aliasWrite

theorem Kept.execAliasGet {m a} (hs : u.Kept s) : u.KeptIn (execAliasGet m a s) :=
  hs.regGate fun _ h => h.aliasWrite

theorem Kept.takeCtr (hs : u.Kept s) : u.Kept s.takeCtr.2 := hs.finc.snd

theorem Kept.beacon {fr slot} (hs : u.Kept s) : u.Kept (s.beacon fr slot) := by
  unfold State.beacon
  extract_lets mode fail c
  have hfail : u.Kept fail := hs.finc
  have hc : u.Kept c.2 := hs.takeCtr
  exact .ite hfail hc.sealFrame

theorem Kept.execBeaconBuild {slot} (hs : u.Kept s) : u.KeptIn (execBeaconBuild slot s) :=
  hs.iff fun _ h => h.beacon

theorem Kept.execBeaconCompletion (hs : u.Kept s) : u.KeptIn (execBeaconCompletion s) := by
  unfold Machine.execBeaconCompletion
  split
  · exact hs
  · extract_lets s1
    have hs1 : u.Kept s1 := hs.modCinch
    exact .ite hs1.finc hs1.finc

/-! ## Attached flash (Machine/Flash) -/

theorem Kept.freeList {n} (hs : u.Kept s) : u.Kept (s.freeList n).2 := by
  unfold State.freeList
  extract_lets r
  have hr : u.Kept r.2 := hs.free
  exact hr.snd

theorem Kept.dropLines {lo hi} (hs : u.Kept s) : u.Kept (s.dropLines lo hi) := hs.modFlash

theorem Kept.putRecord {op susp off} (hs : u.Kept s) : u.Kept (s.putRecord op susp off) := hs.setWord64

theorem Kept.wear {b} (hs : u.Kept s) : u.Kept (s.wear b) := by
  unfold State.wear
  extract_lets n s1
  have hs1 : u.Kept s1 := hs.writeBytes
  exact .ite hs1.fset.logHw hs1

theorem Kept.eraseStart {a} (hs : u.Kept s) : u.Kept (s.eraseStart a) := hs.dropLines.putRecord.finc.wear.modFlash

theorem Kept.pageStart (hs : u.Kept s) : u.Kept s.pageStart := by
  unfold State.pageStart
  split
  · exact .ite hs.putRecord.modFlash hs
  · exact hs

theorem Kept.flashStart {c} (hs : u.Kept s) : u.Kept (s.flashStart c) := by
  unfold State.flashStart
  extract_lets r s1
  have hs1 : u.Kept s1 := hs.fset.fset.modFlash
  exact .ite hs1 (.ite hs1.eraseStart (.ite hs1.dropLines (.ite hs1.enqueueUnit.keygenGrant hs1)))

theorem Kept.xspiGo {w0} (hs : u.Kept s) : u.Kept (s.xspiGo w0) := by
  unfold State.xspiGo
  extract_lets
  split
  · exact hs.flashStart
  · exact .ite hs.modFlash.flashStart hs.fset.finc

theorem Kept.flashDone {c status code detail} (hs : u.Kept s) : u.Kept (s.flashDone c status code detail) := by
  unfold State.flashDone
  extract_lets s1 s2 o s3
  have hs1 : u.Kept s1 := hs.fset.fset.fset.fset
  have hs2 : u.Kept s2 := by
    unfold s2
    split
    · exact hs.fset.fset.fset.fset.finc
    · exact hs.fset.fset.fset.fset.finc
    · exact hs.fset.fset.fset.fset.finc
    · exact hs1
  have hs3 : u.Kept s3 := hs2.modFlash
  clear_value o
  split
  · exact hs2.modFlash.fset
  · exact hs2.modFlash.fset

theorem Kept.flashRead {a n} (hs : u.Kept s) : u.Kept (s.flashRead a n).2 := by
  unfold State.flashRead
  extract_lets r
  have hr : u.Kept r.2 := hs.freeList
  exact hr.snd

theorem Kept.blankEnd {c} (hs : u.Kept s) : u.Kept (s.blankEnd c) := by
  unfold State.blankEnd
  extract_lets r s1
  have hr : u.Kept r.2 := hs.flashRead
  have hs1 : u.Kept s1 := hr.modFlash
  split
  · exact hr.flashDone
  · exact .ite hs1.putRecord.flashDone hs1.pageStart

theorem Kept.imageEnd (hs : u.Kept s) : u.Kept s.imageEnd := hs.same.keygenGrant

theorem Kept.flashReads {c} (hs : u.Kept s) : u.Kept (s.flashReads c) := by
  unfold State.flashReads
  split
  · extract_lets r
    have hr : u.Kept r.2 := hs.flashRead
    exact hr.dmaPut.flashDone
  · extract_lets r
    have hr : u.Kept r.2 := hs.flashRead
    split
    · exact hr.flashDone
    · exact hr.flashDone
  · extract_lets b r
    have hb : u.Kept b.2.2 := hs.readBytes
    have hr : u.Kept r.2 := .iteSnd hb.snd hb.freeList
    exact .ite hr.flashDone hr.flashDone
  · extract_lets
    exact .ite hs (.ite hs.imageEnd.flashDone hs.imageEnd.flashDone)

theorem Kept.xspiWrite {m op tag} (hs : u.Kept s) : u.Kept (s.xspiWrite m op tag) := hs.regGate fun _ h => h.xspiGo

theorem Kept.execFlashRead {m tag} (hs : u.Kept s) : u.KeptIn (execFlashRead m tag s) := hs.xspiWrite

theorem Kept.execFlashProgram {m tag} (hs : u.Kept s) : u.KeptIn (execFlashProgram m tag s) := hs.xspiWrite

theorem Kept.execFlashErase {m tag} (hs : u.Kept s) : u.KeptIn (execFlashErase m tag s) := hs.xspiWrite

theorem Kept.execBlank {m tag} (hs : u.Kept s) : u.KeptIn (execBlank m tag s) := hs.xspiWrite

theorem Kept.execHcheck {m tag} (hs : u.Kept s) : u.KeptIn (execHcheck m tag s) := hs.xspiWrite

theorem Kept.execVerify {m tag} (hs : u.Kept s) : u.KeptIn (execVerify m tag s) := hs.xspiWrite

theorem Kept.eraseEnd {c a ok} (hs : u.Kept s) : u.Kept (s.eraseEnd c a ok) := by
  unfold State.eraseEnd
  refine .ite hs.fill.putRecord.modFlash.flashDone (.ite hs.finc.modFlash.eraseStart ?_)
  extract_lets r
  have hr : u.Kept r.2 := hs.freeList
  exact hr.setBytes.putRecord.modFlash.flashDone

theorem Kept.flashCmdEnd {c ok} (hs : u.Kept s) : u.Kept (s.flashCmdEnd c ok) := by
  unfold State.flashCmdEnd
  split
  · exact .ite hs.eraseEnd (hs.iff (fun _ h => h.flashReads))
  · exact hs
  · exact .ite hs (.ite (hs.iff (fun _ h1 => h1.blankEnd)) (hs.iff (fun _ h2 => h2.flashReads)))

theorem Kept.execFlashCmdDone {ok} (hs : u.Kept s) : u.KeptIn (execFlashCmdDone ok s) := by
  unfold Machine.execFlashCmdDone
  split
  · exact hs.flashDone
  · exact hs.flashCmdEnd
  · exact hs

theorem Kept.pageDone {c a ok} (hs : u.Kept s) : u.Kept (s.pageDone c a ok) := by
  unfold State.pageDone
  extract_lets stop b _ fr s1 r
  have hfr : u.Kept fr.2 := hs.readBytes.freeList
  have hs1 : u.Kept s1 := hfr.setBytes.finc.modFlash
  have hr : u.Kept r.2 := hs.freeList
  exact .ite (.ite hs1.putRecord.flashDone (.ite hs1.putRecord.flashDone hs1.pageStart))
      (.ite hs.finc.modFlash hr.setBytes.putRecord.modFlash.flashDone)

theorem Kept.pageEnds {ok} (hs : u.Kept s) : u.Kept (s.pageEnds ok) := by
  unfold State.pageEnds
  split
  · exact hs.iff fun _ h => h.pageDone
  · exact hs

theorem Kept.execEraseSuspend (hs : u.Kept s) : u.KeptIn (execEraseSuspend s) := by
  unfold Machine.execEraseSuspend
  split
  · exact hs.iff fun _ h => h.fset.finc.modFlash
  · exact hs

theorem Kept.eraseResume (hs : u.Kept s) : u.Kept s.eraseResume := by
  unfold State.eraseResume
  split
  · exact hs.fset.modFlash
  · exact hs

theorem Kept.execEraseResume (hs : u.Kept s) : u.KeptIn (execEraseResume s) := hs.iff fun _ h => h.eraseResume

theorem Kept.execWindowLineFill (hs : u.Kept s) : u.KeptIn (execWindowLineFill s) := by
  unfold Machine.execWindowLineFill
  split
  · exact .ite hs.fadd.answerLine.pageStart hs.answerLine.modFlash.pageStart
  · exact hs

theorem Kept.execDqsTimeout {line} (hs : u.Kept s) : u.KeptIn (execDqsTimeout line s) := by
  unfold Machine.execDqsTimeout
  extract_lets n missed again s1
  have hs1 : u.Kept s1 := hs.finc.modFlash
  exact Kept.ite hs (.ite hs.finc.modFlash (.ite hs1.answerLine.pageStart hs1.modFlash))

theorem Kept.flashHalt (hs : u.Kept s) : u.Kept s.flashHalt := by
  unfold State.flashHalt
  extract_lets s1
  have hs1 : u.Kept s1 := hs.modFlash
  split
  · exact .ite hs1.putRecord.flashDone hs1
  · exact hs1

theorem Kept.flashPause (hs : u.Kept s) : u.Kept s.flashPause := by
  unfold State.flashPause
  split
  · exact hs.fset.finc.putRecord.modFlash
  · exact hs.putRecord
  · exact hs

theorem Kept.flashWake (hs : u.Kept s) : u.Kept s.flashWake := by
  unfold State.flashWake
  extract_lets s1
  have hs1 : u.Kept s1 := hs.modFlash
  split
  · exact hs1.putRecord.eraseResume
  · exact hs1

theorem Kept.flashCut (hs : u.Kept s) : u.Kept s.flashCut := by
  unfold State.flashCut
  split
  · extract_lets b stop r
    have hr : u.Kept r.2 := hs.freeList
    exact hr.setBytes
  · exact hs

/-! ## Girth (Machine/Girth) -/

theorem Kept.modGirth {f} (hs : u.Kept s) : u.Kept (s.modGirth f) := hs.same

theorem Kept.meterTake {k x} (hs : u.Kept s) : u.Kept (s.meterTake k x).2 := by
  unfold State.meterTake
  extract_lets
  exact hs.modGirth.snd

theorem Kept.meterOwn {k x} (hs : u.Kept s) : u.Kept (s.meterOwn k x) := by
  unfold State.meterOwn
  extract_lets r
  have hr : u.Kept r.2 := hs.meterTake
  exact hr.setLedger.setLedger

theorem Kept.execMeterSample {k ua mv} (hs : u.Kept s) : u.KeptIn (execMeterSample k ua mv s) :=
  hs.iff fun _ h => h.meterOwn

theorem Kept.packMove {charge x} (hs : u.Kept s) : u.Kept (s.packMove charge x) := by
  unfold State.packMove
  extract_lets k r s1
  have hr : u.Kept r.2 := hs.meterTake
  have hs1 : u.Kept s1 := hr.setLedger
  exact hs1.setLedger

theorem Kept.execPackSample {shunt vbus} (hs : u.Kept s) : u.KeptIn (execPackSample shunt vbus s) :=
  hs.iff fun _ h => h.packMove

theorem Kept.execMainsOkEdge {level} (hs : u.Kept s) : u.KeptIn (execMainsOkEdge level s) :=
  hs.iff fun _ h => h.same.modGirth

theorem Kept.ledgerLow {m sel} (hs : u.Kept s) : u.Kept (s.ledgerLow m sel).2 := by
  unfold State.ledgerLow
  extract_lets
  exact hs.modGirth.snd

theorem Kept.ledgerHigh {m sel} (hs : u.Kept s) : u.Kept (s.ledgerHigh m sel).2 := by
  unfold State.ledgerHigh
  split
  · exact hs.modGirth.snd
  · exact hs

theorem Kept.execLedgerLowRead {m sel} (hs : u.Kept s) : u.KeptIn (execLedgerLowRead m sel s) :=
  hs.iff fun _ h => h.regGateRead (fun _ h1 => h1.ledgerLow)

theorem Kept.execLedgerHighRead {m sel} (hs : u.Kept s) : u.KeptIn (execLedgerHighRead m sel s) :=
  hs.iff fun _ h => h.regGateRead (fun _ h1 => h1.ledgerHigh)

theorem Kept.packEstLo {v} (hs : u.Kept s) : u.Kept (s.packEstLo v) := hs.modGirth

theorem Kept.packEstHi {v} (hs : u.Kept s) : u.Kept (s.packEstHi v) := by
  unfold State.packEstHi
  extract_lets
  exact hs.setLedger.modGirth

theorem Kept.execPackEstWrite {m v} (hs : u.Kept s) : u.KeptIn (execPackEstWrite m v s) :=
  hs.regGate fun _ h => h.packEstHi

theorem Kept.ledgerPersist (hs : u.Kept s) : u.Kept s.ledgerPersist :=
  ((hs.foldl fun _ _ h => h.writeBytes).foldl fun _ _ h1 => h1.writeBytes).foldl fun _ _ h2 => h2.writeBytes

theorem Kept.girthCtrlWrite {v} (hs : u.Kept s) : u.Kept (s.girthCtrlWrite v) := by
  unfold State.girthCtrlWrite
  refine .ite hs ?_
  extract_lets w
  have hw : u.Kept w := hs.setReg
  exact .ite hw hw.fset

theorem Kept.execGirthCtrlWrite {m v} (hs : u.Kept s) : u.KeptIn (execGirthCtrlWrite m v s) :=
  hs.regGate fun _ h => h.girthCtrlWrite

theorem Kept.bookCharges (hs : u.Kept s) : u.Kept s.bookCharges := by
  unfold State.bookCharges
  extract_lets tx eng s1 s2
  have hs1 : u.Kept s1 := hs.setLedger.setLedger
  have hs2 : u.Kept s2 := hs1.foldl fun _ _ h => h.setTledger
  exact hs2.modGirth

theorem Kept.setPlan {q} (hs : u.Kept s) : u.Kept (s.setPlan q) := (((Kept.ite hs.finc hs.finc).fset).fset).alarm

theorem Kept.planFollow {target} (hs : u.Kept s) : u.Kept (s.planFollow target) := by
  unfold State.planFollow
  extract_lets s1
  have hs1 : u.Kept s1 := hs.fset
  exact .ite hs1.setPlan (.ite (.ite hs1.setPlan hs1.fset) hs1.fset)

theorem Kept.planStep {work r} (hs : u.Kept s) : u.Kept (s.planStep work r) := by
  unfold State.planStep
  extract_lets target sa
  have hsa : u.Kept sa := hs.fset
  exact .ite hsa.same (.ite hs.fset.fset hs.planFollow)

theorem Kept.frameRegs {f len base own net charged w} (hs : u.Kept s) :
    u.Kept (s.frameRegs f len base own net charged w) :=
  hs.fset.fset.fset.fset.fset.fset

theorem Kept.setFreq {c v} (hs : u.Kept s) : u.Kept (s.setFreq c v) := hs.modClu.fset

theorem Kept.freqClamp {a c} (hs : u.Kept s) : u.Kept (s.freqClamp a c) := by
  unfold State.freqClamp
  split
  · exact hs
  · extract_lets
    exact .ite hs (.ite (.ite hs hs.setFreq.finc.modGirth) (.ite hs.setFreq.modGirth hs))

theorem Kept.planMessage {w eng} (hs : u.Kept s) : u.Kept (s.planMessage w eng) := hs.modAgent

theorem Kept.openFrame (hs : u.Kept s) : u.Kept s.openFrame := hs.modGirth

theorem Kept.closeFrame {f len} (hs : u.Kept s) : u.Kept (s.closeFrame f len) := by
  unfold State.closeFrame
  extract_lets a q eng charged own net s1 s2 r s3 w s4
  have hs1 : u.Kept s1 := hs.bookCharges.modGirth.ledgerPersist
  have hs2 : u.Kept s2 := .ite hs1 hs1.fset
  have hs3 : u.Kept s3 := hs2.planStep
  have hs4 : u.Kept s4 := hs3.frameRegs.openFrame
  exact hs4.planMessage.foldl fun _ _ h => h.freqClamp

theorem Kept.closePartial (hs : u.Kept s) : u.Kept s.closePartial := hs.bookCharges.modAgent.ledgerPersist

theorem Kept.naccStatus {v} (hs : u.Kept s) : u.Kept (s.naccStatus v) := hs.fset

theorem Kept.naccWrite {v} (hs : u.Kept s) : u.Kept (s.naccWrite v) := by
  unfold State.naccWrite
  extract_lets n op arg arg2 r
  have hr : u.Kept r.2 := hs.acctTouch
  refine .ite hs (.ite hs.naccStatus (.ite hs.acctPut.naccStatus ?_))
  clear_value op
  split
  · exact hs.acctTouch.acctPut.fset.fset.fset.naccStatus
  · exact hs.acctTouch.acctPut.naccStatus
  · exact .ite hs.acctTouch.acctPut.finc.naccStatus hs.acctTouch.acctCharge.naccStatus

theorem Kept.execNaccRead {m n} (hs : u.Kept s) : u.KeptIn (execNaccRead m n s) := hs.regGate fun _ h => h.naccWrite

theorem Kept.execNaccSet {m n} (hs : u.Kept s) : u.KeptIn (execNaccSet m n s) := hs.regGate fun _ h => h.naccWrite

theorem Kept.execNaccCharge {m n} (hs : u.Kept s) : u.KeptIn (execNaccCharge m n s) :=
  hs.regGate fun _ h => h.naccWrite

theorem Kept.execNaccClear {m n} (hs : u.Kept s) : u.KeptIn (execNaccClear m n s) :=
  hs.regGate fun _ h => h.naccWrite

/-! ## Latigo events (Machine/Latigo) -/

theorem Kept.txnClose {n l p lost} (hs : u.Kept s) : u.Kept (s.txnClose n l p lost) := by
  unfold State.txnClose
  extract_lets a b hit fix gone e ids s1
  have ha : u.Kept a.2 := hs.free
  have hb : u.Kept b.2 := ha.free
  have hs1 : u.Kept s1 := hb.modEng
  exact .ite hs1.same hs

theorem Kept.txnsEnd {l p lost} (hs : u.Kept s) : u.Kept (s.txnsEnd l p lost) :=
  hs.setTxns.foldl fun _ _ h => h.txnClose

theorem Kept.execLatigoTransactionDone {l i} (hs : u.Kept s) : u.KeptIn (execLatigoTransactionDone l i s) := by
  unfold Machine.execLatigoTransactionDone
  split
  · exact hs
  · exact hs.txnsEnd

theorem Kept.execLatigoTimeoutExpiry {l i} (hs : u.Kept s) : u.KeptIn (execLatigoTimeoutExpiry l i s) := by
  unfold Machine.execLatigoTimeoutExpiry
  split
  · exact hs
  · exact hs.txnsEnd.fsat

theorem Kept.execLatigoCrcError {l resend} (hs : u.Kept s) : u.KeptIn (execLatigoCrcError l resend s) := by
  unfold Machine.execLatigoCrcError
  extract_lets
  refine hs.iff fun t h => ?_
  extract_lets t1
  have ht1 : u.Kept t1 := h.fsat
  exact .ite ht1.txnsEnd.fset.fsat ht1

theorem Kept.execLatigoRetrainEnd {l} (hs : u.Kept s) : u.KeptIn (execLatigoRetrainEnd l s) :=
  hs.iff fun _ h => h.fset

/-! ## Table ports (Machine/Ports) -/

theorem Kept.setPort {p x} (hs : u.Kept s) : u.Kept (s.setPort p x) := hs.modRelay

theorem Kept.tableCount {status} (hs : u.Kept s) : u.Kept (s.tableCount status) := .ite hs.finc (.ite hs.finc hs)

theorem Kept.tableNotice {core p op tag status addr} (hs : u.Kept s) :
    u.Kept (s.tableNotice core p op tag status addr) :=
  hs.tableCount.post

theorem Kept.portAnswer {p x a} (hs : u.Kept s) : u.Kept (s.portAnswer p x a) := hs.dmaPut.setPort.tableNotice

theorem Kept.portFetch {core p a} (hs : u.Kept s) : u.Kept (s.portFetch core p a) := by
  unfold State.portFetch
  split
  next s1 e =>
    have hs1 : u.Kept s1 := .ofSnd e hs.dmaRead
    exact hs1.setPort.tableNotice
  next s1 e =>
    have hs1 : u.Kept s1 := .ofSnd e hs.dmaRead
    extract_lets
    exact .ite hs1.portAnswer hs1.setPort

theorem Kept.tableGo {core p a} (hs : u.Kept s) : u.Kept (s.tableGo core p a) :=
  .ite hs.tableNotice (.ite hs.tableNotice (.ite (.ite hs.setPort hs.portFetch) hs.dmaRefuse.tableNotice))

theorem Kept.portAsk {p x} (hs : u.Kept s) : u.Kept (s.portAsk p x) :=
  .ite (hs.iff (fun _ h => h.portFetch)) (hs.iff (fun _ h1 => h1.dmaAsk))

theorem Kept.portRun {p op k} (hs : u.Kept s) (hk : ∀ x1 x2 t, u.Kept t → u.Kept (k x1 x2 t).2) :
    u.Kept (s.portRun p op k) := by
  unfold State.portRun
  split
  · exact hs
  · refine .ite hs.portAsk (.ite hs ?_)
    extract_lets r
    have hr : u.Kept r.2 := hk _ _ _ hs.modRelay
    exact hr.portAnswer

theorem Kept.cmdLookup {x q} (hs : u.Kept s) : u.Kept (State.cmdLookup x q s).2 := by
  unfold State.cmdLookup
  split
  next s1 e =>
    have hs1 : u.Kept s1 := .ofSnd e hs.nodeLookup
    exact .iteSnd hs1.snd hs1.snd
  next s1 e =>
    have hs1 : u.Kept s1 := .ofSnd e hs.nodeLookup
    exact hs1.snd

theorem Kept.execLookup {p} (hs : u.Kept s) : u.KeptIn (execLookup p s) := hs.portRun (fun _ _ _ h => h.cmdLookup)

theorem Kept.cmdDelete {x q} (hs : u.Kept s) : u.Kept (State.cmdDelete x q s).2 := by
  unfold State.cmdDelete
  split
  next s1 e =>
    have hs1 : u.Kept s1 := .ofSnd e hs.nodeLookup
    exact .iteSnd hs1.nodeWrite.snd hs1.snd
  next s1 e =>
    have hs1 : u.Kept s1 := .ofSnd e hs.nodeLookup
    exact hs1.snd

theorem Kept.execDelete {p} (hs : u.Kept s) : u.KeptIn (execDelete p s) := hs.portRun (fun _ _ _ h => h.cmdDelete)

theorem Kept.cmdReadWay {x q} (hs : u.Kept s) : u.Kept (State.cmdReadWay x q s).2 := by
  unfold State.cmdReadWay
  refine .iteSnd hs (.iteSnd hs ?_)
  extract_lets a r
  have hr : u.Kept r.2 := hs.nodeRead
  exact hr.snd

theorem Kept.execReadWay {p} (hs : u.Kept s) : u.KeptIn (execReadWay p s) := hs.portRun (fun _ _ _ h => h.cmdReadWay)

theorem Kept.cmdInsert {x q} (hs : u.Kept s) : u.Kept (State.cmdInsert x q s).2 := by
  unfold State.cmdInsert
  extract_lets
  refine .iteSnd hs (.iteSnd hs (.iteSnd hs ?_))
  split
  next s1 e =>
    have hs1 : u.Kept s1 := .ofSnd e hs.nodeLookup
    exact .iteSnd hs1.snd (.iteSnd hs1.snd hs1.nodeWrite.snd)
  next s1 e =>
    have hs1 : u.Kept s1 := .ofSnd e hs.nodeLookup
    refine .iteSnd hs1.snd ?_
    extract_lets set r
    have hr : u.Kept r.2 := hs1.nodeWays
    split
    · exact hr.finc.snd
    · extract_lets s2
      have hs2 : u.Kept s2 := (Kept.ite hr.finc hr).nodeWrite
      exact hs2.snd

theorem Kept.execInsert {p} (hs : u.Kept s) : u.KeptIn (execInsert p s) := hs.portRun (fun _ _ _ h => h.cmdInsert)

theorem Kept.route {d} (hs : u.Kept s) : u.Kept (s.route d).2 := by
  unfold State.route
  extract_lets r
  have hr : u.Kept r.2.2 := hs.readWords
  exact hr.snd

theorem Kept.cmdRouteSet {x q} (hs : u.Kept s) : u.Kept (State.cmdRouteSet x q s).2 :=
  .iteSnd hs (.iteSnd hs hs.writeBytes.snd)

theorem Kept.execRouteSet {p} (hs : u.Kept s) : u.KeptIn (execRouteSet p s) :=
  hs.portRun (fun _ _ _ h => h.cmdRouteSet)

theorem Kept.cmdRouteGet {x q} (hs : u.Kept s) : u.Kept (State.cmdRouteGet x q s).2 := by
  unfold State.cmdRouteGet
  refine .iteSnd hs (.iteSnd hs ?_)
  split
  next s1 e =>
    have hs1 : u.Kept s1 := .ofSnd e hs.route
    exact hs1.snd
  next s1 e =>
    have hs1 : u.Kept s1 := .ofSnd e hs.route
    exact hs1.snd

theorem Kept.execRouteGet {p} (hs : u.Kept s) : u.KeptIn (execRouteGet p s) :=
  hs.portRun (fun _ _ _ h => h.cmdRouteGet)

theorem Kept.cmdInboxRd {x q} (hs : u.Kept s) : u.Kept (State.cmdInboxRd x q s).2 := by
  unfold State.cmdInboxRd
  split
  · exact hs
  · extract_lets
    exact .iteSnd hs.fset.snd hs

theorem Kept.execInboxRd {p} (hs : u.Kept s) : u.KeptIn (execInboxRd p s) := hs.portRun (fun _ _ _ h => h.cmdInboxRd)

theorem Kept.inboxPut {t m} (hs : u.Kept s) : u.Kept (s.inboxPut t m).2 := by
  unfold State.inboxPut
  extract_lets size wr n base body room s1 s2 s3
  have hs1 : u.Kept s1 := hs.writeBytes
  have hs2 : u.Kept s2 := .ite hs1 hs1.writeBytes
  have hs3 : u.Kept s3 := hs2.fset
  exact .iteSnd hs.finc.snd hs3.post.finc.snd

theorem Kept.airSend {m r} (hs : u.Kept s) : u.Kept (s.airSend m r) := by
  unfold State.airSend
  extract_lets w0 l2 freq mode c
  have hc : u.Kept c.2 := hs.takeCtr
  exact .ite hs hc.sealFrame

theorem Kept.modPort {p f} (hs : u.Kept s) : u.Kept (s.modPort p f) := hs.same

theorem Kept.ethQueue {p x} (hs : u.Kept s) : u.Kept (s.ethQueue p x) := hs.modPort

theorem Kept.routeSend {d r m} (hs : u.Kept s) : u.Kept (s.routeSend d r m) := by
  unfold State.routeSend
  extract_lets via s1
  have hs1 : u.Kept s1 := hs.writeBytes
  exact .ite hs1.airSend (.ite hs1.ethQueue hs1)

theorem Kept.ixtFlood {m} (hs : u.Kept s) : u.Kept (s.ixtFlood m).2 := by
  unfold State.ixtFlood
  refine .iteSnd hs.finc.snd (Kept.snd (hs.finc.foldl fun t d h => ?_))
  split
  next e =>
    exact (Kept.ofSnd e h.route).routeSend
  next e =>
    exact .ofSnd e h.route

theorem Kept.reinTx {m} (hs : u.Kept s) : u.Kept (s.reinTx m).2 := .iteSnd hs hs.txSubmit.finc.snd

theorem Kept.forward {m ingress} (hs : u.Kept s) : u.Kept (s.forward m ingress).2 := by
  unfold State.forward
  extract_lets key s' s1 route
  have hs' : u.Kept s' := .ite hs.seenCheck hs
  have hs1 : u.Kept s1 := .ite hs'.seenInsert hs'
  have hroute : ∀ t m, u.Kept t → u.Kept (route t m).2 := by
    intro t m ht
    refine .iteSnd (.iteSnd ht.inboxPut ht.reinTx) (.iteSnd ht.finc.snd ?_)
    split
    next e =>
      have h1 := Kept.ofSnd e ht.route
      exact .iteSnd h1.routeSend.finc.snd h1.finc.snd
    next e =>
      exact (Kept.ofSnd e ht.route).finc.snd
  clear_value route s1 s'
  refine .iteSnd hs'.finc.snd ?_
  split
  · split
    next e =>
      have h2 := Kept.ofSnd e hs1.nodeLookup
      exact .iteSnd (hroute _ _ h2) h2.ixtFlood
    next e =>
      exact (Kept.ofSnd e hs1.nodeLookup).ixtFlood
  · exact hroute _ _ hs1

theorem Kept.cmdForward {x q} (hs : u.Kept s) : u.Kept (State.cmdForward x q s).2 := by
  unfold State.cmdForward
  extract_lets
  refine .iteSnd hs (.iteSnd hs ?_)
  split
  next s1 e =>
    have hs1 : u.Kept s1 := .ofSnd e hs.dmaRead
    exact hs1.snd
  next s1 e =>
    have hs1 : u.Kept s1 := .ofSnd e hs.dmaRead
    extract_lets m r id r3
    have hr : u.Kept r.2 := hs1.forward
    have hr3 : u.Kept r3.2 := hs1.finc.forward
    exact .iteSnd hs1.snd (.iteSnd hr.snd (.iteSnd hs1.snd hr3.snd))

theorem Kept.execForward {p} (hs : u.Kept s) : u.KeptIn (execForward p s) := hs.portRun (fun _ _ _ h => h.cmdForward)

/-! ## Wired interfaces (Machine/Wired) -/

theorem Kept.ptpSet {p v} (hs : u.Kept s) : u.Kept (s.ptpSet p v) := hs.modPort

theorem Kept.ptpRateWrite {p v} (hs : u.Kept s) : u.Kept (s.ptpRateWrite p v) := .ite hs hs.ptpSet.fset

theorem Kept.ptpStep {p v} (hs : u.Kept s) : u.Kept (s.ptpStep p v) := hs.ptpSet

theorem Kept.execPtpStep {m p v} (hs : u.Kept s) : u.KeptIn (execPtpStep m p v s) := hs.regGate fun _ h => h.ptpStep

theorem Kept.ptpLatch {p} (hs : u.Kept s) : u.Kept (s.ptpLatch p) := hs.fset.fset.fset

theorem Kept.execPtpTimeRead {m p} (hs : u.Kept s) : u.KeptIn (execPtpTimeRead m p s) :=
  hs.regGateRead fun _ h => h.ptpLatch

theorem Kept.execPtpRollover {p x} (hs : u.Kept s) : u.KeptIn (execPtpRollover p x s) := by
  unfold Machine.execPtpRollover
  extract_lets n s1 sec s2
  have hs1 : u.Kept s1 := .ite hs.cinchTo hs
  have hs2 : u.Kept s2 := hs1.ptpSet.ptpObserve
  exact hs2.iff (fun _ h => h.same)

theorem Kept.execPpsOutFall (hs : u.Kept s) : u.KeptIn (execPpsOutFall s) := hs.same

theorem Kept.stampPush {p x} (hs : u.Kept s) : u.Kept (s.stampPush p x) := .ite hs.modPort hs.modPort.finc

theorem Kept.stampPop {p} (hs : u.Kept s) : u.Kept (s.stampPop p) := hs.modPort

theorem Kept.execTxtsPop {m p} (hs : u.Kept s) : u.KeptIn (execTxtsPop m p s) :=
  hs.regGateRead fun _ h => h.stampPop

theorem Kept.linkDown {p} (hs : u.Kept s) : u.Kept (s.linkDown p) := .ite hs.fset.fset.fsat hs

theorem Kept.ethCfgWrite {p v} (hs : u.Kept s) : u.Kept (s.ethCfgWrite p v) := by
  unfold State.ethCfgWrite
  extract_lets s1
  have hs1 : u.Kept s1 := hs.fset.fset.fset.fset
  exact .ite hs1 hs1.fset.linkDown

theorem Kept.execEthModeWrite {m p v} (hs : u.Kept s) : u.KeptIn (execEthModeWrite m p v s) :=
  hs.regGate fun _ h => h.ethCfgWrite

theorem Kept.execEthLinkUp {p speed} (hs : u.Kept s) : u.KeptIn (execEthLinkUp p speed s) :=
  hs.iff fun _ h => h.fset.fset.fset.fsat

theorem Kept.execEthLinkDown {p} (hs : u.Kept s) : u.KeptIn (execEthLinkDown p s) := hs.linkDown

theorem Kept.mdioWrite {v} (hs : u.Kept s) : u.Kept (s.mdioWrite v) := .ite hs hs.setReg

theorem Kept.execMdioRead {m v} (hs : u.Kept s) : u.KeptIn (execMdioRead m v s) := hs.regGate fun _ h => h.mdioWrite

theorem Kept.execMdioWrite {m v} (hs : u.Kept s) : u.KeptIn (execMdioWrite m v s) :=
  hs.regGate fun _ h => h.mdioWrite

theorem Kept.execMdioDone {data} (hs : u.Kept s) : u.KeptIn (execMdioDone data s) :=
  hs.iff fun _ h => h.fset.iff (fun _ h1 => h1.fset)

theorem Kept.ethStore {k bs} (hs : u.Kept s) : u.Kept (s.ethStore k bs) := .ite hs hs.writeBytes

theorem Kept.ringPut {k size c bs} (hs : u.Kept s) : u.Kept (s.ringPut k size c bs) := by
  unfold State.ringPut
  extract_lets room s1
  have hs1 : u.Kept s1 := hs.ethStore
  exact .ite hs1 hs1.ethStore

theorem Kept.ringGet {k size c n} (hs : u.Kept s) : u.Kept (s.ringGet k size c n).2.2 := by
  unfold State.ringGet
  extract_lets room r q
  have hr : u.Kept r.2.2 := hs.readBytes
  have hq : u.Kept q.2.2 := hr.readBytes
  exact .iteThird hr hq.third

theorem Kept.rxToRing {p b stamped} (hs : u.Kept s) : u.Kept (s.rxToRing p b stamped) := by
  unfold State.rxToRing
  extract_lets
  split
  · exact hs.finc
  · exact .ite hs.finc hs.ringPut.fset.finc

theorem Kept.mgmtBad (hs : u.Kept s) : u.Kept s.mgmtBad := hs.same

theorem Kept.mgmtQueue {p mac payload} (hs : u.Kept s) : u.Kept (s.mgmtQueue p mac payload) := hs.modPort

theorem Kept.mgmtSeal {u' h status body} (hs : u.Kept s) : u.Kept (s.mgmtSeal u' h status body) := hs.same.enqueueUnit

theorem Kept.mgmtReply {p mac h status} (hs : u.Kept s) : u.Kept (s.mgmtReply p mac h status) := hs.mgmtSeal

theorem Kept.mgmtAccept {p mac f pt} (hs : u.Kept s) : u.KeptOpt (s.mgmtAccept p mac f pt) := by
  unfold State.mgmtAccept
  split
  · exact .none
  · extract_lets _ s1
    have hs1 : u.Kept s1 := hs.same
    split
    · exact .none
    · extract_lets old e s2
      have hs2 : u.Kept s2 := hs1.same
      exact hs2.ethStore.finc.opt

theorem Kept.mgmtRx {p mac f} (hs : u.Kept s) : u.Kept (s.mgmtRx p mac f) :=
  .ite hs.mgmtBad (.ite hs.mgmtBad (.ite hs.finc hs.enqueueUnit))

theorem Kept.mgmtTake {p mac f pt} (hs : u.Kept s) : u.Kept (s.mgmtTake p mac f pt) := by
  unfold State.mgmtTake
  split
  · split
    · extract_lets r
      have hr : u.Kept r.2.2 := hs.readBytes
      exact hr.mgmtQueue.finc
    · exact hs.finc
    · exact hs.mgmtReply.finc
  · refine .ite hs.mgmtReply.finc ?_
    split
    · exact hs.mgmtReply.finc
    next t e =>
      have ht : u.Kept t := .ofSome e hs.mgmtAccept
      exact ht

theorem Kept.mgmtPend (hs : u.Kept s) : u.Kept s.mgmtPend.2 := by
  unfold State.mgmtPend
  split
  · exact hs
  · exact hs.same.snd

theorem Kept.execMgmtPendRead {m} (hs : u.Kept s) : u.KeptIn (execMgmtPendRead m s) :=
  hs.regGateRead fun _ h => h.mgmtPend

theorem Kept.mgmtSet {k st} (hs : u.Kept s) : u.Kept (s.mgmtSet k st) := hs.same

theorem Kept.mgmtAnswer {k payload} (hs : u.Kept s) : u.Kept (s.mgmtAnswer k payload) := by
  unfold State.mgmtAnswer
  split
  · exact hs
  · exact hs.ethStore.mgmtQueue.mgmtSet

theorem Kept.mgmtDone {v} (hs : u.Kept s) : u.Kept (s.mgmtDone v) := by
  unfold State.mgmtDone
  extract_lets k n r
  have hr : u.Kept r.2.2 := hs.readBytes
  split
  · exact hs
  · exact .ite hs hr.mgmtSeal

theorem Kept.execMgmtSlotExpiry {k} (hs : u.Kept s) : u.KeptIn (execMgmtSlotExpiry k s) :=
  hs.iff fun _ h => h.mgmtSet

theorem Kept.execMgmtDone {m v} (hs : u.Kept s) : u.KeptIn (execMgmtDone m v s) :=
  hs.regGate fun _ h => h.iff (fun _ h1 => h1.mgmtDone)

theorem Kept.ethForward {x} (hs : u.Kept s) : u.Kept (s.ethForward x) := .ite hs.finc hs.forward

theorem Kept.ethSort {p b} (hs : u.Kept s) : u.Kept (s.ethSort p b) :=
  .ite hs.finc
      (.ite hs.finc
          (.ite hs.finc.ethForward (.ite (.ite hs.finc.mgmtRx hs) (.ite hs.rxToRing (.ite hs.rxToRing hs.finc)))))

theorem Kept.execEthFrameRx {p fcsOk b} (hs : u.Kept s) : u.KeptIn (execEthFrameRx p fcsOk b s) :=
  hs.iff fun _ h => .ite h.finc h.ethSort

theorem Kept.ethSend {p b} (hs : u.Kept s) : u.Kept (s.ethSend p b) := hs.modPort.finc

theorem Kept.txFromRing {p} (hs : u.Kept s) : u.Kept (s.txFromRing p) := by
  unfold State.txFromRing
  split
  · exact hs
  · extract_lets rd d w len r s1 t s2
    have hd : u.Kept d.2.2 := hs.ringGet
    have hr : u.Kept r.2.2 := hd.ringGet
    have hs1 : u.Kept s1 := hr.fset
    have hs2 : u.Kept s2 := .ite hs1.stampPush hs1
    exact .ite hs1 hs2.ethSend

theorem Kept.execEthFrameTx {p} (hs : u.Kept s) : u.KeptIn (execEthFrameTx p s) := by
  unfold Machine.execEthFrameTx
  extract_lets
  refine hs.iff fun t h => .ite h.txFromRing ?_
  split
  · exact h.modPort.ethSend
  · exact h.modPort.ethSend
  · exact h

theorem Kept.pinWrite {g v} (hs : u.Kept s) : u.Kept (s.pinWrite g v) := by
  unfold State.pinWrite
  extract_lets c d s0 s1
  have hs0 : u.Kept s0 := hs.fset.fset.fset
  have hs1 : u.Kept s1 := hs0.iff (fun _ h => h.fset)
  split
  · exact hs.fset.fset.fset
  · exact .ite hs1.same hs1

theorem Kept.execPinmuxSelWrite {m g v} (hs : u.Kept s) : u.KeptIn (execPinmuxSelWrite m g v s) :=
  hs.regGate fun _ h => h.pinWrite

theorem Kept.execParkEnd {g} (hs : u.Kept s) : u.KeptIn (execParkEnd g s) := hs.same

theorem Kept.gpioIn (hs : u.Kept s) : u.Kept s.gpioIn.2 := by
  unfold State.gpioIn
  extract_lets r
  have hr : u.Kept r.2 := hs.free
  exact hr.snd

theorem Kept.modUart {u' f} (hs : u.Kept s) : u.Kept (s.modUart u' f) := hs.same

theorem Kept.uartPush {u' v} (hs : u.Kept s) : u.Kept (s.uartPush u' v) := .ite hs.modUart hs

theorem Kept.execUartTxWrite {m u' v} (hs : u.Kept s) : u.KeptIn (execUartTxWrite m u' v s) :=
  hs.regGate fun _ h => h.uartPush

theorem Kept.uartPop {u'} (hs : u.Kept s) : u.Kept (s.uartPop u').2 := by
  unfold State.uartPop
  split
  · exact hs
  · exact hs.modUart.snd

theorem Kept.execUartRxPop {m u'} (hs : u.Kept s) : u.KeptIn (execUartRxPop m u' s) :=
  hs.regGateRead fun _ h => h.uartPop

theorem Kept.execUartRxByte {u' b frameErr} (hs : u.Kept s) : u.KeptIn (execUartRxByte u' b frameErr s) :=
  hs.iff fun _ h => .ite h.modUart h.fsat

theorem Kept.execUartTxByteSent {u'} (hs : u.Kept s) : u.KeptIn (execUartTxByteSent u' s) :=
  hs.iff fun _ h => h.modUart

theorem Kept.spiWrite {v} (hs : u.Kept s) : u.Kept (s.spiWrite v) := .ite hs hs.fset.fset

theorem Kept.execSpiExchange {m v} (hs : u.Kept s) : u.KeptIn (execSpiExchange m v s) :=
  hs.regGate fun _ h => h.spiWrite

theorem Kept.execSpiExchangeDone {b} (hs : u.Kept s) : u.KeptIn (execSpiExchangeDone b s) :=
  hs.iff fun _ h => h.fset.fset

theorem Kept.i2cWrite {v} (hs : u.Kept s) : u.Kept (s.i2cWrite v) := by
  unfold State.i2cWrite
  refine .ite hs ?_
  extract_lets s1
  have hs1 : u.Kept s1 := hs.fset.fset
  exact hs1.same

theorem Kept.execI2cStart {m v} (hs : u.Kept s) : u.KeptIn (execI2cStart m v s) := hs.regGate fun _ h => h.i2cWrite

theorem Kept.execI2cWrite {m v} (hs : u.Kept s) : u.KeptIn (execI2cWrite m v s) := hs.regGate fun _ h => h.i2cWrite

theorem Kept.execI2cRead {m v} (hs : u.Kept s) : u.KeptIn (execI2cRead m v s) := hs.regGate fun _ h => h.i2cWrite

theorem Kept.execI2cStop {m v} (hs : u.Kept s) : u.KeptIn (execI2cStop m v s) := hs.regGate fun _ h => h.i2cWrite

theorem Kept.execI2cOpDone {b ack} (hs : u.Kept s) : u.KeptIn (execI2cOpDone b ack s) := by
  unfold Machine.execI2cOpDone
  split
  · exact hs
  · extract_lets here _ s1
    have hs1 : u.Kept s1 := hs.same.fset
    split
    · exact hs1.fset.fset
    · exact hs1
    · exact hs1.fset

theorem Kept.chainRest {c} (hs : u.Kept s) : u.Kept (s.chainRest c) :=
  .ite hs (.ite hs.chainSleep hs.unstart.modChain)

theorem Kept.chainFollow {c} (hs : u.Kept s) : u.Kept (s.chainFollow c) := .ite hs (.ite hs.modChain hs.modChain)

theorem Kept.jtagLoad {i out} (hs : u.Kept s) : u.Kept (s.jtagLoad i out) := by
  unfold State.jtagLoad
  extract_lets _ s1
  have hs1 : u.Kept s1 := hs.same
  refine hs1.foldl fun t c h => .ite h ?_
  extract_lets t1
  have ht1 : u.Kept t1 := h.modChain
  exact .ite ht1.chainRest ht1.chainFollow

theorem Kept.execIdcode (hs : u.Kept s) : u.KeptIn (execIdcode s) := hs.jtagLoad

theorem Kept.execBypass (hs : u.Kept s) : u.KeptIn (execBypass s) := hs.jtagLoad

theorem Kept.execSamplePreload (hs : u.Kept s) : u.KeptIn (execSamplePreload s) := hs.iff fun _ h => h.jtagLoad

theorem Kept.execExtest (hs : u.Kept s) : u.KeptIn (execExtest s) := hs.iff fun _ h => h.jtagLoad

theorem Kept.execClamp (hs : u.Kept s) : u.KeptIn (execClamp s) := hs.iff fun _ h => h.jtagLoad

theorem Kept.execHighz (hs : u.Kept s) : u.KeptIn (execHighz s) := hs.iff fun _ h => h.jtagLoad

theorem Kept.execDebugChallengeRead {draw} (hs : u.Kept s) : u.KeptIn (execDebugChallengeRead draw s) :=
  hs.iff fun _ h => h.same

theorem Kept.execDebugUnlock {scope key sig} (hs : u.Kept s) : u.KeptIn (execDebugUnlock scope key sig s) := by
  unfold Machine.execDebugUnlock
  refine hs.iff fun t h => ?_
  extract_lets ok _ t1 t2
  have ht1 : u.Kept t1 := h.same
  have ht2 : u.Kept t2 := .ite ht1 ht1.fsat
  exact .ite ht1.fset.fset.logHw ht2.logHw

theorem Kept.execDebugStop {c} (hs : u.Kept s) : u.KeptIn (execDebugStop c s) := hs.iff fun _ h => h.dbgHold

theorem Kept.execDebugStep {c} (hs : u.Kept s) : u.KeptIn (execDebugStep c s) := hs.iff fun _ h => h.modEng

theorem Kept.execDebugResume {c} (hs : u.Kept s) : u.KeptIn (execDebugResume c s) := hs.iff fun _ h => h.dbgHold

/-! ## Plans (Machine/Plan) -/

theorem Kept.rxPlanOne {n} (hs : u.Kept s) : u.Kept (s.rxPlanOne n) :=
  .ite (.ite (hs.fset.iff (fun _ h => h.rxEnable)) hs) (.ite hs ((hs.iff (fun _ h1 => h1.rxDisable)).fset))

theorem Kept.rxPlan (hs : u.Kept s) : u.Kept s.rxPlan := hs.foldl fun _ _ h => h.rxPlanOne

theorem Kept.die1Decoders (hs : u.Kept s) : u.Kept s.die1Decoders := by
  unfold State.die1Decoders
  extract_lets homed s1
  have hs1 : u.Kept s1 := hs.modDec
  exact hs1.same

theorem Kept.die1Memory (hs : u.Kept s) : u.Kept s.die1Memory := hs.fill.fill.fill.fill

theorem Kept.die1Links {v} (hs : u.Kept s) : u.Kept (s.die1Links v) := hs.foldl fun _ _ h => h.fset

theorem Kept.die1Down (hs : u.Kept s) : u.Kept s.die1Down := by
  unfold State.die1Down
  refine .ite hs ?_
  extract_lets s1 s2 s3 s4 _ s5
  have hs1 : u.Kept s1 := hs.foldl fun _ _ h => h.txnsEnd
  clear_value s1
  have hs2 : u.Kept s2 := (hs1.foldl fun _ _ h => h.modEng).die1Links
  have hs3 : u.Kept s3 := hs2.die1Decoders.die1Memory.foldl fun _ _ h => h.modClu
  have hs4 : u.Kept s4 := hs3.foldl fun _ _ h => h.setReg
  clear_value s4
  have hs5 : u.Kept s5 := hs4.same
  exact hs5.modGirth.fset

theorem Kept.die1Rise (hs : u.Kept s) : u.Kept s.die1Rise := .ite hs.same.die1Links.modGirth hs

theorem Kept.cluRelease {c} (hs : u.Kept s) : u.Kept (s.cluRelease c) := by
  unfold State.cluRelease
  split
  · exact hs.iff fun _ h => h.modClu
  · exact hs

theorem Kept.die1Settle (hs : u.Kept s) : u.Kept s.die1Settle := .ite (hs.same.foldl fun _ _ h => h.cluRelease) hs

theorem Kept.cluHold {c} (hs : u.Kept s) : u.Kept (s.cluHold c) := (hs.foldl fun _ _ h => .ite h h.modEng).haltSync

theorem Kept.cluHolds (hs : u.Kept s) : u.Kept s.cluHolds := hs.foldl fun _ _ h => h.cluHold

theorem Kept.planFreq {c} (hs : u.Kept s) : u.Kept (s.planFreq c) := by
  unfold State.planFreq
  extract_lets k s1
  have hs1 : u.Kept s1 := hs.modGirth
  exact .ite hs1 hs1.setFreq

theorem Kept.planFreqs (hs : u.Kept s) : u.Kept s.planFreqs := hs.foldl fun _ _ h => h.planFreq

theorem Kept.planRegions (hs : u.Kept s) : u.Kept s.planRegions := hs.same.foldl fun _ _ h => h.giveContexts

theorem Kept.recordFull (hs : u.Kept s) : u.Kept s.recordFull := hs.modGirth

theorem Kept.pathOff {p} (hs : u.Kept s) : u.Kept (s.pathOff p) := by
  unfold State.pathOff
  extract_lets s1
  have hs1 : u.Kept s1 := .ite hs.leaveReceive hs
  exact hs1.setPathState.modPath

theorem Kept.pathOn {p} (hs : u.Kept s) : u.Kept (s.pathOn p) := .ite hs.modPath.pathWant hs

theorem Kept.pathPlan {p} (hs : u.Kept s) : u.Kept (s.pathPlan p) := .ite hs.tunersBack hs.planRate

theorem Kept.planPaths (hs : u.Kept s) : u.Kept s.planPaths := by
  unfold State.planPaths
  extract_lets cycles s1 s2
  have hs1 : u.Kept s1 := hs.pathPlan
  have hs2 : u.Kept s2 := .ite hs1.modPath hs1.pathPlan
  exact .ite hs1 (.ite (hs1.pathOff.foldl fun _ _ h => .ite h.tunerOff h) hs2.pathOn)

theorem Kept.planChain {c} (hs : u.Kept s) : u.Kept (s.planChain c) := by
  unfold State.planChain
  extract_lets off slp h' s1 s2
  have hs1 : u.Kept s1 := hs.modChain
  have hs2 : u.Kept s2 := hs1.unstart
  exact .ite hs (.ite hs2.failAll.chainRest (.ite hs1.chainRest hs1.chainFollow))

theorem Kept.planEth {p} (hs : u.Kept s) : u.Kept (s.planEth p) := .ite hs ((hs.iff (fun _ h => h.linkDown)).modPort)

theorem Kept.unitsDown (hs : u.Kept s) : u.Kept s.unitsDown := by
  unfold State.unitsDown
  extract_lets s1 s2 s3
  have hs1 : u.Kept s1 := hs.rxPlan
  have hs2 : u.Kept s2 := (hs1.iff (fun _ h => h.die1Down)).planRegions
  have hs3 : u.Kept s3 := hs2.cluHolds.planFreqs.planPaths
  exact hs3.planChain.planChain.planEth.planEth

theorem Kept.unitsUp (hs : u.Kept s) : u.Kept s.unitsUp := by
  unfold State.unitsUp
  extract_lets s1 s2
  have hs1 : u.Kept s1 := hs.planEth.planEth.planChain.planChain
  have hs2 : u.Kept s2 := hs1.planPaths.planFreqs.cluHolds.planRegions
  exact (hs2.iff (fun _ h => h.die1Rise)).rxPlan

theorem Kept.planChange {old} (hs : u.Kept s) : u.Kept (s.planChange old) := by
  unfold State.planChange
  extract_lets s1
  have hs1 : u.Kept s1 := (hs.iff (fun _ h => h.recordFull)).fset
  exact .ite hs1.unitsDown hs1.unitsUp

/-! ## Power states (Machine/Power) -/

theorem Kept.modPkg {f} (hs : u.Kept s) : u.Kept (s.modPkg f) := hs.same

theorem Kept.wakeRecord (hs : u.Kept s) : u.Kept s.wakeRecord := hs.fset.fset.fsat.fset.modPkg

theorem Kept.clampPath {p} (hs : u.Kept s) : u.Kept (s.clampPath p) := hs.pathOff.modPath

theorem Kept.radioOff (hs : u.Kept s) : u.Kept s.radioOff := hs.clampPath.clampPath.chainSleep.chainSleep

theorem Kept.cycleStop {c} (hs : u.Kept s) : u.Kept (s.cycleStop c) := hs.modClu

theorem Kept.cycleGo {c} (hs : u.Kept s) : u.Kept (s.cycleGo c) := hs.modClu

theorem Kept.sleepExit (hs : u.Kept s) : u.Kept s.sleepExit := by
  unfold State.sleepExit
  extract_lets s1 s2 s3 s4
  have hs1 : u.Kept s1 := hs.wakeRecord.modPkg.fset
  have hs2 : u.Kept s2 := (((hs1.foldl fun _ _ h => h.cycleGo).cluHolds).planEth).planEth
  have hs3 : u.Kept s3 := hs2.foldl fun _ _ h1 => h1.modPath
  have hs4 : u.Kept s4 := hs3.pathOn.iff (fun _ h2 => h2.pathOn)
  exact hs4.rxPlan.chainFollow.chainFollow.flashWake

theorem Kept.sleepEnter (hs : u.Kept s) : u.Kept s.sleepEnter := by
  unfold State.sleepEnter
  extract_lets s1 s2 s3
  have hs1 : u.Kept s1 := hs.modPkg.fset.fset
  have hs2 : u.Kept s2 := (((hs1.foldl fun _ _ h => h.cycleStop).cluHolds).planEth).planEth
  have hs3 : u.Kept s3 := hs2.radioOff.flashPause
  exact .ite hs3 hs3.sleepExit

theorem Kept.entryGo {f} (hs : u.Kept s) (hf : ∀ t, u.Kept t → u.Kept (f t)) : u.Kept (s.entryGo f) := by
  unfold State.entryGo
  refine .ite ?_ hs
  extract_lets s1
  have hs1 : u.Kept s1 := hs.flashHalt
  exact .ite hs1 (hf _ hs1)

theorem Kept.entrySteps (hs : u.Kept s) : u.Kept s.entrySteps := by
  unfold State.entrySteps
  extract_lets s1
  have hs1 : u.Kept s1 := hs.flashPause.closePartial
  exact hs1.fset.modPkg

theorem Kept.offArm (hs : u.Kept s) : u.Kept s.offArm := hs.entrySteps.radioOff.linkDown.linkDown.modCinch.modPkg.fset

theorem Kept.startReq {k} (hs : u.Kept s) : u.Kept (s.startReq k) := hs.modPkg.rxPlan.unstart.settle.unstart.settle

theorem Kept.powerNext (hs : u.Kept s) : u.Kept s.powerNext := by
  unfold State.powerNext
  extract_lets s1 s2
  have hs1 : u.Kept s1 := .ite hs.fset hs
  have hs2 : u.Kept s2 := .ite hs1.startReq hs1
  exact .ite (hs2.entryGo (fun _ h => h.offArm)) hs2

theorem Kept.powerReq {k} (hs : u.Kept s) : u.Kept (s.powerReq k) := .ite hs hs.modPkg.powerNext

theorem Kept.pwrCtrlWrite {v} (hs : u.Kept s) : u.Kept (s.pwrCtrlWrite v) := hs.fset.powerReq

theorem Kept.execSleepRequest {m v} (hs : u.Kept s) : u.KeptIn (execSleepRequest m v s) :=
  hs.regGate fun _ h => h.pwrCtrlWrite

theorem Kept.execDeepSleepRequest {m v} (hs : u.Kept s) : u.KeptIn (execDeepSleepRequest m v s) :=
  hs.regGate fun _ h => h.pwrCtrlWrite

theorem Kept.execOffRequest {m v} (hs : u.Kept s) : u.KeptIn (execOffRequest m v s) :=
  hs.regGate fun _ h => h.pwrCtrlWrite

theorem Kept.execSleepEntry (hs : u.Kept s) : u.KeptIn (execSleepEntry s) :=
  hs.iff fun _ h => h.entryGo (fun _ h1 => h1.sleepEnter)

theorem Kept.execPageProgramDone {ok} (hs : u.Kept s) : u.KeptIn (execPageProgramDone ok s) := hs.pageEnds.powerNext

theorem Kept.survEnter (hs : u.Kept s) : u.Kept s.survEnter := hs.finc.fset.fset.powerReq

theorem Kept.execSurvivalWindowEnd (hs : u.Kept s) : u.KeptIn (execSurvivalWindowEnd s) := by
  unfold Machine.execSurvivalWindowEnd
  refine hs.iff fun t h => ?_
  extract_lets t1
  have ht1 : u.Kept t1 := h.modPkg
  exact .ite ht1.setPlan.fset ht1.fset.powerReq

theorem Kept.execPathReceiveReached {p} (hs : u.Kept s) : u.KeptIn (execPathReceiveReached p s) :=
  hs.iff fun _ h => h.pathReceive.powerNext

theorem Kept.execFrontEndStep {txh k} (hs : u.Kept s) : u.KeptIn (execFrontEndStep txh k s) := hs.frontEnd.powerNext

theorem Kept.execTxCarrierEnd {txh i} (hs : u.Kept s) : u.KeptIn (execTxCarrierEnd txh i s) := hs.carrierEnd.powerNext

theorem Kept.die1Ready (hs : u.Kept s) : u.Kept s.die1Ready :=
  .ite hs (.ite ((hs.fset.modGirth.rxPlan.foldl fun _ _ h => h.haltLoad.haltSync).powerNext) hs.fset)

theorem Kept.execDie1Ready {m} (hs : u.Kept s) : u.KeptIn (execDie1Ready m s) := hs.regGate fun _ h => h.die1Ready

theorem Kept.suspendTenant {t} (hs : u.Kept s) : u.Kept (s.suspendTenant t) := by
  unfold State.suspendTenant
  extract_lets s1 s2 s3
  have hs1 : u.Kept s1 := hs.fset
  have hs2 : u.Kept s2 := hs1.foldl fun _ _ h => (h.foldl fun _ _ h1 => h1.stopEng).haltSync
  have hs3 : u.Kept s3 := hs2.foldl fun _ _ h2 => h2.rxDisable.fset
  refine hs3.foldl fun u' c h3 => ?_
  extract_lets u1
  have hu1 : u.Kept u1 := h3.failAll
  split
  · exact .ite hu1.startFail hu1
  · exact hu1

theorem Kept.resumeTenant {t} (hs : u.Kept s) : u.Kept (s.resumeTenant t) := by
  unfold State.resumeTenant
  extract_lets s1
  have hs1 : u.Kept s1 := hs.fset
  exact .ite (hs1.foldl fun _ _ h => h.restartEngs.haltSync) hs1

theorem Kept.suspendWrite {t on} (hs : u.Kept s) : u.Kept (s.suspendWrite t on) :=
  .ite hs (.ite hs.suspendTenant hs.resumeTenant)

theorem Kept.execTenantSuspend {m t} (hs : u.Kept s) : u.KeptIn (execTenantSuspend m t s) :=
  hs.regGate fun _ h => h.suspendWrite

theorem Kept.execTenantResume {m t} (hs : u.Kept s) : u.KeptIn (execTenantResume m t s) :=
  hs.regGate fun _ h => h.suspendWrite

/-! ## Upkeep of memory and log (Machine/Upkeep) -/

theorem Kept.execEccWriteback (hs : u.Kept s) : u.KeptIn (execEccWriteback s) := by
  unfold Machine.execEccWriteback
  split
  · exact hs
  · exact hs.same.setFlip

theorem Kept.memFlipArm {v} (hs : u.Kept s) : u.Kept (s.memFlipArm v) := by
  unfold State.memFlipArm
  extract_lets m s1
  have hs1 : u.Kept s1 := hs.fset.fset
  exact .ite hs1.fset hs1

theorem Kept.execMemFlipArm {v} (hs : u.Kept s) : u.KeptIn (execMemFlipArm v s) := hs.memFlipArm

theorem Kept.memClear {v} (hs : u.Kept s) : u.Kept (s.memClear v) := by
  unfold State.memClear
  extract_lets sys r f l s0 s1 base s2
  have hs0 : u.Kept s0 := .ite hs.fset hs
  have hs1 : u.Kept s1 := hs0.fset.fset.fset.fset
  have hs2 : u.Kept s2 := hs1.fset
  exact .ite hs1 (.ite hs1.fset hs2.same)

theorem Kept.execMemClear {v} (hs : u.Kept s) : u.KeptIn (execMemClear v s) := hs.memClear

theorem Kept.execMemClearDone (hs : u.Kept s) : u.KeptIn (execMemClearDone s) := by
  unfold Machine.execMemClearDone
  split
  · exact hs
  · extract_lets s1
    have hs1 : u.Kept s1 := hs.fill.fset
    exact hs1.same

theorem Kept.burnWord {k} (hs : u.Kept s) : u.Kept (s.burnWord k) := by
  unfold State.burnWord
  split
  · exact hs
  · exact hs.setFlip.finc
  · exact hs.noteBad

theorem Kept.burnWords {k n} (hs : u.Kept s) : u.Kept (s.burnWords k n) := by
  induction n generalizing s k with
  | zero => exact hs
  | succ n ih => exact ih hs.burnWord

theorem Kept.execBurnisherGroup (hs : u.Kept s) : u.KeptIn (execBurnisherGroup s) := by
  unfold Machine.execBurnisherGroup
  refine hs.iff fun t h => ?_
  extract_lets g p t1 g1 _ t2
  have ht1 : u.Kept t1 := .ite h.burnWords h
  have ht2 : u.Kept t2 := ht1.same
  exact ht2.fset.iff (fun _ h1 => h1.finc)

theorem Kept.execLogWriteStep (hs : u.Kept s) : u.KeptIn (execLogWriteStep s) := by
  unfold Machine.execLogWriteStep
  split
  · exact hs
  · extract_lets a _ put
    have hput : ∀ t b, u.Kept t → u.Kept (put t b) := fun _ _ h => h.same
    clear_value put
    split
    · exact hput _ _ hs.setWord64
    · exact hput _ _ hs.setWord64.setWord64.setWord64
    · exact hput _ _ hs.setWord64

theorem Kept.logAddWrite {v} (hs : u.Kept s) : u.Kept (s.logAddWrite v) := .ite hs hs.logAdd

theorem Kept.execLogAdd {v} (hs : u.Kept s) : u.KeptIn (execLogAdd v s) := hs.logAddWrite

/-! ## Resets and wakes (Machine/Reset) -/

theorem Kept.settingsCut (hs : u.Kept s) : u.Kept s.settingsCut := .ite hs.cutWrite hs

theorem Kept.powerCut {deep} (hs : u.Kept s) : u.Kept (s.powerCut deep) :=
  hs.flashCut.cipherCut.settingsCut.filter _ _ rfl rfl

theorem Kept.ioHold (hs : u.Kept s) : u.Kept s.ioHold := hs.modPkg

theorem Kept.burnAt {g} (hs : u.Kept s) : u.Kept (s.burnAt g) := hs.same.fset

theorem Kept.addCause {c} (hs : u.Kept s) : u.Kept (s.addCause c) := hs.modPkg

theorem Kept.startIf (hs : u.Kept s) : u.Kept s.startIf := .ite hs.fset.fset.fsat.modPkg hs

theorem Kept.startAgain (hs : u.Kept s) : u.Kept s.startAgain := by
  unfold State.startAgain
  refine .ite ?_ hs
  extract_lets f
  have hf : u.Kept f.2 := hs.free
  exact hf.modPkg.startIf

theorem Kept.packageReset {c} (hs : u.Kept s) : u.Kept (s.packageReset c) := hs.powerCut.modPkg.addCause.startAgain

theorem Kept.supplyFall {c} (hs : u.Kept s) : u.Kept (s.supplyFall c) := hs.powerCut.modPkg.addCause

theorem Kept.execSuppliesInRange {bootSel io} (hs : u.Kept s) : u.KeptIn (execSuppliesInRange bootSel io s) := by
  unfold Machine.execSuppliesInRange
  refine hs.iff fun t h => ?_
  extract_lets t1 t2
  have ht1 : u.Kept t1 := h.modPkg
  have ht2 : u.Kept t2 := ht1.modPkg
  exact .ite ht2.wakeRecord.addCause.startIf ht1.modPkg.startIf

theorem Kept.execRailFall (hs : u.Kept s) : u.KeptIn (execRailFall s) := by
  unfold Machine.execRailFall
  refine hs.iff fun t h => ?_
  extract_lets t1
  have ht1 : u.Kept t1 := h.supplyFall
  exact .ite ht1.modPkg ht1

theorem Kept.execBrownout (hs : u.Kept s) : u.KeptIn (execBrownout s) := hs.iff fun _ h => h.supplyFall

theorem Kept.execVbatLoss (hs : u.Kept s) : u.KeptIn (execVbatLoss s) :=
  hs.iff fun t h => (h.powerCut (deep := false)).filter (fun _ => true) _
    (List.filter_eq_self.2 fun _ _ => rfl).symm rfl

theorem Kept.execResetNAssert (hs : u.Kept s) : u.KeptIn (execResetNAssert s) := by
  unfold Machine.execResetNAssert
  refine hs.iff fun t h => ?_
  extract_lets t1
  have ht1 : u.Kept t1 := h.modPkg
  exact .ite ht1.packageReset ht1

theorem Kept.execResetNRelease {bootSel} (hs : u.Kept s) : u.KeptIn (execResetNRelease bootSel s) :=
  hs.iff fun _ h => h.modPkg.startIf

theorem Kept.execJtagReset (hs : u.Kept s) : u.KeptIn (execJtagReset s) := hs.iff fun _ h => h.packageReset

theorem Kept.softReset {v} (hs : u.Kept s) : u.Kept (s.softReset v) := .ite hs.packageReset hs

theorem Kept.execSoftReset {m v} (hs : u.Kept s) : u.KeptIn (execSoftReset m v s) :=
  hs.regGate fun _ h => h.softReset

theorem Kept.execSupHalterExpiry (hs : u.Kept s) : u.KeptIn (execSupHalterExpiry s) :=
  hs.iff fun _ h => h.packageReset

theorem Kept.execSensorUpdate {c0 c1 r} (hs : u.Kept s) : u.KeptIn (execSensorUpdate c0 c1 r s) :=
  Kept.ite (.ite hs.modPkg.startAgain hs)
      (.ite hs (.ite hs.modPkg.packageReset (hs.fset.fset.fset.iff (fun _ h => h.fset))))

theorem Kept.deepExit (hs : u.Kept s) : u.Kept s.deepExit := hs.modPkg.modPath.wakeRecord.fset.addCause.startAgain

theorem Kept.deepEnter (hs : u.Kept s) : u.Kept s.deepEnter := by
  unfold State.deepEnter
  extract_lets s1
  have hs1 : u.Kept s1 := hs.entrySteps.ioHold.powerCut.burnAt.modPkg.modPath
  exact .ite hs1 hs1.deepExit

theorem Kept.execDeepSleepEntry (hs : u.Kept s) : u.KeptIn (execDeepSleepEntry s) :=
  hs.iff fun _ h => h.entryGo (fun _ h1 => h1.deepEnter)

theorem Kept.execOffEntry (hs : u.Kept s) : u.KeptIn (execOffEntry s) :=
  hs.iff fun _ h => h.ioHold.powerCut.burnAt.modPkg

theorem Kept.wakeFire {k also} (hs : u.Kept s) : u.Kept (s.wakeFire k also) := by
  unfold State.wakeFire
  refine .ite ?_ hs
  extract_lets s1
  have hs1 : u.Kept s1 := hs.modPkg
  split
  · exact hs1.sleepExit.powerNext
  · exact hs1.deepExit
  · exact hs1

theorem Kept.execWakeAlarm {also} (hs : u.Kept s) : u.KeptIn (execWakeAlarm also s) := by
  unfold Machine.execWakeAlarm
  refine hs.iff fun t h => ?_
  extract_lets t1
  have ht1 : u.Kept t1 := h.wakeFire
  exact .ite ht1.modPkg ht1

theorem Kept.execWakeNLow {also} (hs : u.Kept s) : u.KeptIn (execWakeNLow also s) := hs.wakeFire

theorem Kept.execWakeNRelease (hs : u.Kept s) : u.KeptIn (execWakeNRelease s) := hs.modPkg

theorem Kept.execMainsDebounceExpiry {also} (hs : u.Kept s) : u.KeptIn (execMainsDebounceExpiry also s) := by
  unfold Machine.execMainsDebounceExpiry
  refine hs.iff fun t h => ?_
  extract_lets rise t1 t2
  have ht1 : u.Kept t1 := h.modGirth.modPkg
  have ht2 : u.Kept t2 := .ite ht1 ht1.fset
  exact .ite ht2.wakeFire ht2

theorem Kept.execStirrupMatch {b also} (hs : u.Kept s) : u.KeptIn (execStirrupMatch b also s) :=
  hs.iff fun _ h => .ite h.fsat (.ite h.fsat.wakeFire h)

theorem Kept.execTimerStep {n also} (hs : u.Kept s) : u.KeptIn (execTimerStep n also s) := by
  unfold Machine.execTimerStep
  extract_lets r
  have hr : u.Kept r.1 := hs.timerStep
  exact Kept.ite hr.wakeFire hr

/-! ## Start-up (Machine/Boot) -/

theorem Kept.toStage {x} (hs : u.Kept s) : u.Kept (s.toStage x) := hs.modPkg

theorem Kept.putBootRecord (hs : u.Kept s) : u.Kept s.putBootRecord := hs.setWord64

theorem Kept.readBootRecord (hs : u.Kept s) : u.Kept s.readBootRecord := by
  unfold State.readBootRecord
  extract_lets r
  have hr : u.Kept r.2.2 := hs.readWord
  exact .ite hr.setReg hr.setReg.putBootRecord.logHw

theorem Kept.checkOpRecord (hs : u.Kept s) : u.Kept s.checkOpRecord := by
  unfold State.checkOpRecord
  extract_lets r op off s1 s2
  have hs1 : u.Kept s1 := hs.modPkg
  have hs2 : u.Kept s2 := .ite hs1.modFlash hs1.fset.fset.fset
  exact .ite hs hs2.setWord64

theorem Kept.supHalter (hs : u.Kept s) : u.Kept s.supHalter := hs.modPkg.modClu

theorem Kept.recoveryEnter (hs : u.Kept s) : u.Kept s.recoveryEnter := hs.fset.fset.fset.fset.toStage.haltRun

theorem Kept.afterFill (hs : u.Kept s) : u.Kept s.afterFill := by
  unfold State.afterFill
  split
  · exact hs.recoveryEnter
  · exact hs.toStage

theorem Kept.bootRomEntry (hs : u.Kept s) : u.Kept s.bootRomEntry := by
  unfold State.bootRomEntry
  extract_lets s1
  have hs1 : u.Kept s1 := hs.supHalter.fset.readBootRecord.checkOpRecord
  exact hs1.setReg.fset.afterFill

theorem Kept.fillCheck (hs : u.Kept s) : u.Kept s.fillCheck := .ite (.ite hs.afterFill (.ite hs.bootRomEntry hs)) hs

theorem Kept.execReferenceStable (hs : u.Kept s) : u.KeptIn (execReferenceStable s) :=
  hs.iff fun _ h => (h.foldl fun _ _ h1 => h1.fset).modPkg

theorem Kept.execLatigoTrainDone {l} (hs : u.Kept s) : u.KeptIn (execLatigoTrainDone l s) :=
  hs.iff fun _ h => h.fset.die1Settle.fillCheck

theorem Kept.fillAll {keep} (hs : u.Kept s) : u.Kept (s.fillAll keep) := hs.fill.fill.fill.fill.fill

theorem Kept.execSramFillDone (hs : u.Kept s) : u.KeptIn (execSramFillDone s) :=
  Kept.ite hs.fillAll.modPkg.fillCheck (.ite hs.die1Memory.modPkg.die1Settle hs)

theorem Kept.setFail {b code} (hs : u.Kept s) : u.Kept (s.setFail b code) := .ite hs.fset hs.fset

theorem Kept.wipe {next} (hs : u.Kept s) : u.Kept (s.wipe next) := hs.fill.fill.fill.modPkg

theorem Kept.goOn {wiped next} (hs : u.Kept s) : u.Kept (s.goOn wiped next) := .ite hs.wipe hs.modPkg.afterFill

theorem Kept.otherFails {code wiped} (hs : u.Kept s) : u.Kept (s.otherFails code wiped) := hs.setFail.goOn

theorem Kept.bankFail {code wiped} (hs : u.Kept s) : u.Kept (s.bankFail code wiped) := by
  unfold State.bankFail
  refine .ite hs.otherFails ?_
  extract_lets b s1 s2 s3
  have hs1 : u.Kept s1 := hs.setFail
  have hs2 : u.Kept s2 := .ite hs1.fset.fset.putBootRecord.logHw hs1
  have hs3 : u.Kept s3 := hs2.modPkg
  exact .ite hs3.otherFails hs3.goOn

theorem Kept.bankSelect (hs : u.Kept s) : u.Kept s.bankSelect := by
  unfold State.bankSelect
  extract_lets b left s1
  have hs1 : u.Kept s1 := .ite hs.modPkg
      (.ite hs.setFail.fset.fset.putBootRecord.logHw.modPkg hs.fset.putBootRecord.modPkg)
  exact .ite hs1.bankFail hs1.toStage

theorem Kept.execFlashDiscovery {ok dev0 dev1} (hs : u.Kept s) : u.KeptIn (execFlashDiscovery ok dev0 dev1 s) :=
  hs.iff fun _ h => .ite h.setReg.setReg.fset.bankSelect h.fset.bankSelect

theorem Kept.execHeaderCheck (hs : u.Kept s) : u.KeptIn (execHeaderCheck s) :=
  hs.iff fun _ h => .ite h.modPkg.toStage h.bankFail

theorem Kept.loadBytes {k bs} (hs : u.Kept s) : u.Kept (s.loadBytes k bs) := by
  unfold State.loadBytes
  extract_lets sa
  have hsa : u.Kept sa := hs.setBytes
  exact hsa.same

theorem Kept.loadSection {k e} (hs : u.Kept s) : u.Kept (s.loadSection k e) := by
  unfold State.loadSection
  extract_lets
  split
  · exact hs.loadBytes
  · exact hs.loadBytes
  · exact hs.foldl fun _ _ h => h.loadBytes
  · exact hs.foldl fun _ _ h1 => h1.loadBytes
  · exact hs.foldl fun _ _ h2 => h2.loadBytes.loadBytes
  · exact hs.modPkg
  · exact hs.modPkg
  · exact hs

theorem Kept.loadImage {h k} (hs : u.Kept s) : u.Kept (s.loadImage h k) := hs.modPkg.foldl fun _ _ h => h.loadSection

theorem Kept.execSectionLoad {readErr} (hs : u.Kept s) : u.KeptIn (execSectionLoad readErr s) :=
  hs.iff fun _ h => .ite h.bankFail (.ite h.bankFail h.loadImage.toStage)

theorem Kept.logRefused {es tenants} (hs : u.Kept s) : u.Kept (s.logRefused es tenants) :=
  hs.foldl fun _ _ h => .ite h h.logAdd

theorem Kept.execSignatureCheck (hs : u.Kept s) : u.KeptIn (execSignatureCheck s) :=
  hs.iff fun _ h => .ite h.bankFail (.ite h.bankFail h.setFail.logRefused.toStage)

theorem Kept.execSettingsCheck (hs : u.Kept s) : u.KeptIn (execSettingsCheck s) := by
  unfold Machine.execSettingsCheck
  refine hs.iff fun t h => ?_
  extract_lets b old t1
  have hb : u.Kept b.2 := h.settingsRead
  have ht1 : u.Kept t1 := hb.toStage
  exact .ite ht1 ht1.writeBytes.fset.logHw

theorem Kept.cfgPut {a v} (hs : u.Kept s) : u.Kept (s.cfgPut a v) := by
  unfold State.cfgPut
  refine .ite hs ?_
  split
  · exact hs
  · extract_lets w s1
    have hs1 : u.Kept s1 := hs.setReg
    exact .ite hs1.same hs1

theorem Kept.cfgApply {ws} (hs : u.Kept s) : u.Kept (s.cfgApply ws) := by
  unfold State.cfgApply
  extract_lets plain s1 s2 s3
  have hs1 : u.Kept s1 := hs.foldl fun _ _ h => .ite h.cfgPut h
  have hs2 : u.Kept s2 := hs1.foldl fun _ _ h1 => .ite h1.fset.lnaBypass.pathRate h1
  have hs3 : u.Kept s3 := by
    unfold s3
    refine hs2.foldl fun t w h2 => ?_
    split
    · exact h2.tunerWrite
    · exact h2
  exact hs3.foldl fun _ _ h3 => .ite h3.rxCfgWrite h3

theorem Kept.ledgerRestore (hs : u.Kept s) : u.Kept s.ledgerRestore := by
  unfold State.ledgerRestore
  extract_lets one s1 s2
  have hone : ∀ t a k put, u.Kept t → (∀ t v, u.Kept t → u.Kept (put t v)) → u.Kept (one t a k put) :=
    fun t a k put ht hput => .ite (hput _ _ ht.readWord) (hput _ _ ht.readWord).logHw
  clear_value one
  have hs1 : u.Kept s1 := hs.foldl fun t k h => hone _ _ _ _ h fun _ _ h => h.setLedger
  have hs2 : u.Kept s2 := hs1.foldl fun t k h => hone _ _ _ _ h fun _ _ h => h.setTledger
  exact hs2.foldl fun t k h => hone _ _ _ _ h fun _ _ h => h.fset.fset

theorem Kept.sleepCost (hs : u.Kept s) : u.Kept s.sleepCost := by
  unfold State.sleepCost
  refine .ite hs ?_
  extract_lets d e s1 s2
  have hs1 : u.Kept s1 := hs.setLedger.setLedger.setLedger
  have hs2 : u.Kept s2 := .ite hs1.fset hs1
  exact hs2.modPkg

theorem Kept.keysUnwrap {bs} (hs : u.Kept s) : u.Kept (s.keysUnwrap bs) := by
  unfold State.keysUnwrap
  refine hs.foldl fun t i h => ?_
  extract_lets
  split
  · exact .ite h.logHw h.setKeySlot
  · exact h.logHw

theorem Kept.eccRestore (hs : u.Kept s) : u.Kept s.eccRestore := by
  unfold State.eccRestore
  refine hs.foldl fun t i h => ?_
  extract_lets r
  have hr : u.Kept r.2.2 := h.readBytes
  split
  · exact hr.setEccKey
  · exact hr

theorem Kept.paGain {c cfg fused} (hs : u.Kept s) : u.Kept (s.paGain c cfg fused) := .ite hs hs.fset.logHw

theorem Kept.handSets {cfg} (hs : u.Kept s) : u.Kept (s.handSets cfg) := by
  unfold State.handSets
  extract_lets img s1
  have hs1 : u.Kept s1 := hs.foldl fun _ _ h => h.fset
  exact hs1.modGirth

theorem Kept.handClusters (hs : u.Kept s) : u.Kept s.handClusters := by
  unfold State.handClusters
  refine hs.foldl fun t c h => ?_
  split
  · refine .ite ?_ h
    extract_lets t1
    have ht1 : u.Kept t1 := h.cluRelease.foldl fun _ _ h1 => h1.modEng
    exact ht1.haltLoad.haltSync
  · exact h

theorem Kept.handCinch (hs : u.Kept s) : u.Kept s.handCinch := by
  unfold State.handCinch
  extract_lets s1
  have hs1 : u.Kept s1 := hs.modCinch.extStart.runSlot
  exact hs1.same

theorem Kept.handRadio (hs : u.Kept s) : u.Kept s.handRadio := by
  unfold State.handRadio
  extract_lets s1
  have hs1 : u.Kept s1 := by
    unfold s1
    refine hs.foldl fun t p h => .ite ?_ h
    extract_lets t1
    have ht1 : u.Kept t1 := h.fset
    exact .ite ht1 ht1.pathWant
  exact hs1.foldl fun _ _ h1 => .ite h1.fset.chainFollow h1

theorem Kept.handPlan (hs : u.Kept s) : u.Kept s.handPlan := by
  unfold State.handPlan
  extract_lets s0 s1
  have hs0 : u.Kept s0 := .ite hs.fset.finc.modPkg hs
  have hs1 : u.Kept s1 := hs0.modGirth
  exact .ite hs1 hs1.planChange

theorem Kept.handImage {recovered} (hs : u.Kept s) : u.Kept (s.handImage recovered) :=
  hs.fset.fset.fset.fset.fset.toStage

theorem Kept.handErase (hs : u.Kept s) : u.Kept s.handErase := by
  unfold State.handErase
  split
  · extract_lets
    exact hs.fset.fset.fset.modFlash.eraseStart
  · exact hs

theorem Kept.execHandover {cfg bootTag msgId} (hs : u.Kept s) : u.KeptIn (execHandover cfg bootTag msgId s) := by
  unfold Machine.execHandover
  refine hs.iff fun t h => ?_
  extract_lets recovered t1 t2 _ t3 t4 t5 t6
  have ht1 : u.Kept t1 := h.handSets.cfgApply.keysUnwrap.eccRestore
  have ht2 : u.Kept t2 := ht1.paGain.paGain.setReg
  have ht3 : u.Kept t3 := ht2.same
  have ht4 : u.Kept t4 := ht3.ledgerRestore.sleepCost.openFrame
  have ht5 : u.Kept t5 := ht4.handPlan.handRadio.handClusters.handImage
  have ht6 : u.Kept t6 := ht5.handCinch.fset.fset
  exact ht6.modEng.supHalter.handErase.powerNext

theorem Kept.bootCtrlWrite {v} (hs : u.Kept s) : u.Kept (s.bootCtrlWrite v) := by
  unfold State.bootCtrlWrite
  extract_lets s1 s2 s3
  have hs1 : u.Kept s1 := hs.fset
  have hs2 : u.Kept s2 := .ite hs1.fset.fset.fset hs1
  have hs3 : u.Kept s3 := .ite hs2.fset.fset hs2
  exact hs3.putBootRecord

theorem Kept.execTrialStart {m pref} (hs : u.Kept s) : u.KeptIn (execTrialStart m pref s) :=
  hs.regGate fun _ h => h.bootCtrlWrite

theorem Kept.execPrefBankWrite {m pref} (hs : u.Kept s) : u.KeptIn (execPrefBankWrite m pref s) :=
  hs.regGate fun _ h => h.bootCtrlWrite

theorem Kept.execConfirm {m pref} (hs : u.Kept s) : u.KeptIn (execConfirm m pref s) :=
  hs.regGate fun _ h => h.bootCtrlWrite

theorem Kept.modRec {f} (hs : u.Kept s) : u.Kept (s.modRec f) := hs.modPkg

theorem Kept.recReply {type data} (hs : u.Kept s) : u.Kept (s.recReply type data) := hs.modRec

theorem Kept.recAck {type data} (hs : u.Kept s) : u.Kept (s.recAck type data) := hs.recReply

theorem Kept.recNak {type code} (hs : u.Kept s) : u.Kept (s.recNak type code) := hs.recReply

theorem Kept.recNakFree {type} (hs : u.Kept s) : u.Kept (s.recNakFree type) := by
  unfold State.recNakFree
  extract_lets f
  have hf : u.Kept f.2 := hs.free
  exact hf.recNak

theorem Kept.recHello (hs : u.Kept s) : u.Kept s.recHello := hs.recAck

theorem Kept.execRecoveryHelloTick (hs : u.Kept s) : u.KeptIn (execRecoveryHelloTick s) :=
  hs.iff fun _ h => h.recHello

theorem Kept.execRecoveryFrame {b} (hs : u.Kept s) : u.KeptIn (execRecoveryFrame b s) := by
  unfold Machine.execRecoveryFrame
  refine hs.iff fun t h => ?_
  split
  · exact h.recNak
  · extract_lets t1
    have ht1 : u.Kept t1 := h.modRec
    exact .ite ht1.modRec ht1.recNakFree

theorem Kept.recRun {type f} (hs : u.Kept s) (hf : ∀ x1 t, u.Kept t → u.Kept (f x1 t)) :
    u.Kept (s.recRun type f) := by
  unfold State.recRun
  refine .ite ?_ hs
  split
  · exact .ite (hf _ _ hs.modRec) hs
  · exact hs

theorem Kept.execHello (hs : u.Kept s) : u.KeptIn (execHello s) := hs.recRun (fun _ _ h => h.recHello)

theorem Kept.execBaud (hs : u.Kept s) : u.KeptIn (execBaud s) :=
  hs.recRun (fun _ _ h => .ite h.recAck.modRec h.recNakFree)

theorem Kept.execRecoveryBaudApply (hs : u.Kept s) : u.KeptIn (execRecoveryBaudApply s) := by
  unfold Machine.execRecoveryBaudApply
  split
  · exact hs.modRec
  · exact hs

theorem Kept.execRecoveryLoad (hs : u.Kept s) : u.KeptIn (execRecoveryLoad s) :=
  hs.recRun (fun _ _ h => .ite h.recNakFree (.ite h.recNak h.writeBytes.recAck))

theorem Kept.execRun (hs : u.Kept s) : u.KeptIn (execRun s) := by
  unfold Machine.execRun
  refine hs.recRun fun data t h => ?_
  extract_lets code h' es t1
  have ht1 : u.Kept t1 := h.loadImage.fill.recAck
  exact .ite h.recNakFree (.ite h.recNak.wipe ht1.logRefused.fset.fset.toStage)

/-! ## Cinch boundary (Machine/Boundary) -/

theorem Kept.dutyRotate {old new} (hs : u.Kept s) : u.Kept (s.dutyRotate old new) := by
  unfold State.dutyRotate
  extract_lets
  exact hs.same.modChain.modChain

theorem Kept.airShift {next new} (hs : u.Kept s) : u.Kept (s.airShift next new) := by
  unfold State.airShift
  extract_lets
  exact hs.modChain.modChain

theorem Kept.dutyOpen {b} (hs : u.Kept s) : u.Kept (s.dutyOpen b) := hs.same

theorem Kept.dutyBoundary {f renumbered} (hs : u.Kept s) : u.Kept (s.dutyBoundary f renumbered) :=
  .ite hs.dutyRotate (.ite hs hs.dutyOpen)

theorem Kept.cinchBoundary (hs : u.Kept s) : u.Kept s.cinchBoundary := by
  unfold State.cinchBoundary
  extract_lets a len s1 s2 s3
  have hs1 : u.Kept s1 := hs.modCinch
  have hs2 : u.Kept s2 := hs1.fset.fadd
  have hs3 : u.Kept s3 := hs2.iff (fun _ h => h.fset.fset.finc)
  exact hs3.runSlot.outBoundary

theorem Kept.girthBoundary {f len} (hs : u.Kept s) : u.Kept (s.girthBoundary f len) := by
  unfold State.girthBoundary
  extract_lets old s1 s2
  have hs1 : u.Kept s1 := hs.closeFrame
  have hs2 : u.Kept s2 := .ite hs1 hs1.planChange
  exact .ite hs1 (.ite hs2.survEnter hs2)

theorem Kept.execCinchBoundary (hs : u.Kept s) : u.KeptIn (execCinchBoundary s) := by
  unfold Machine.execCinchBoundary
  refine hs.iff fun t h => ?_
  extract_lets f len step renumbered t0 t1 t2 t3
  have ht0 : u.Kept t0 := h.cinchTo
  have ht1 : u.Kept t1 := ht0.cinchBoundary.girthBoundary
  have ht2 : u.Kept t2 := (ht1.iff (fun _ h1 => h1.ackCancel.reservesCancel)).iff (fun _ h2 => h2.seenExpire.airShift)
  have ht3 : u.Kept t3 := ht2.dutyBoundary.extBoundary
  exact ht3.same.powerNext

theorem Kept.idle (hs : u.Kept s) : u.Kept s.idle := hs.iff fun _ h => h.refTick

/-! ## Coprocessors (Machine/Cops) -/

theorem Kept.cop1 {n port a} (hs : u.Kept s) : u.Kept (cop1 n port a s).2 := by
  unfold Machine.cop1
  split
  · exact hs
  · exact hs
  · exact hs.ringRdWrite.snd
  · exact hs
  · exact hs
  · exact hs
  · exact hs
  · exact hs
  · exact hs

theorem Kept.copDec {c p port rd rs1 rs2} (hs : u.Kept s) : u.Kept (copDec c p port rd rs1 rs2 s) :=
  hs.copFar (fun _ _ _ _ h => h.cop1) (fun _ h => h)

theorem Kept.execRingRd {c p rd rs1 rs2} (hs : u.Kept s) : u.KeptIn (execRingRd c p rd rs1 rs2 s) := hs.copDec

theorem Kept.execRingWr {c p rd rs1 rs2} (hs : u.Kept s) : u.KeptIn (execRingWr c p rd rs1 rs2 s) := hs.copDec

theorem Kept.execFree {c p rd rs1 rs2} (hs : u.Kept s) : u.KeptIn (execFree c p rd rs1 rs2 s) := hs.copDec

theorem Kept.execTq {c p rd rs1 rs2} (hs : u.Kept s) : u.KeptIn (execTq c p rd rs1 rs2 s) := hs.copDec

theorem Kept.execFcount {c p rd rs1 rs2 w} (hs : u.Kept s) : u.KeptIn (execFcount c p rd rs1 rs2 w s) := hs.copDec

theorem Kept.cop2S {n port a b} (hs : u.Kept s) : u.Kept (cop2S n port a b s).2 := hs.setEng.snd

theorem Kept.copBits {c p port rd rs1 rs2} (hs : u.Kept s) : u.Kept (copBits c p port rd rs1 rs2 s) :=
  hs.copFar (fun _ _ _ _ h => h.cop2S) (fun _ h => h)

theorem Kept.execCrcInit {c p rd rs1 rs2} (hs : u.Kept s) : u.KeptIn (execCrcInit c p rd rs1 rs2 s) := hs.copBits

theorem Kept.execCrc32B {c p rd rs1 rs2} (hs : u.Kept s) : u.KeptIn (execCrc32B c p rd rs1 rs2 s) := hs.copBits

theorem Kept.execCrc32W {c p rd rs1 rs2} (hs : u.Kept s) : u.KeptIn (execCrc32W c p rd rs1 rs2 s) := hs.copBits

theorem Kept.execCrc16B {c p rd rs1 rs2} (hs : u.Kept s) : u.KeptIn (execCrc16B c p rd rs1 rs2 s) := hs.copBits

theorem Kept.execCrc8B {c p rd rs1 rs2} (hs : u.Kept s) : u.KeptIn (execCrc8B c p rd rs1 rs2 s) := hs.copBits

theorem Kept.execPn9 {c p rd rs1 rs2} (hs : u.Kept s) : u.KeptIn (execPn9 c p rd rs1 rs2 s) := hs.copBits

theorem Kept.execPn9Init {c p rd rs1 rs2} (hs : u.Kept s) : u.KeptIn (execPn9Init c p rd rs1 rs2 s) := hs.copBits

theorem Kept.execGolayEnc {c p rd rs1 rs2} (hs : u.Kept s) : u.KeptIn (execGolayEnc c p rd rs1 rs2 s) := hs.copBits

theorem Kept.execGolayDec {c p rd rs1 rs2} (hs : u.Kept s) : u.KeptIn (execGolayDec c p rd rs1 rs2 s) := hs.copBits

theorem Kept.execBrev {c p rd rs1 rs2} (hs : u.Kept s) : u.KeptIn (execBrev c p rd rs1 rs2 s) := hs.copBits

theorem Kept.execCrcRd {c p rd rs1 rs2} (hs : u.Kept s) : u.KeptIn (execCrcRd c p rd rs1 rs2 s) := hs.copBits

theorem Kept.setArmed {n p v} (hs : u.Kept s) : u.Kept (s.setArmed n p v) := hs.modEng

theorem Kept.cop3 {n port a b} (hs : u.Kept s) : u.Kept (cop3 n port a b s).2 :=
  .iteSnd (.iteSnd hs (.iteSnd hs.setArmed.ready.snd hs.setArmed.snd))
      (.iteSnd hs.setArmed.snd (.iteSnd hs.modEng.snd (.iteSnd hs hs)))

theorem Kept.copCinch {c p port rd rs1 rs2} (hs : u.Kept s) : u.Kept (copCinch c p port rd rs1 rs2 s) :=
  hs.copFar (fun _ _ _ _ h => h.cop3) (fun _ h => h)

theorem Kept.execArm {c p rd rs1 rs2 q} (hs : u.Kept s) : u.KeptIn (execArm c p rd rs1 rs2 q s) := hs.copCinch

theorem Kept.execDisarm {c p rd rs1 rs2 q} (hs : u.Kept s) : u.KeptIn (execDisarm c p rd rs1 rs2 q s) := hs.copCinch

theorem Kept.execNowNs {c p rd rs1 rs2} (hs : u.Kept s) : u.KeptIn (execNowNs c p rd rs1 rs2 s) := hs.copCinch

theorem Kept.execNowFrame {c p rd rs1 rs2} (hs : u.Kept s) : u.KeptIn (execNowFrame c p rd rs1 rs2 s) := hs.copCinch

/-! ## Reads and writes of registers (Machine/Bus) -/

theorem Kept.readSpecial {m a} (hs : u.Kept s) : u.KeptOpt ((s.readSpecial m a).map Prod.snd) := by
  unfold State.readSpecial
  split
  · exact hs.ledgerLow.opt
  · exact hs.ledgerHigh.opt
  · exact .iteMap hs.setReg.opt <| .iteMap hs.rtcFreeze.opt <| .iteMap hs.setShadow.opt <| .iteMap hs.trngTake.opt <|
      .iteMap hs.ptpLatch.opt <| .iteMap hs.ptpLatch.opt <| .iteMap hs.stampPop.opt <| .iteMap hs.stampPop.opt <|
      .iteMap hs.mgmtPend.opt <| .iteMap hs.uartPop.opt <| .iteMap hs.uartPop.opt <| .iteMap hs.gpioIn.opt <|
      .iteMap hs.specRead.opt <| .iteMap (Kept.iteSnd hs hs.idataLoRead).opt <|
      .iteMap (Kept.iteSnd hs hs.idataHiRead).opt .none

theorem Kept.regRead {m a} (hs : u.Kept s) : u.Kept (s.regRead m a).2 := by
  unfold State.regRead
  split
  · exact hs
  · split
    next e =>
      exact .ofMap e hs.readSpecial
    · split
      · exact hs
      · split
        · exact hs.setReg
        · exact hs

theorem Kept.plainWrite {a v hw} (hs : u.Kept s) : u.Kept (s.plainWrite a v hw) := by
  unfold State.plainWrite
  split
  · exact hs
  · extract_lets s1
    have hs1 : u.Kept s1 := hs.setReg
    exact .ite hs1.same hs1

theorem Kept.sysWrite {a v hw} (hs : u.Kept s) : u.Kept (s.sysWrite a v hw) :=
  .ite hs.bootCtrlWrite (.ite hs.softReset (.ite hs.logAddWrite (.ite hs.setReg hs.plainWrite)))

theorem Kept.tshareWrite {t v hw} (hs : u.Kept s) : u.Kept (s.tshareWrite t v hw) := .ite hs.plainWrite hs

theorem Kept.girthBlockWrite {a v hw} (hs : u.Kept s) : u.Kept (s.girthBlockWrite a v hw) :=
  .ite hs.girthCtrlWrite
      (.ite (.ite hs.die1Ready hs)
          (.ite hs.packEstLo
              (.ite hs.packEstHi (.ite hs.tshareWrite (.ite hs.naccWrite (.ite hs.pwrCtrlWrite hs.plainWrite))))))

theorem Kept.cinchBlockWrite {a v hw} (hs : u.Kept s) : u.Kept (s.cinchBlockWrite a v hw) :=
  .ite hs.cinchCtrlWrite (.ite hs.rateWrite (.ite hs.setReg (.ite hs.airObsWrite (.ite hs.planWrite hs.plainWrite))))

theorem Kept.timerWrite {n off v hw} (hs : u.Kept s) : u.Kept (s.timerWrite n off v hw) := by
  unfold State.timerWrite
  split
  · exact hs.tmrCfgWrite
  · exact hs.modTimer
  · exact hs.reloadCommit
  · exact hs.modTimer
  · exact hs.cmpCommit
  · exact hs.plainWrite
  · exact hs

theorem Kept.rtcBlockWrite {a v hw} (hs : u.Kept s) : u.Kept (s.rtcBlockWrite a v hw) :=
  .ite hs.rtcCtrlWrite (.ite hs.tmrStart (.ite hs.tmrStop (.ite hs.timerWrite hs.plainWrite)))

theorem Kept.kcWrite {t v hw} (hs : u.Kept s) : u.Kept (s.kcWrite t v hw) := .ite hs.plainWrite hs

theorem Kept.eccCtrlWrite {i v} (hs : u.Kept s) : u.Kept (s.eccCtrlWrite i v) := by
  unfold State.eccCtrlWrite
  extract_lets s1 d
  have hs1 : u.Kept s1 := hs.fset
  have hd : u.Kept d.2 := hs1.free
  exact .ite hd.eccStart (.ite hs1.eccStart (.ite hs1.eccStart hs1))

theorem Kept.cipherWrite {a v hw} (hs : u.Kept s) : u.Kept (s.cipherWrite a v hw) :=
  .ite hs.setReg (.ite hs.keyCmd (.ite hs.kcWrite (.ite hs.eccCtrlWrite hs.plainWrite)))

theorem Kept.relayTcfgWrite {t v hw} (hs : u.Kept s) : u.Kept (s.relayTcfgWrite t v hw) := .ite hs.plainWrite hs

theorem Kept.tableWrite {m a v hw} (hs : u.Kept s) : u.Kept (s.tableWrite m a v hw) :=
  .ite hs.tableGo (.ite hs.relayTcfgWrite (.ite hs.aliasWrite hs.plainWrite))

theorem Kept.tenantCfgWrite {t v hw} (hs : u.Kept s) : u.Kept (s.tenantCfgWrite t v hw) :=
  hs.plainWrite.fset.suspendWrite

theorem Kept.tenantCipherWrite {t v hw} (hs : u.Kept s) : u.Kept (s.tenantCipherWrite t v hw) := .ite hs.plainWrite hs

theorem Kept.cipherResWrite {v hw} (hs : u.Kept s) : u.Kept (s.cipherResWrite v hw) := .ite hs.plainWrite hs

theorem Kept.tenantBlockWrite {a v hw} (hs : u.Kept s) : u.Kept (s.tenantBlockWrite a v hw) :=
  .ite hs.tenantCfgWrite
      (.ite hs.rfenceWrite (.ite hs.sfenceWrite (.ite hs.tenantCipherWrite (.ite hs.cipherResWrite hs.plainWrite))))

theorem Kept.ethWrite {a v hw} (hs : u.Kept s) : u.Kept (s.ethWrite a v hw) :=
  .ite hs.ethCfgWrite
      (.ite hs.ptpRateWrite
          (.ite hs.ptpStep (.ite hs.mdioWrite (.ite (hs.iff (fun _ h => h.mgmtDone)) hs.plainWrite))))

theorem Kept.pinBlockWrite {a v hw} (hs : u.Kept s) : u.Kept (s.pinBlockWrite a v hw) :=
  .ite hs.pinWrite
      (.ite (hs.plainWrite.iff (fun _ h => h.modCinch))
          (.ite hs.uartPush (.ite hs.uartPush (.ite hs.spiWrite (.ite hs.i2cWrite hs.plainWrite)))))

theorem Kept.txCtrlWrite {c v} (hs : u.Kept s) : u.Kept (s.txCtrlWrite c v) := .ite hs hs.fset.fset.txStateReq

theorem Kept.chainWrite {c off v hw} (hs : u.Kept s) : u.Kept (s.chainWrite c off v hw) := by
  unfold State.chainWrite
  split
  · exact hs.txCtrlWrite
  · exact hs.txCalWrite
  · exact hs.supTxSubmit
  · exact hs.supTxCancel
  · exact .ite hs.setReg hs.plainWrite

theorem Kept.dutyCfgWrite {n v hw} (hs : u.Kept s) : u.Kept (s.dutyCfgWrite n v hw) := .ite hs.plainWrite hs

theorem Kept.dutyShareWrite {n t v hw} (hs : u.Kept s) : u.Kept (s.dutyShareWrite n t v hw) := .ite hs.plainWrite hs

theorem Kept.radioWrite {m a v hw} (hs : u.Kept s) : u.Kept (s.radioWrite m a v hw) := by
  unfold State.radioWrite
  refine .ite ?_
      (.ite hs.pathCtrlWrite
          (.ite hs.pathCtrlWrite
              (.ite hs.tunerWrite
                  (.ite hs.chainWrite
                      (.ite hs.dutyCfgWrite (.ite hs.dutyShareWrite (.ite hs.specWrite hs.plainWrite)))))))
  extract_lets
  split
  · exact hs.rxCfgWrite
  · exact hs.rxTuneWrite
  · exact hs.rxTuneWrite
  · exact hs.plainWrite

theorem Kept.decoderWrite {a v hw} (hs : u.Kept s) : u.Kept (s.decoderWrite a v hw) :=
  .ite hs.reserveWrite (.ite hs.tqWrite hs.plainWrite)

theorem Kept.engCtlWrite {n v} (hs : u.Kept s) : u.Kept (s.engCtlWrite n v) := by
  unfold State.engCtlWrite
  extract_lets s1
  have hs1 : u.Kept s1 := .ite hs.stopEng hs
  exact .ite hs1.restartEng hs1

theorem Kept.engBlockWrite {a v hw} (hs : u.Kept s) : u.Kept (s.engBlockWrite a v hw) := by
  unfold State.engBlockWrite
  refine .ite hs.tprioWrite (.ite ?_ hs.plainWrite)
  extract_lets
  split
  · exact hs.engCtlWrite
  · exact hs.modWin
  · exact hs.idataLoWrite
  · exact hs.idataHiWrite

theorem Kept.regWrite {m a v hw} (hs : u.Kept s) : u.Kept (s.regWrite m a v hw) := by
  unfold State.regWrite
  refine .ite hs ?_
  split
  · exact hs.sysWrite
  · exact hs.girthBlockWrite
  · exact hs.cinchBlockWrite
  · exact hs.rtcBlockWrite
  · exact .ite hs.memFlipArm (.ite hs.memClear hs.plainWrite)
  · exact .ite hs.xspiGo (.ite hs.setReg hs.plainWrite)
  · exact hs.cipherWrite
  · exact hs.tableWrite
  · exact hs.tenantBlockWrite
  · exact hs.ethWrite
  · exact hs.ethWrite
  · exact hs.pinBlockWrite
  · exact hs.radioWrite
  · exact hs.radioWrite
  · exact hs.radioWrite
  · exact hs.radioWrite
  · exact hs.decoderWrite
  · exact hs.engBlockWrite
  · exact hs.plainWrite

theorem Kept.execRegisterWrite {m addr v hw} (hs : u.Kept s) : u.KeptIn (execRegisterWrite m addr v hw s) :=
  hs.iff fun _ h => h.regGate (fun _ h1 => h1.regWrite)

/-! ## Cipher jobs (Machine/Jobs) -/

theorem Kept.countStatus {st} (hs : u.Kept s) : u.Kept (s.countStatus st) := by
  unfold State.countStatus
  split
  · exact hs.finc
  · exact hs.finc
  · exact hs.finc
  · exact hs.finc
  · exact hs.finc
  · exact hs

theorem Kept.jobWrites {t n ws} (hs : u.Kept s) : u.Kept (s.jobWrites t n ws).1 := by
  unfold State.jobWrites
  split
  · exact hs.dmaRefuse.fst
  · exact (hs.foldl fun _ _ h => h.dmaWrite).fst

theorem Kept.sealed {c head x st result} (hs : u.Kept s) : u.Kept (s.sealed c head x st result) := by
  unfold State.sealed
  extract_lets
  split
  · split
    · exact .ite hs.finc hs.txSubmit
    · exact .ite hs hs.txSubmit
  · exact .ite hs.finc hs.txSubmit
  · exact hs

theorem Kept.unitDone {u' st result} (hs : u.Kept s) : u.Kept (s.unitDone u' st result) := by
  unfold State.unitDone
  split
  · exact hs.sealed
  · exact .ite hs.mgmtTake hs.finc
  · exact .ite hs.mgmtQueue hs
  · exact .ite hs.mgmtAnswer hs
  · exact hs
  · exact hs

theorem Kept.endJob {r st result} (hs : u.Kept s) : u.Kept (s.endJob r st result) := by
  unfold State.endJob
  extract_lets _ s1
  have hs1 : u.Kept s1 := hs.same.countStatus.keygenGrant
  split
  · exact hs1.cipherNotice
  · exact hs1.same
  · exact hs1.unitDone

theorem Kept.keyEnd {r} (hs : u.Kept s) : u.Kept (s.keyEnd r) := by
  unfold State.keyEnd
  extract_lets
  split
  · exact hs.setKeySlot
  · exact hs.writeBytes.dropCached
  · exact hs.writeBytes.dropCached
  · exact hs.writeBytes.dropCached
  · exact hs

theorem Kept.execCipherJobComplete {u'} (hs : u.Kept s) : u.KeptIn (execCipherJobComplete u' s) := by
  unfold Machine.execCipherJobComplete
  split
  · exact hs
  · refine .ite hs (.ite hs.endJob (.ite hs.endJob (.ite hs ?_)))
    split
    next s1 e =>
      have hs1 : u.Kept s1 := .ofFst e hs.jobWrites
      exact hs1.keyEnd.endJob
    next s1 e =>
      have hs1 : u.Kept s1 := .ofFst e hs.jobWrites
      exact hs1.endJob

theorem Kept.execJobAbort {u'} (hs : u.Kept s) : u.KeptIn (execJobAbort u' s) := by
  unfold Machine.execJobAbort
  split
  · exact hs
  · exact hs.endJob

/-! ## Loads, stores and ports (Machine/LoadStore) -/

theorem Kept.refuse {n b write target} (hs : u.Kept s) : u.Kept (s.refuse n b write target) := hs.refuseFence

theorem Kept.loadOwn {n k rd size sgn} (hs : u.Kept s) : u.Kept (s.loadOwn n k rd size sgn) := by
  unfold State.loadOwn
  extract_lets
  split
  · exact hs.noteBad.engFault
  · extract_lets s1
    have hs1 : u.Kept s1 := .ite hs.noteCorrected hs
    exact hs1.modEng

theorem Kept.readRegs {n a size} (hs : u.Kept s) : u.Kept (s.readRegs n a size).2 := by
  unfold State.readRegs
  extract_lets m r q
  have hr : u.Kept r.2 := hs.regRead
  have hq : u.Kept q.2 := hr.regRead
  exact .iteSnd hs.refuse.snd (.iteSnd hq.snd hr.snd)

theorem Kept.readRam {n b size} (hs : u.Kept s) : u.Kept (s.readRam n b size).2 := by
  unfold State.readRam
  refine .iteSnd hs.refuse.snd (.iteSnd ?_ ?_)
  · extract_lets f
    have hf : u.Kept f.2 := hs.free
    exact hf.snd
  · extract_lets r
    have hr : u.Kept r.2.2 := hs.readWord
    exact hr.snd

theorem Kept.loadFar {n b place slot rd size sgn} (hs : u.Kept s) :
    u.KeptOpt ((s.loadFar n b place slot rd size sgn).map Prod.snd) := by
  unfold State.loadFar
  split
  · exact .iteMap .none hs.readRam.opt
  · refine .iteMap hs.refuse.opt ?_
    split
    next e =>
      exact (Kept.ofSnd e hs.windowRead).opt
    next e =>
      exact (Kept.ofSnd e hs.windowRead).opt
  · exact hs.readRegs.opt
  · exact (Kept.ite hs hs.postRefused).opt
  · exact hs.opt

theorem Kept.outAdd {n b txn kind} (hs : u.Kept s) : u.Kept (s.outAdd n b txn kind) := hs.modEng

theorem Kept.loadRemote {n a place rd size sgn} (hs : u.Kept s) : u.KeptOpt (s.loadRemote n a place rd size sgn) :=
  KeptOpt.ite .none (.map hs.loadFar fun _ h => h.linkEnter.modEng.outAdd)

theorem Kept.accessHeld {n a} (hs : u.Kept s) : u.Kept (s.accessHeld n a) := .ite hs hs.linkHold

theorem Kept.loadAt {n a rd size sgn} (hs : u.Kept s) : u.KeptOpt (s.loadAt n a rd size sgn) := by
  unfold State.loadAt
  refine KeptOpt.ite hs.engFault.opt ?_
  split
  · exact hs.engFault.opt
  · exact hs.loadOwn.opt
  · exact hs.loadRemote

theorem Kept.loadOp {c p rd rs1 imm size sgn} (hs : u.Kept s) : u.Kept (loadOp c p rd rs1 imm size sgn s) :=
  hs.issue (fun _ _ h => h.loadAt) (fun _ h1 => h1.accessHeld)

theorem Kept.execLb {c p rd rs1 imm} (hs : u.Kept s) : u.KeptIn (execLb c p rd rs1 imm s) := hs.loadOp

theorem Kept.execLbu {c p rd rs1 imm} (hs : u.Kept s) : u.KeptIn (execLbu c p rd rs1 imm s) := hs.loadOp

theorem Kept.execLh {c p rd rs1 imm} (hs : u.Kept s) : u.KeptIn (execLh c p rd rs1 imm s) := hs.loadOp

theorem Kept.execLhu {c p rd rs1 imm} (hs : u.Kept s) : u.KeptIn (execLhu c p rd rs1 imm s) := hs.loadOp

theorem Kept.execLw {c p rd rs1 imm} (hs : u.Kept s) : u.KeptIn (execLw c p rd rs1 imm s) := hs.loadOp

theorem Kept.execLdp {c p rd rs1 imm} (hs : u.Kept s) : u.KeptIn (execLdp c p rd rs1 imm s) := hs.loadOp

theorem Kept.takeFlip {n k} (hs : u.Kept s) : u.Kept (s.takeFlip n k).2 :=
  .iteSnd hs.modEng.snd (.iteSnd hs.fset.fset.setReg.setReg.snd hs)

theorem Kept.storeKey {n k addr size v} (hs : u.Kept s) : u.Kept (s.storeKey n k addr size v).1 := by
  unfold State.storeKey
  extract_lets f r
  have hf : u.Kept f.2 := hs.takeFlip
  have hr : u.Kept r.1 := hf.writePart
  exact .iteFst hf.setWord64.fst (.iteFst hr hs.writePart)

theorem Kept.storeOwn {n k size v} (hs : u.Kept s) : u.Kept (s.storeOwn n k size v) := by
  unfold State.storeOwn
  extract_lets r
  have hr : u.Kept r.1 := hs.storeKey
  exact .ite hr.modEng hr.engFault

theorem Kept.writeRegs {n a size v} (hs : u.Kept s) : u.Kept (s.writeRegs n a size v) := by
  unfold State.writeRegs
  extract_lets m s1
  have hs1 : u.Kept s1 := hs.regWrite
  exact .ite hs.refuse (.ite hs1.regWrite hs1)

theorem Kept.writeRam {n b size v} (hs : u.Kept s) : u.Kept (s.writeRam n b size v) :=
  .ite hs.refuse (.ite hs.takeFlip.setFlip (.ite hs hs.storeKey))

theorem Kept.storeRemote {n a place size v} (hs : u.Kept s) : u.KeptOpt (s.storeRemote n a place size v) := by
  unfold State.storeRemote
  extract_lets b waits link t s1
  have ht : u.Kept t.2 := hs.linkEnter
  have hs1 : u.Kept s1 := ht.outAdd
  refine KeptOpt.ite .none (Kept.opt ?_)
  split
  · exact hs.linkEnter.outAdd.writeRam
  · exact hs.linkEnter.outAdd.writeRegs
  · exact .ite hs.linkEnter.outAdd hs.linkEnter.outAdd.postRefused
  · exact hs1

theorem Kept.storeAt {n a size v} (hs : u.Kept s) : u.KeptOpt (s.storeAt n a size v) := by
  unfold State.storeAt
  refine KeptOpt.ite hs.engFault.opt ?_
  split
  · exact hs.engFault.opt
  · exact hs.engFault.opt
  · exact hs.storeOwn.opt
  · exact hs.storeRemote

theorem Kept.storeOp {c p rs2 rs1 imm size} (hs : u.Kept s) : u.Kept (storeOp c p rs2 rs1 imm size s) :=
  hs.issue (fun _ _ h => h.storeAt) (fun _ h1 => h1.accessHeld)

theorem Kept.execSb {c p rs2 rs1 imm} (hs : u.Kept s) : u.KeptIn (execSb c p rs2 rs1 imm s) := hs.storeOp

theorem Kept.execSh {c p rs2 rs1 imm} (hs : u.Kept s) : u.KeptIn (execSh c p rs2 rs1 imm s) := hs.storeOp

theorem Kept.execSw {c p rs2 rs1 imm} (hs : u.Kept s) : u.KeptIn (execSw c p rs2 rs1 imm s) := hs.storeOp

theorem Kept.execSdp {c p rs2 rs1 imm} (hs : u.Kept s) : u.KeptIn (execSdp c p rs2 rs1 imm s) :=
  hs.issue (fun _ _ h => h.storeAt) (fun _ h1 => h1.accessHeld)

theorem Kept.execRemoteAccessComplete {c i} (hs : u.Kept s) : u.KeptIn (execRemoteAccessComplete c i s) := by
  unfold Machine.execRemoteAccessComplete
  extract_lets
  split
  · exact hs
  · exact .ite hs.modEng hs

theorem Kept.coreIn {n port} (hs : u.Kept s) : u.Kept (s.coreIn n port).2 := by
  unfold State.coreIn
  extract_lets
  refine .iteSnd hs (.iteSnd hs ?_)
  split
  · exact hs.modEng.snd
  · exact hs
  · exact hs
  · exact hs
  · exact hs.modEng.snd
  · exact hs
  · exact hs
  · exact hs
  · exact hs
  · exact hs
  · exact hs
  · exact hs
  · exact hs
  · exact hs

theorem Kept.copPort {n port a posted} (hs : u.Kept s) : u.Kept (s.copPort n port a posted).2 := by
  unfold State.copPort
  extract_lets f
  split
  · clear_value f
    split
    · exact hs.copSubmit
    · exact hs.trngTake
    · exact hs
    · exact hs
  · exact .iteSnd hs hs.cop1
  · exact hs.cop2S
  · exact hs.cop3
  · exact hs

theorem Kept.resultIn {n port} (hs : u.Kept s) : u.Kept (s.resultIn n port).2 :=
  .iteSnd hs (.iteSnd hs.refuse.snd (.iteSnd hs hs))

theorem Kept.serviceIn {n port} (hs : u.Kept s) : u.Kept (s.serviceIn n port).2 := by
  unfold State.serviceIn
  extract_lets
  refine .iteSnd hs ?_
  split
  · exact hs
  · exact hs
  · exact hs
  · exact hs
  · exact hs
  · exact hs

theorem Kept.portIn {n port} (hs : u.Kept s) : u.Kept (s.portIn n port).2 :=
  .iteSnd hs.coreIn (.iteSnd hs (.iteSnd hs.copPort (.iteSnd hs.resultIn (.iteSnd hs.serviceIn (.iteSnd hs hs)))))

theorem Kept.flipWrite {n f} (hs : u.Kept s) : u.Kept (s.flipWrite n f) := hs.modEng

theorem Kept.modNq {n f} (hs : u.Kept s) : u.Kept (s.modNq n f) := hs.modEng

theorem Kept.coreOut {n port v} (hs : u.Kept s) : u.Kept (s.coreOut n port v) := by
  unfold State.coreOut
  refine .ite hs.taskCfgWrite (.ite hs.modEng ?_)
  split
  · exact hs.modNq
  · exact hs.modNq
  · exact hs.taskCtrlWrite
  · exact hs.msgPost
  · exact hs.modNq
  · exact hs.modNq
  · exact hs.modNq
  · exact hs.flipWrite
  · exact hs.flipWrite
  · exact hs.engFlipArm
  · exact hs

theorem Kept.portOut {n port v} (hs : u.Kept s) : u.Kept (s.portOut n port v) := by
  unfold State.portOut
  refine .ite hs.coreOut
      (.ite (.ite hs (.ite hs.haltSvc (.ite hs.engRestartWrite hs)))
          (.ite hs.copPort (.ite (.ite hs.refuse hs) (.ite ?_ ?_))))
  · split
    · exact hs.ringRdWrite
    · exact hs.txPort
    · exact hs.txPort
    · exact hs.txCancelPort
    · exact hs
  · split
    · exact hs.supHaltSvc
    · extract_lets
      exact .ite hs.same hs
    · exact hs

theorem Kept.portHeld {n port l} (hs : u.Kept s) : u.Kept (s.portHeld n port l) := .ite hs hs.linkHold

theorem Kept.execInPort {c p rd rs1 imm} (hs : u.Kept s) : u.KeptIn (execInPort c p rd rs1 imm s) := by
  unfold Machine.execInPort
  extract_lets
  refine hs.issue (fun e t h => ?_) (fun _ h1 => h1.portHeld)
  extract_lets port link q r
  have hq : u.Kept q.2 := h.linkEnter
  have hr : u.Kept r.2 := hq.portIn
  exact KeptOpt.ite h.engFault.opt (KeptOpt.ite .none hr.modEng.opt)

theorem Kept.execOutPort {c p rs2 rs1 imm} (hs : u.Kept s) : u.KeptIn (execOutPort c p rs2 rs1 imm s) := by
  unfold Machine.execOutPort
  extract_lets
  refine hs.issue (fun e t h => ?_) (fun _ h1 => h1.portHeld)
  extract_lets port v link q
  have hq : u.Kept q.2 := h.linkEnter
  exact KeptOpt.ite h.engFault.opt
      (KeptOpt.ite .none (KeptOpt.ite h.linkLeave.modEng.portOut.opt hq.modEng.portOut.opt))

/-! ## Every command (Machine/Dispatch) -/

theorem Kept.exec {c} (hs : u.Kept s) : u.KeptIn (exec c s) := by
  cases c with
  | registerWrite => exact hs.execRegisterWrite
  | suppliesInRange => exact hs.execSuppliesInRange
  | railFall => exact hs.execRailFall
  | brownout => exact hs.execBrownout
  | resetNAssert => exact hs.execResetNAssert
  | resetNRelease => exact hs.execResetNRelease
  | jtagReset => exact hs.execJtagReset
  | softReset => exact hs.execSoftReset
  | sensorUpdate => exact hs.execSensorUpdate
  | referenceStable => exact hs.execReferenceStable
  | sramFillDone => exact hs.execSramFillDone
  | latigoTrainDone => exact hs.execLatigoTrainDone
  | flashDiscovery => exact hs.execFlashDiscovery
  | headerCheck => exact hs.execHeaderCheck
  | sectionLoad => exact hs.execSectionLoad
  | signatureCheck => exact hs.execSignatureCheck
  | settingsCheck => exact hs.execSettingsCheck
  | handover => exact hs.execHandover
  | supHalterExpiry => exact hs.execSupHalterExpiry
  | supHaltSvc => exact hs.execSupHaltSvc
  | trialStart => exact hs.execTrialStart
  | prefBankWrite => exact hs.execPrefBankWrite
  | confirm => exact hs.execConfirm
  | logWriteStep => exact hs.execLogWriteStep
  | logAdd => exact hs.execLogAdd
  | latigoCrcError => exact hs.execLatigoCrcError
  | latigoRetrainEnd => exact hs.execLatigoRetrainEnd
  | latigoTimeoutExpiry => exact hs.execLatigoTimeoutExpiry
  | latigoTransactionDone => exact hs.execLatigoTransactionDone
  | addi => exact hs.execAddi
  | andi => exact hs.execAndi
  | ori => exact hs.execOri
  | xori => exact hs.execXori
  | slti => exact hs.execSlti
  | sltiu => exact hs.execSltiu
  | slli => exact hs.execSlli
  | srli => exact hs.execSrli
  | srai => exact hs.execSrai
  | rori => exact hs.execRori
  | add => exact hs.execAdd
  | sub => exact hs.execSub
  | and => exact hs.execAnd
  | or => exact hs.execOr
  | xor => exact hs.execXor
  | sll => exact hs.execSll
  | srl => exact hs.execSrl
  | sra => exact hs.execSra
  | ror => exact hs.execRor
  | slt => exact hs.execSlt
  | sltu => exact hs.execSltu
  | min => exact hs.execMin
  | max => exact hs.execMax
  | minu => exact hs.execMinu
  | maxu => exact hs.execMaxu
  | andn => exact hs.execAndn
  | clz => exact hs.execClz
  | popc => exact hs.execPopc
  | rev8 => exact hs.execRev8
  | sextb => exact hs.execSextb
  | sexth => exact hs.execSexth
  | zexth => exact hs.execZexth
  | movl => exact hs.execMovl
  | movh => exact hs.execMovh
  | cmp => exact hs.execCmp
  | cmpi => exact hs.execCmpi
  | plog => exact hs.execPlog
  | mul => exact hs.execMul
  | mulu => exact hs.execMulu
  | mac => exact hs.execMac
  | multiplierUpdate => exact hs.execMultiplierUpdate
  | mfs => exact hs.execMfs
  | mts => exact hs.execMts
  | lb => exact hs.execLb
  | lbu => exact hs.execLbu
  | lh => exact hs.execLh
  | lhu => exact hs.execLhu
  | lw => exact hs.execLw
  | ldp => exact hs.execLdp
  | sb => exact hs.execSb
  | sh => exact hs.execSh
  | sw => exact hs.execSw
  | sdp => exact hs.execSdp
  | inPort => exact hs.execInPort
  | outPort => exact hs.execOutPort
  | b => exact hs.execB
  | call => exact hs.execCall
  | jalr => exact hs.execJalr
  | fence => exact hs.execFence
  | yield => exact hs.execYield
  | brk => exact hs.execBrk
  | dtab => exact hs.execDtab
  | eccWriteback => exact hs.execEccWriteback
  | remoteAccessComplete => exact hs.execRemoteAccessComplete
  | copAnswer => exact hs.execCopAnswer
  | submit => exact hs.execSubmit
  | rand => exact hs.execRand
  | qstat => exact hs.execQstat
  | ringRd => exact hs.execRingRd
  | ringWr => exact hs.execRingWr
  | free => exact hs.execFree
  | tq => exact hs.execTq
  | fcount => exact hs.execFcount
  | crcInit => exact hs.execCrcInit
  | crc32B => exact hs.execCrc32B
  | crc32W => exact hs.execCrc32W
  | crc16B => exact hs.execCrc16B
  | crc8B => exact hs.execCrc8B
  | pn9 => exact hs.execPn9
  | pn9Init => exact hs.execPn9Init
  | golayEnc => exact hs.execGolayEnc
  | golayDec => exact hs.execGolayDec
  | brev => exact hs.execBrev
  | crcRd => exact hs.execCrcRd
  | arm => exact hs.execArm
  | disarm => exact hs.execDisarm
  | nowNs => exact hs.execNowNs
  | nowFrame => exact hs.execNowFrame
  | cinchCompareFire => exact hs.execCinchCompareFire
  | taskCfgWrite => exact hs.execTaskCfgWrite
  | taskSignal => exact hs.execTaskSignal
  | taskCancel => exact hs.execTaskCancel
  | noticeArrival => exact hs.execNoticeArrival
  | nqPop => exact hs.execNqPop
  | msgPost => exact hs.execMsgPost
  | haltSvc => exact hs.execHaltSvc
  | clusterHalterExpiry => exact hs.execClusterHalterExpiry
  | engRestart => exact hs.execEngRestart
  | engctlStop => exact hs.execEngctlStop
  | engctlRestart => exact hs.execEngctlRestart
  | idataLoWrite => exact hs.execIdataLoWrite
  | idataHiWrite => exact hs.execIdataHiWrite
  | idataLoRead => exact hs.execIdataLoRead
  | idataHiRead => exact hs.execIdataHiRead
  | tprioWrite => exact hs.execTprioWrite
  | priorityChangeArrival => exact hs.execPriorityChangeArrival
  | engFlipArm => exact hs.execEngFlipArm
  | fenceWrite => exact hs.execFenceWrite
  | tenantSuspend => exact hs.execTenantSuspend
  | tenantResume => exact hs.execTenantResume
  | pathStateReq => exact hs.execPathStateReq
  | pathStandbyReached => exact hs.execPathStandbyReached
  | pathReceiveReached => exact hs.execPathReceiveReached
  | pllLoss => exact hs.execPllLoss
  | pathRateWrite => exact hs.execPathRateWrite
  | lnaBypassWrite => exact hs.execLnaBypassWrite
  | tunerCfgWrite => exact hs.execTunerCfgWrite
  | tunerSamplesStart => exact hs.execTunerSamplesStart
  | txStateReq => exact hs.execTxStateReq
  | txStandbyReached => exact hs.execTxStandbyReached
  | txAutoWake => exact hs.execTxAutoWake
  | txStartSequence => exact hs.execTxStartSequence
  | nodeAccountRequest => exact hs.execNodeAccountRequest
  | nodeAccountAnswer => exact hs.execNodeAccountAnswer
  | txSynthLock => exact hs.execTxSynthLock
  | ccaWindowEnd => exact hs.execCcaWindowEnd
  | backoffExpiry => exact hs.execBackoffExpiry
  | frontEndStep => exact hs.execFrontEndStep
  | txCarrierEnd => exact hs.execTxCarrierEnd
  | txLatestStartExpiry => exact hs.execTxLatestStartExpiry
  | txSubmit => exact hs.execTxSubmit
  | txSubmitFetchDone => exact hs.execTxSubmitFetchDone
  | txCancel => exact hs.execTxCancel
  | supTxSubmit => exact hs.execSupTxSubmit
  | supTxCancel => exact hs.execSupTxCancel
  | txCalGo => exact hs.execTxCalGo
  | txCalFlush => exact hs.execTxCalFlush
  | txCalDone => exact hs.execTxCalDone
  | rxEnable => exact hs.execRxEnable
  | rxDisable => exact hs.execRxDisable
  | rxOwnerWrite => exact hs.execRxOwnerWrite
  | fillTimerExpiry => exact hs.execFillTimerExpiry
  | blankRecovery => exact hs.execBlankRecovery
  | syncDetect => exact hs.execSyncDetect
  | detectorWindowEnd => exact hs.execDetectorWindowEnd
  | envelopeUpdate => exact hs.execEnvelopeUpdate
  | specGo => exact hs.execSpecGo
  | specDone => exact hs.execSpecDone
  | ingressSyncRecord => exact hs.execIngressSyncRecord
  | ingressHeader => exact hs.execIngressHeader
  | codewordStart => exact hs.execCodewordStart
  | codewordFilled => exact hs.execCodewordFilled
  | contextLoadDone => exact hs.execContextLoadDone
  | iterationEnd => exact hs.execIterationEnd
  | contextStoreDone => exact hs.execContextStoreDone
  | ingressLastSoftBit => exact hs.execIngressLastSoftBit
  | ingressEndReport => exact hs.execIngressEndReport
  | ringRdWrite => exact hs.execRingRdWrite
  | decoderTqWrite => exact hs.execDecoderTqWrite
  | decoderReserveWrite => exact hs.execDecoderReserveWrite
  | relayHandle => exact hs.execRelayHandle
  | relaySort => exact hs.execRelaySort
  | relayVerifyResult => exact hs.execRelayVerifyResult
  | relayTxCompletion => exact hs.execRelayTxCompletion
  | relayHandleF1 => exact hs.execRelayHandleF1
  | reservationStart => exact hs.execReservationStart
  | reservationEnd => exact hs.execReservationEnd
  | aliasSet => exact hs.execAliasSet
  | aliasDelete => exact hs.execAliasDelete
  | aliasGet => exact hs.execAliasGet
  | cinchBoundary => exact hs.execCinchBoundary
  | cinchOutFall => exact hs.execCinchOutFall
  | cinchDecision => exact hs.execCinchDecision
  | slotStart => exact hs.execSlotStart
  | ppsEdge => exact hs.execPpsEdge
  | ptpRollover => exact hs.execPtpRollover
  | airObsSubmit => exact hs.execAirObsSubmit
  | holdoverKeepExpiry => exact hs.execHoldoverKeepExpiry
  | reacquire => exact hs.execReacquire
  | rateWrite => exact hs.execRateWrite
  | planSwapRequest => exact hs.execPlanSwapRequest
  | planWrite => exact hs.execPlanWrite
  | beaconBuild => exact hs.execBeaconBuild
  | beaconCompletion => exact hs.execBeaconCompletion
  | extenderUpdate => exact hs.execExtenderUpdate
  | lookup => exact hs.execLookup
  | insert => exact hs.execInsert
  | delete => exact hs.execDelete
  | readWay => exact hs.execReadWay
  | routeSet => exact hs.execRouteSet
  | routeGet => exact hs.execRouteGet
  | forward => exact hs.execForward
  | inboxRd => exact hs.execInboxRd
  | sweepStep => exact hs.execSweepStep
  | ecbEnc => exact hs.execEcbEnc
  | ecbDec => exact hs.execEcbDec
  | ctr => exact hs.execCtr
  | ccmEnc => exact hs.execCcmEnc
  | ccmDec => exact hs.execCcmDec
  | gcmEnc => exact hs.execGcmEnc
  | gcmDec => exact hs.execGcmDec
  | kwWrap => exact hs.execKwWrap
  | kwUnwrap => exact hs.execKwUnwrap
  | sha256 => exact hs.execSha256
  | ecdsaVerify => exact hs.execEcdsaVerify
  | ecdsaSign => exact hs.execEcdsaSign
  | nkeySet => exact hs.execNkeySet
  | nkeyDerive => exact hs.execNkeyDerive
  | nkeyErase => exact hs.execNkeyErase
  | cipherJobComplete => exact hs.execCipherJobComplete
  | jobAbort => exact hs.execJobAbort
  | loadKey => exact hs.execLoadKey
  | zeroize => exact hs.execZeroize
  | keygen => exact hs.execKeygen
  | eccZeroize => exact hs.execEccZeroize
  | eccSave => exact hs.execEccSave
  | trngTestFail => exact hs.execTrngTestFail
  | trngRetest => exact hs.execTrngRetest
  | trngStartupDone => exact hs.execTrngStartupDone
  | trngDataRead => exact hs.execTrngDataRead
  | meterSample => exact hs.execMeterSample
  | packSample => exact hs.execPackSample
  | mainsOkEdge => exact hs.execMainsOkEdge
  | mainsDebounceExpiry => exact hs.execMainsDebounceExpiry
  | packEstWrite => exact hs.execPackEstWrite
  | ledgerLowRead => exact hs.execLedgerLowRead
  | ledgerHighRead => exact hs.execLedgerHighRead
  | agentMessage => exact hs.execAgentMessage
  | die1Ready => exact hs.execDie1Ready
  | girthCtrlWrite => exact hs.execGirthCtrlWrite
  | naccRead => exact hs.execNaccRead
  | naccSet => exact hs.execNaccSet
  | naccCharge => exact hs.execNaccCharge
  | naccClear => exact hs.execNaccClear
  | sleepRequest => exact hs.execSleepRequest
  | deepSleepRequest => exact hs.execDeepSleepRequest
  | offRequest => exact hs.execOffRequest
  | sleepEntry => exact hs.execSleepEntry
  | deepSleepEntry => exact hs.execDeepSleepEntry
  | offEntry => exact hs.execOffEntry
  | wakeAlarm => exact hs.execWakeAlarm
  | wakeNLow => exact hs.execWakeNLow
  | stirrupMatch => exact hs.execStirrupMatch
  | survivalWindowEnd => exact hs.execSurvivalWindowEnd
  | memFlipArm => exact hs.execMemFlipArm
  | memClear => exact hs.execMemClear
  | memClearDone => exact hs.execMemClearDone
  | burnisherGroup => exact hs.execBurnisherGroup
  | flashRead => exact hs.execFlashRead
  | flashProgram => exact hs.execFlashProgram
  | flashErase => exact hs.execFlashErase
  | blank => exact hs.execBlank
  | hcheck => exact hs.execHcheck
  | verify => exact hs.execVerify
  | flashCmdDone => exact hs.execFlashCmdDone
  | windowLineFill => exact hs.execWindowLineFill
  | eraseSuspend => exact hs.execEraseSuspend
  | eraseResume => exact hs.execEraseResume
  | pageProgramDone => exact hs.execPageProgramDone
  | dqsTimeout => exact hs.execDqsTimeout
  | rtcTick => exact hs.execRtcTick
  | rtcLoad => exact hs.execRtcLoad
  | xtalFail => exact hs.execXtalFail
  | vbatSwitchover => exact hs.execVbatSwitchover
  | vddaSwitchback => exact hs.execVddaSwitchback
  | rtcShadowFreeze => exact hs.execRtcShadowFreeze
  | rtcShadowRelease => exact hs.execRtcShadowRelease
  | shadowTimeout => exact hs.execShadowTimeout
  | timerStep => exact hs.execTimerStep
  | tmrStart => exact hs.execTmrStart
  | tmrStop => exact hs.execTmrStop
  | timerClear => exact hs.execTimerClear
  | reloadCommit => exact hs.execReloadCommit
  | compareCommit => exact hs.execCompareCommit
  | ethModeWrite => exact hs.execEthModeWrite
  | ethLinkUp => exact hs.execEthLinkUp
  | ethFrameRx => exact hs.execEthFrameRx
  | ethFrameTx => exact hs.execEthFrameTx
  | mdioRead => exact hs.execMdioRead
  | mdioWrite => exact hs.execMdioWrite
  | ptpStep => exact hs.execPtpStep
  | ptpTimeRead => exact hs.execPtpTimeRead
  | txtsPop => exact hs.execTxtsPop
  | mgmtPendRead => exact hs.execMgmtPendRead
  | mgmtDone => exact hs.execMgmtDone
  | mgmtSlotExpiry => exact hs.execMgmtSlotExpiry
  | pinmuxSelWrite => exact hs.execPinmuxSelWrite
  | parkEnd => exact hs.execParkEnd
  | uartTxWrite => exact hs.execUartTxWrite
  | uartRxPop => exact hs.execUartRxPop
  | uartRxByte => exact hs.execUartRxByte
  | spiExchange => exact hs.execSpiExchange
  | spiExchangeDone => exact hs.execSpiExchangeDone
  | i2cStart => exact hs.execI2cStart
  | i2cWrite => exact hs.execI2cWrite
  | i2cRead => exact hs.execI2cRead
  | i2cStop => exact hs.execI2cStop
  | i2cOpDone => exact hs.execI2cOpDone
  | recoveryHelloTick => exact hs.execRecoveryHelloTick
  | recoveryFrame => exact hs.execRecoveryFrame
  | hello => exact hs.execHello
  | baud => exact hs.execBaud
  | recoveryLoad => exact hs.execRecoveryLoad
  | run => exact hs.execRun
  | idcode => exact hs.execIdcode
  | bypass => exact hs.execBypass
  | samplePreload => exact hs.execSamplePreload
  | extest => exact hs.execExtest
  | clamp => exact hs.execClamp
  | highz => exact hs.execHighz
  | debugChallengeRead => exact hs.execDebugChallengeRead
  | debugUnlock => exact hs.execDebugUnlock
  | debugStop => exact hs.execDebugStop
  | debugStep => exact hs.execDebugStep
  | debugResume => exact hs.execDebugResume
  | vbatLoss => exact hs.execVbatLoss
  | ethLinkDown => exact hs.execEthLinkDown
  | mdioDone => exact hs.execMdioDone
  | uartTxByteSent => exact hs.execUartTxByteSent
  | recoveryBaudApply => exact hs.execRecoveryBaudApply
  | trngConditionerOutput => exact hs.execTrngConditionerOutput
  | ppsOutFall => exact hs.execPpsOutFall
  | slotStrobeEnd => exact hs.execSlotStrobeEnd
  | wakeNRelease => exact hs.execWakeNRelease
  | eccKeyOpDone => exact hs.execEccKeyOpDone

end State

end Sys2Proof.Machine
end

section
/-!
PROOFS. The statements about every command and about the part: O55, O56, O58, O59, O60.
-/

namespace Sys2Proof.Machine

/-! ## What is kept by a command and by a step -/

/-- What every command keeps, whatever the state. -/
theorem State.kept_of_exec {c : Instr} {s t : State} (h : exec c s = .next t) : s.Kept t := by
  have hk := (State.Kept.refl s).exec (c := c)
  rw [h] at hk
  exact hk

/-- A step runs the command at the front of the queue on the rest of it, or idles. -/
theorem step_cases {s t : State} (h : step s = .next t) :
    (s.pending = [] ∧ t = s.idle) ∨
      ∃ c rest, s.pending = c :: rest ∧ exec c { s with pending := rest } = .next t := by
  unfold step at h
  split at h
  · next hp => exact .inl ⟨hp, (Host.Outcome.next.inj h).symm⟩
  · next c rest hp => exact .inr ⟨c, rest, hp, h⟩

/-- Settles O58: the idle step and every command keep the canonical form, and taking a command off the queue does not
touch it. -/
theorem stepKeepsCanon : Obligations.StepKeepsCanon := by
  intro s t hc h
  obtain ⟨-, rfl⟩ | ⟨c, rest, -, he⟩ := step_cases h
  · exact (State.Kept.refl s).idle.canon hc
  · exact (State.kept_of_exec he).canon hc

/-- Settles O59: no command touches the part or the queue, so a step takes the front of the queue and no more. -/
theorem partAndQueueKept : Obligations.PartAndQueueKept := by
  refine ⟨fun c s t h => ?_, fun s t h => ?_⟩
  · have hk := State.kept_of_exec h
    exact ⟨hk.pending, hk.variant, hk.fuses⟩
  · obtain ⟨hp, rfl⟩ | ⟨c, rest, hp, he⟩ := step_cases h
    · have hk := (State.Kept.refl s).idle
      exact ⟨by rw [hk.pending, hp, List.tail_nil], hk.variant, hk.fuses⟩
    · have hk := State.kept_of_exec he
      exact ⟨by rw [hk.pending, hp, List.tail_cons], hk.variant, hk.fuses⟩

/-! ## SYS_DEVICE_ID -/

/-- The row of SYS_DEVICE_ID: read-only fields, bits 7 to 4 reserved. -/
def deviceIdRow : RegDesc :=
  ⟨"SYS_DEVICE_ID", aSYS_DEVICE_ID, [], [⟨31, 16, .ro, 0x4512⟩, ⟨15, 8, .ro, 0xB0⟩, ⟨3, 3, .ro, 1⟩, ⟨2, 2, .ro, 1⟩,
    ⟨1, 1, .ro, 1⟩, ⟨0, 0, .ro, 1⟩]⟩

theorem regDesc_deviceId : regDesc aSYS_DEVICE_ID = some deviceIdRow := by rfl

/-- No variant's code has a bit in the reserved places. -/
theorem descRead_deviceIdRow (v : Variant) : descRead deviceIdRow (Config.deviceId v) = Config.deviceId v := by
  cases v <;> rfl

/-- A read of SYS_DEVICE_ID answers the code of the variant: no unit is absent there and no read is special there. -/
theorem State.regRead_deviceId (s : State) (m : Master) :
    (s.regRead m aSYS_DEVICE_ID).1 = Config.deviceId s.variant := by
  have habs : s.regAbsent aSYS_DEVICE_ID = false := rfl
  have hsp : s.readSpecial m aSYS_DEVICE_ID = none := rfl
  have hpage : pageCopy aSYS_DEVICE_ID = false := rfl
  have hshown : s.regShown m aSYS_DEVICE_ID = Config.deviceId s.variant := rfl
  simp only [State.regRead, habs, hsp, hpage, regDesc_deviceId, hshown, Bool.false_eq_true, if_false,
    descRead_deviceIdRow]

/-- Settles O60: the register shows the variant's code, and no command changes the variant. -/
theorem deviceIdFixed : Obligations.DeviceIdFixed := by
  intro s m
  refine ⟨?_, fun c t h => ?_⟩
  · rw [State.regRead_deviceId]
    cases s.variant <;> rfl
  · have hv : t.variant = s.variant := (State.kept_of_exec h).variant
    exact ⟨hv, by rw [State.regRead_deviceId, State.regRead_deviceId, hv]⟩

/-! ## Reset -/

/-- Nothing is listed at reset, so every register reads its reset word. -/
theorem State.fget_reset (f : Fld) : State.reset.fget f = fldOf f.lo f.width (regReset f.addr) := rfl

/-- Settles O56: tables are empty, so parts and registers have their defaults; the fields are those of the rows. -/
theorem resetState : Obligations.ResetState := by
  refine ⟨rfl, State.canon_reset, rfl, rfl, rfl, rfl, fun n => ⟨rfl, rfl, rfl⟩, ?_⟩
  simp only [State.fget_reset]
  decide

/-! ## Register writes -/

/-- The part after reset with firmware running and nothing else changed. -/
def runState : State := { State.reset with pkg := { State.reset.pkg with stage := .run } }

/-- In `runState` the supervisor reaches CINCH_AIR_OBS_w4. -/
theorem regOpen_runState : runState.regOpen (.core .sup) aCINCH_AIR_OBS_w4 true = true := by decide

/-- A write of CINCH_AIR_OBS_w4 with the submit bit clear changes nothing. -/
theorem exec_registerWrite_noSubmit :
    exec (.registerWrite (.core .sup) 0x10020150#32 0#32 0#32) runState = .next runState := by rfl

/-- AIR_OBS_SUBMIT sets the submit bit of the word itself; without a neighbour the observation is refused. -/
theorem exec_airObsSubmit_refused :
    exec (.airObsSubmit (.core .sup) 0#32) runState = .next (runState.finc fCINCH_COUNT_obs_refused) := by rfl

/-- Refutes O55: of the commands named, AIR_OBS_SUBMIT is a write with the submit bit set, whatever word it carries. A
plain write of that word with the bit clear submits nothing, where the command counts a refused observation. -/
theorem not_registerWrites : ¬ Obligations.RegisterWrites := by
  intro h
  obtain ⟨-, hnamed, -⟩ :=
    h runState (.core .sup) 0x10020150#32 0#32 0#32 0#7 ⟨"", 0, [], []⟩ ⟨0, 0, .ro, 0⟩ false 0#5 0#4
  obtain ⟨t, hw, hc⟩ := hnamed (by decide) regOpen_runState
    (aCINCH_AIR_OBS_w4, .airObsSubmit (.core .sup) 0#32) (List.mem_of_getElem? (i := 5) rfl) rfl
  have ht : t = runState := (Host.Outcome.next.inj (exec_registerWrite_noSubmit.symm.trans hw)).symm
  have ht' : t = runState.finc fCINCH_COUNT_obs_refused :=
    (Host.Outcome.next.inj (exec_airObsSubmit_refused.symm.trans hc)).symm
  have hone : (runState.finc fCINCH_COUNT_obs_refused).fget fCINCH_COUNT_obs_refused = 1 := by decide
  have hzero : runState.fget fCINCH_COUNT_obs_refused = 0 := by decide
  rw [← ht', ht, hzero] at hone
  exact absurd hone (by decide)

end Sys2Proof.Machine
end
